-- ==== Sys2Proof/Word.lean ====
section
/-! DEFINITION. The word types of the VC340 and the generic containers its records are made of: bytes, frame serials,
a value for each of two sides (slots A and B, audio pairs A and B) and a value for each lens axis. -/

namespace Sys2Proof

/-- A byte of a message, of the buffer memory or of a card sector (R194). -/
abbrev Byte := BitVec 8

/-- A frame serial: a 32-bit count that wraps (R3). -/
abbrev Serial := BitVec 32

/-- One of two like things: slot A or B, audio pair A or B. -/
inductive Side where
  | a
  | b
deriving DecidableEq, Repr

/-- The other side. -/
def Side.other : Side → Side
  | .a => .b
  | .b => .a

/-- The code of a slot or pair (formats). -/
def Side.code : Side → Nat
  | .a => 0
  | .b => 1

/-- The slot of a code (formats). -/
def slotOfCode : Nat → Option Side
  | 0 => some .a
  | 1 => some .b
  | _ => none

/-- One of the three lens axes. -/
inductive Axis where
  | zoom
  | focus
  | iris
deriving DecidableEq, Repr

/-- A value for each side. -/
structure Two (α : Type) where
  a : α
  b : α
deriving DecidableEq, Repr

/-- The value of one side. -/
def Two.get {α : Type} (t : Two α) : Side → α
  | .a => t.a
  | .b => t.b

/-- Replaces the value of one side. -/
def Two.set {α : Type} (t : Two α) (side : Side) (x : α) : Two α :=
  match side with
  | .a => { t with a := x }
  | .b => { t with b := x }

/-- A value for each lens axis. -/
structure PerAxis (α : Type) where
  zoom : α
  focus : α
  iris : α
deriving DecidableEq, Repr

/-- The value of one axis. -/
def PerAxis.get {α : Type} (t : PerAxis α) : Axis → α
  | .zoom => t.zoom
  | .focus => t.focus
  | .iris => t.iris

end Sys2Proof
end

