-- ==== Sys2Proof/Machine/Memory.lean ====
section
/-! DEFINITION. The buffer memory's bytes: the 256 MiB of SDRAM behind the buffer pages (R88), as a list of address and byte
pairs in one canonical form: addresses strictly rising, below the memory's size, and no byte listed that equals what an
unlisted address reads as. -/

namespace Sys2Proof.Machine

/-- The size of the buffer memory: 16,384 pages of 16 KiB (R88). -/
def memorySize : Nat := 268435456

/-- The size of a page (R88). -/
def pageSize : Nat := 16384

/-- What a byte that nothing has written reads as. DESIGN CHOICE, log entry 6: the manual gives the SDRAM no contents at
power-on, and no rule reads a byte that was not written. -/
def emptyByte : Byte := 0

/-- The contents of the buffer memory. -/
abbrev Memory := List Host.Cell

/-- The byte at an address. -/
def Memory.read : Memory → Nat → Byte
  | [], _ => emptyByte
  | (k, v) :: rest, addr => if k = addr then v else if addr < k then emptyByte else Memory.read rest addr

/-- Puts a cell in front, unless it holds what an unlisted address reads as. -/
def Memory.put (addr : Nat) (b : Byte) (rest : Memory) : Memory :=
  if b = emptyByte then rest else (addr, b) :: rest

/-- Writes a byte inside the memory, keeping the canonical form. -/
def Memory.writeCell : Memory → Nat → Byte → Memory
  | [], addr, b => Memory.put addr b []
  | (k, v) :: rest, addr, b =>
    if addr < k then Memory.put addr b ((k, v) :: rest)
    else if addr = k then Memory.put addr b rest
    else (k, v) :: Memory.writeCell rest addr b

/-- Writes a byte. No address at or above the memory's size exists, and a write there has nowhere to go. -/
def Memory.write (m : Memory) (addr : Nat) (b : Byte) : Memory :=
  if addr < memorySize then m.writeCell addr b else m

/-- Writes bytes at consecutive addresses. -/
def Memory.writeBytes (m : Memory) (addr : Nat) : List Byte → Memory
  | [] => m
  | b :: rest => Memory.writeBytes (m.write addr b) (addr + 1) rest

/-- Reads `n` bytes at consecutive addresses. -/
def Memory.readBytes (m : Memory) (addr : Nat) : Nat → List Byte
  | 0 => []
  | n + 1 => m.read addr :: Memory.readBytes m (addr + 1) n

/-- The address of byte `i` of data that fills a page list in order (R88, R94). -/
def pageAddress (pages : List Nat) (i : Nat) : Nat :=
  (pages[i / pageSize]?.getD 0) * pageSize + i % pageSize

/-- Places bytes in a page list from offset `i` on (R94). -/
def Memory.place (m : Memory) (pages : List Nat) (i : Nat) : List Byte → Memory
  | [] => m
  | b :: rest => Memory.place (m.write (pageAddress pages i) b) pages (i + 1) rest

/-- The first `n` bytes of the data in a page list from offset `i` on. -/
def Memory.fetch (m : Memory) (pages : List Nat) (i : Nat) : Nat → List Byte
  | 0 => []
  | n + 1 => m.read (pageAddress pages i) :: Memory.fetch m pages (i + 1) n

/-- The canonical form above a lower bound. -/
def Memory.wfFrom : Nat → Memory → Bool
  | _, [] => true
  | low, (k, v) :: rest => decide (low ≤ k) && decide (k < memorySize) && decide (v ≠ emptyByte) && Memory.wfFrom (k + 1) rest

/-- The canonical form: addresses strictly rising and inside the memory, no listed byte equal to what an unlisted address
reads as. -/
def Memory.wf (m : Memory) : Bool := Memory.wfFrom 0 m

end Sys2Proof.Machine
end

