-- ==== Sys2Proof/Config.lean ====
section
/-! DEFINITION. The free values of the model: what the manual gives a place but no value. Each is a constant with no body,
so that no proof can see it. Log entry 1. -/

namespace Sys2Proof

/-- The free bytes. The `n`-th byte the part sends or records where the manual states no value (log entry 1): the tag of a
notice frame (R194), the preset byte of a LENS_MOVE_DONE detail of origin LENS_GOTO and the status byte of a GYRO_FAULT
detail without an answer (R195), the first sector of a CARD_FAULT detail of a size read (R144). -/
opaque Config.freeByte : Nat → Byte

end Sys2Proof
end

