-- ==== Sys2Proof/Syntax.lean ====
section
/-! DEFINITION. The commands of the VC340: one constructor per row of spec/opcode_table.json, in the table's order. The rows
are the part's steps (95_what_each_step_holds.md): events at its ports and timers, and the requests of the host link. A
request carries its tag and its payload as R194 lays it out, so that LNK's own judgements (R176) are part of its meaning. -/

namespace Sys2Proof

/-- How a card ends a command (R143, R144). -/
inductive CardStatus where
  | ok
  | error
deriving DecidableEq, Repr

/-- How a card answers a read of a mount or a recovery (R139, R144): with an error, or with its size in sectors and the bytes
read. A size read uses the size alone, a sector read the bytes alone. -/
inductive ReadAnswer where
  | error
  | done (sizeInSectors : Nat) (bytes : List Byte)
deriving DecidableEq, Repr

/-- The commands. -/
inductive Instr where
  /-- FRAME_START_EDGE (R6). `cycles` is how many reference cycles have passed since the elapsed count was last brought up
  to date (log entry 2). -/
  | frameStartEdge (cycles : Nat)
  /-- SUBSTITUTION_TIMER (R6): the timer fires, if the elapsed count has reached its span. -/
  | substitutionTimer
  /-- LNC_FRAME_START (R31). -/
  | lncFrameStart
  /-- LENS_REPORT (R27): the bytes of the message on the lens link (R196). -/
  | lensReport (bytes : List Byte)
  /-- REPORT_WINDOW_EXPIRY (R28). -/
  | reportWindowExpiry
  /-- GYRO_READ_DUE (R47). -/
  | gyroReadDue
  /-- GYRO_ANSWER (R48): the two signed rates and the status byte. -/
  | gyroAnswer (yaw : BitVec 16) (pitch : BitVec 16) (status : Byte)
  /-- TILE_SET_COMPLETE (R50): the serial and the luma values, row by row. -/
  | tileSetComplete (serial : Serial) (pixels : List Byte)
  /-- CORRELATION_COMPLETE (R53). -/
  | correlationComplete
  /-- STB_FRAME_START (R54). -/
  | stbFrameStart
  /-- SAMPLE_FRAME (R73): the pair and its two signed samples. -/
  | sampleFrame (pair : Side) (first : BitVec 24) (second : BitVec 24)
  /-- AUD_FRAME_START (R79). -/
  | audFrameStart
  /-- BFM_FRAME_START (R90). -/
  | bfmFrameStart
  /-- ESSENCE_HEADER (R93): the serial, the length field (the length less one) and the key flag. -/
  | essenceHeader (serial : Serial) (lengthLessOne : BitVec 24) (key : Bool)
  /-- ESSENCE_DATA (R94): bytes of the access unit, in order. -/
  | essenceData (bytes : List Byte)
  /-- RCD_FRAME_START (R112). -/
  | rcdFrameStart
  /-- VOG_FRAME_START (R163). -/
  | vogFrameStart
  /-- OVERLAY_SENT (R165). -/
  | overlaySent
  /-- REC_LINE_PRESS (R115): a press that has held 20 ms. -/
  | recLinePress
  /-- UNIT_TAKE (R146). -/
  | unitTake (slot : Side)
  /-- COMMAND_COMPLETE (R143). -/
  | commandComplete (slot : Side) (status : CardStatus)
  /-- CARD_READ_COMPLETE (R139). -/
  | cardReadComplete (slot : Side) (answer : ReadAnswer)
  /-- CARD_TIMEOUT (R144). -/
  | cardTimeout (slot : Side)
  /-- CARD_DETECT_CHANGE (R138): the debounced level. -/
  | cardDetectChange (slot : Side) (present : Bool)
  /-- PROTECT_CHANGE (R138): the debounced level. -/
  | protectChange (slot : Side) (on : Bool)
  /-- BYTE_ARRIVAL (R173). -/
  | byteArrival (byte : Byte)
  /-- LINE_FRAMING_ERROR (R171). -/
  | lineFramingError
  /-- GAP_TIMEOUT (R174). -/
  | gapTimeout
  /-- MESSAGE_SENT (R177). -/
  | messageSent
  /-- POWER_ON_RESET (R191): the reset pin is asserted. -/
  | powerOnReset
  /-- RESET_END (R191): the straps (R171) and the raw card-detect levels as they are sampled. -/
  | resetEnd (strap1 : Bool) (strap0 : Bool) (detectA : Bool) (detectB : Bool)
  /-- UNKNOWN_REQUEST (R176): a request whose code is none of the part's. -/
  | unknownRequest (code : Byte) (tag : Byte) (payload : List Byte)
  /-- FRAME_CONFIG (R23). -/
  | frameConfig (tag : Byte) (payload : List Byte)
  /-- TC_PRESET (R17). -/
  | tcPreset (tag : Byte) (payload : List Byte)
  /-- TC_MODE (R16). -/
  | tcMode (tag : Byte) (payload : List Byte)
  /-- TC_USERBITS (R18). -/
  | tcUserbits (tag : Byte) (payload : List Byte)
  /-- TC_TRIGGER (R19). -/
  | tcTrigger (tag : Byte) (payload : List Byte)
  /-- INTERVAL_CONFIG (R21). -/
  | intervalConfig (tag : Byte) (payload : List Byte)
  /-- TIME_QUERY (R24). -/
  | timeQuery (tag : Byte) (payload : List Byte)
  /-- ZOOM_RATE (R32). -/
  | zoomRate (tag : Byte) (payload : List Byte)
  /-- FOCUS_RATE (R32). -/
  | focusRate (tag : Byte) (payload : List Byte)
  /-- LENS_GOTO (R34). -/
  | lensGoto (tag : Byte) (payload : List Byte)
  /-- LENS_STOP (R38). -/
  | lensStop (tag : Byte) (payload : List Byte)
  /-- PRESET_STORE (R37). -/
  | presetStore (tag : Byte) (payload : List Byte)
  /-- PRESET_RECALL (R36). -/
  | presetRecall (tag : Byte) (payload : List Byte)
  /-- IRIS_SET (R40). -/
  | irisSet (tag : Byte) (payload : List Byte)
  /-- IRIS_AUTO (R40). -/
  | irisAuto (tag : Byte) (payload : List Byte)
  /-- ZOOM_CURVE_LOAD (R42). -/
  | zoomCurveLoad (tag : Byte) (payload : List Byte)
  /-- LENS_CONFIG (R43). -/
  | lensConfig (tag : Byte) (payload : List Byte)
  /-- LENS_QUERY (R44). -/
  | lensQuery (tag : Byte) (payload : List Byte)
  /-- STAB_CONFIG (R66). -/
  | stabConfig (tag : Byte) (payload : List Byte)
  /-- STAB_MODE (R63). -/
  | stabMode (tag : Byte) (payload : List Byte)
  /-- STAB_RECENTRE (R64). -/
  | stabRecentre (tag : Byte) (payload : List Byte)
  /-- STAB_QUERY (R67). -/
  | stabQuery (tag : Byte) (payload : List Byte)
  /-- AUDIO_ROUTE (R71). -/
  | audioRoute (tag : Byte) (payload : List Byte)
  /-- AUDIO_GAIN (R77). -/
  | audioGain (tag : Byte) (payload : List Byte)
  /-- AUDIO_LIMITER (R77). -/
  | audioLimiter (tag : Byte) (payload : List Byte)
  /-- AUDIO_QUERY (R84). -/
  | audioQuery (tag : Byte) (payload : List Byte)
  /-- AUX_ATTACH (R98). -/
  | auxAttach (tag : Byte) (payload : List Byte)
  /-- MARK_FRAME (R99). -/
  | markFrame (tag : Byte) (payload : List Byte)
  /-- PREREC_CONFIG (R102). -/
  | prerecConfig (tag : Byte) (payload : List Byte)
  /-- HOLD_SET (R104). -/
  | holdSet (tag : Byte) (payload : List Byte)
  /-- HOLD_CLEAR (R105). -/
  | holdClear (tag : Byte) (payload : List Byte)
  /-- HOLD_RETAIN (R107, R124). -/
  | holdRetain (tag : Byte) (payload : List Byte)
  /-- BUFFER_QUERY (R109). -/
  | bufferQuery (tag : Byte) (payload : List Byte)
  /-- SLOT_MODE (R114). -/
  | slotMode (tag : Byte) (payload : List Byte)
  /-- REC_START (R117). -/
  | recStart (tag : Byte) (payload : List Byte)
  /-- REC_STOP (R121). -/
  | recStop (tag : Byte) (payload : List Byte)
  /-- REC_QUERY (R132). -/
  | recQuery (tag : Byte) (payload : List Byte)
  /-- CARD_FORMAT (R151). -/
  | cardFormat (tag : Byte) (payload : List Byte)
  /-- CARD_EJECT (R152). -/
  | cardEject (tag : Byte) (payload : List Byte)
  /-- CATALOGUE_READ (R153). -/
  | catalogueRead (tag : Byte) (payload : List Byte)
  /-- CARD_CONFIG (R149). -/
  | cardConfig (tag : Byte) (payload : List Byte)
  /-- CARD_QUERY (R154). -/
  | cardQuery (tag : Byte) (payload : List Byte)
  /-- VF_ITEM_SET (R160). -/
  | vfItemSet (tag : Byte) (payload : List Byte)
  /-- VF_ITEM_CLEAR (R161). -/
  | vfItemClear (tag : Byte) (payload : List Byte)
  /-- VF_TEXT (R159). -/
  | vfText (tag : Byte) (payload : List Byte)
  /-- VF_CONFIG (R162). -/
  | vfConfig (tag : Byte) (payload : List Byte)
  /-- NOTICE_CONFIG (R181). -/
  | noticeConfig (tag : Byte) (payload : List Byte)
  /-- NOTICE_MASK (R182). -/
  | noticeMask (tag : Byte) (payload : List Byte)
  /-- NOTICE_CLEAR (R183). -/
  | noticeClear (tag : Byte) (payload : List Byte)
  /-- NOTICE_QUERY (R184). -/
  | noticeQuery (tag : Byte) (payload : List Byte)
  /-- POWER_STANDBY (R186). -/
  | powerStandby (tag : Byte) (payload : List Byte)
  /-- POWER_RUN (R188). -/
  | powerRun (tag : Byte) (payload : List Byte)
  /-- BLOCK_ENABLE (R189). -/
  | blockEnable (tag : Byte) (payload : List Byte)
  /-- PART_RESET (R191). -/
  | partReset (tag : Byte) (payload : List Byte)
deriving DecidableEq, Repr

end Sys2Proof
end

