-- ==== Sys2Proof/Decode.lean ====
section
/-! DEFINITION. The decoding of what reaches the part as numbers: the request codes of the host link with their payload
lengths and owning blocks (R194, R176), and the table's words (none: no row of spec/opcode_table.json has bits). -/

namespace Sys2Proof

/-- The requests of the code table of R194. -/
inductive Req where
  | frameConfig
  | tcPreset
  | tcMode
  | tcUserbits
  | tcTrigger
  | intervalConfig
  | timeQuery
  | zoomRate
  | focusRate
  | lensGoto
  | lensStop
  | presetStore
  | presetRecall
  | irisSet
  | irisAuto
  | zoomCurveLoad
  | lensConfig
  | lensQuery
  | stabConfig
  | stabMode
  | stabRecentre
  | stabQuery
  | audioRoute
  | audioGain
  | audioLimiter
  | audioQuery
  | auxAttach
  | markFrame
  | prerecConfig
  | holdSet
  | holdClear
  | holdRetain
  | bufferQuery
  | slotMode
  | recStart
  | recStop
  | recQuery
  | cardFormat
  | cardEject
  | catalogueRead
  | cardConfig
  | cardQuery
  | vfItemSet
  | vfItemClear
  | vfText
  | vfConfig
  | noticeConfig
  | noticeMask
  | noticeClear
  | noticeQuery
  | powerStandby
  | powerRun
  | blockEnable
  | partReset
deriving DecidableEq, Repr

/-- The block that owns a request (the request index of the introduction, R176 step 3). -/
inductive Owner where
  | ftb
  | lnc
  | stb
  | aud
  | bfm
  | rcd
  | card
  | vog
  | lnk
  | pwc
deriving DecidableEq, Repr

/-- One row of the code table: the code, the request, the least and the greatest payload length, the owning block. -/
structure ReqRow where
  code : Byte
  req : Req
  least : Nat
  greatest : Nat
  owner : Owner
deriving DecidableEq, Repr

/-- The code table of R194 with the owners of the request index, one row per request. -/
def rowOfReq : Req → ReqRow
  | .frameConfig => ⟨0x10, .frameConfig, 2, 2, .ftb⟩
  | .tcPreset => ⟨0x11, .tcPreset, 4, 4, .ftb⟩
  | .tcMode => ⟨0x12, .tcMode, 1, 1, .ftb⟩
  | .tcUserbits => ⟨0x13, .tcUserbits, 4, 4, .ftb⟩
  | .tcTrigger => ⟨0x14, .tcTrigger, 5, 5, .ftb⟩
  | .intervalConfig => ⟨0x15, .intervalConfig, 4, 4, .ftb⟩
  | .timeQuery => ⟨0x16, .timeQuery, 1, 1, .ftb⟩
  | .zoomRate => ⟨0x20, .zoomRate, 1, 1, .lnc⟩
  | .focusRate => ⟨0x21, .focusRate, 1, 1, .lnc⟩
  | .lensGoto => ⟨0x22, .lensGoto, 7, 7, .lnc⟩
  | .lensStop => ⟨0x23, .lensStop, 0, 0, .lnc⟩
  | .presetStore => ⟨0x24, .presetStore, 8, 8, .lnc⟩
  | .presetRecall => ⟨0x25, .presetRecall, 3, 3, .lnc⟩
  | .irisSet => ⟨0x26, .irisSet, 1, 1, .lnc⟩
  | .irisAuto => ⟨0x27, .irisAuto, 2, 2, .lnc⟩
  | .zoomCurveLoad => ⟨0x28, .zoomCurveLoad, 34, 34, .lnc⟩
  | .lensConfig => ⟨0x29, .lensConfig, 26, 26, .lnc⟩
  | .lensQuery => ⟨0x2A, .lensQuery, 1, 1, .lnc⟩
  | .stabConfig => ⟨0x30, .stabConfig, 13, 13, .stb⟩
  | .stabMode => ⟨0x31, .stabMode, 1, 1, .stb⟩
  | .stabRecentre => ⟨0x32, .stabRecentre, 0, 0, .stb⟩
  | .stabQuery => ⟨0x33, .stabQuery, 1, 1, .stb⟩
  | .audioRoute => ⟨0x38, .audioRoute, 2, 2, .aud⟩
  | .audioGain => ⟨0x39, .audioGain, 2, 2, .aud⟩
  | .audioLimiter => ⟨0x3A, .audioLimiter, 4, 4, .aud⟩
  | .audioQuery => ⟨0x3B, .audioQuery, 1, 1, .aud⟩
  | .auxAttach => ⟨0x40, .auxAttach, 4, 1024, .bfm⟩
  | .markFrame => ⟨0x41, .markFrame, 6, 6, .bfm⟩
  | .prerecConfig => ⟨0x42, .prerecConfig, 2, 2, .bfm⟩
  | .holdSet => ⟨0x43, .holdSet, 8, 8, .bfm⟩
  | .holdClear => ⟨0x44, .holdClear, 1, 1, .bfm⟩
  | .holdRetain => ⟨0x45, .holdRetain, 1, 1, .bfm⟩
  | .bufferQuery => ⟨0x46, .bufferQuery, 1, 1, .bfm⟩
  | .slotMode => ⟨0x50, .slotMode, 2, 2, .rcd⟩
  | .recStart => ⟨0x51, .recStart, 0, 0, .rcd⟩
  | .recStop => ⟨0x52, .recStop, 0, 0, .rcd⟩
  | .recQuery => ⟨0x53, .recQuery, 1, 1, .rcd⟩
  | .cardFormat => ⟨0x58, .cardFormat, 17, 17, .card⟩
  | .cardEject => ⟨0x59, .cardEject, 1, 1, .card⟩
  | .catalogueRead => ⟨0x5A, .catalogueRead, 4, 4, .card⟩
  | .cardConfig => ⟨0x5B, .cardConfig, 3, 3, .card⟩
  | .cardQuery => ⟨0x5C, .cardQuery, 2, 2, .card⟩
  | .vfItemSet => ⟨0x60, .vfItemSet, 3, 3, .vog⟩
  | .vfItemClear => ⟨0x61, .vfItemClear, 1, 1, .vog⟩
  | .vfText => ⟨0x62, .vfText, 3, 1024, .vog⟩
  | .vfConfig => ⟨0x63, .vfConfig, 3, 3, .vog⟩
  | .noticeConfig => ⟨0x70, .noticeConfig, 4, 4, .lnk⟩
  | .noticeMask => ⟨0x71, .noticeMask, 1, 1, .lnk⟩
  | .noticeClear => ⟨0x72, .noticeClear, 4, 4, .lnk⟩
  | .noticeQuery => ⟨0x73, .noticeQuery, 1, 1, .lnk⟩
  | .powerStandby => ⟨0x78, .powerStandby, 0, 0, .pwc⟩
  | .powerRun => ⟨0x79, .powerRun, 0, 0, .pwc⟩
  | .blockEnable => ⟨0x7A, .blockEnable, 6, 6, .pwc⟩
  | .partReset => ⟨0x7B, .partReset, 0, 0, .pwc⟩

/-- Every request, in the order of the code table. -/
def allReqs : List Req := [
  .frameConfig, .tcPreset, .tcMode, .tcUserbits, .tcTrigger, .intervalConfig,
  .timeQuery, .zoomRate, .focusRate, .lensGoto, .lensStop, .presetStore,
  .presetRecall, .irisSet, .irisAuto, .zoomCurveLoad, .lensConfig, .lensQuery,
  .stabConfig, .stabMode, .stabRecentre, .stabQuery, .audioRoute, .audioGain,
  .audioLimiter, .audioQuery, .auxAttach, .markFrame, .prerecConfig, .holdSet,
  .holdClear, .holdRetain, .bufferQuery, .slotMode, .recStart, .recStop,
  .recQuery, .cardFormat, .cardEject, .catalogueRead, .cardConfig, .cardQuery,
  .vfItemSet, .vfItemClear, .vfText, .vfConfig, .noticeConfig, .noticeMask,
  .noticeClear, .noticeQuery, .powerStandby, .powerRun, .blockEnable, .partReset]

/-- The code table as a list. -/
def reqTable : List ReqRow := allReqs.map rowOfReq

/-- The row of a request code, if it is one of the part's (R176 step 1). -/
def reqOfCode (code : Byte) : Option ReqRow :=
  reqTable.find? (fun row => row.code == code)

/-- The code of a request (R194). -/
def Req.code (req : Req) : Byte := (rowOfReq req).code

/-- The command that a word spells by the table's bits. No row of spec/opcode_table.json gives bits (its rows have no fixed
bits and no fields), so no word spells a command (log entry 3). -/
def decodeTableWord (_nbits _w : Nat) : Option Instr := none

end Sys2Proof
end

