-- ==== Sys2Proof/Machine/Arith.lean ====
section
/-! DEFINITION. The arithmetic conventions of R1 to R3 and the byte encodings of R172 and R194: rounding, saturation, the
order of serials, numbers as bytes, the CRC-16. -/

namespace Sys2Proof.Machine

/-- Rounding of a quotient half away from zero (R2); the divisor is positive. -/
def roundDiv (n d : Int) : Int :=
  if n < 0 then -((2 * -n + d) / (2 * d)) else (2 * n + d) / (2 * d)

/-- Saturation to a range (R2). -/
def saturate (lo hi x : Int) : Int :=
  if x < lo then lo else if hi < x then hi else x

/-- Saturation of a natural number to a range (R2). -/
def clampNat (lo hi x : Nat) : Nat :=
  if x < lo then lo else if hi < x then hi else x

/-- Saturation to the signed 32-bit range (R48, R54, R56, R58). -/
def sat32 (x : Int) : Int := saturate (-2147483648) 2147483647 x

/-- A count that saturates at `top` goes up by `k`. -/
def bump (top n k : Nat) : Nat := min top (n + k)

/-- A count that saturates at 65,535 goes up by one. -/
def bump16 (n : Nat) : Nat := bump 65535 n 1

/-- A count that saturates at 4,294,967,295 goes up by one. -/
def bump32 (n : Nat) : Nat := bump 4294967295 n 1

/-- Serial `x` comes before serial `y` (R3). -/
def older (x y : Serial) : Bool :=
  let d := (y - x).toNat
  1 ≤ d && d ≤ 2147483647

/-- Serial `x` comes after serial `y` (R3). Of two serials exactly 2^31 apart neither comes after the other; what the rules that speak
of a range then do is log entry 45. -/
def newer (x y : Serial) : Bool := older y x

/-- Serial `x` comes before `y` or is `y`. -/
def olderOrSame (x y : Serial) : Bool := x == y || older x y

/-- A number of `n` bytes, most significant byte first (R194). -/
def beBytes : Nat → Nat → List Byte
  | 0, _ => []
  | n + 1, x => BitVec.ofNat 8 (x / 256 ^ n) :: beBytes n x

/-- A number as one byte. -/
def u8 (x : Nat) : List Byte := beBytes 1 x

/-- A number as two bytes. -/
def u16 (x : Nat) : List Byte := beBytes 2 x

/-- A number as four bytes. -/
def u32 (x : Nat) : List Byte := beBytes 4 x

/-- A signed number as `n` bytes in two's complement (R194). -/
def signedBytes (n : Nat) (x : Int) : List Byte :=
  beBytes n ((x % (256 ^ n : Nat)).toNat)

/-- A serial as four bytes. -/
def serialBytes (x : Serial) : List Byte := u32 x.toNat

/-- A flag as one byte (R194). -/
def flagByte (b : Bool) : List Byte := u8 (if b then 1 else 0)

/-- A field that may be absent: a presence flag, and zero bytes when it is absent (R194). -/
def presence (width : Nat) : Option (List Byte) → List Byte
  | none => flagByte false ++ List.replicate width 0
  | some bytes => flagByte true ++ bytes

/-- A list of fields: a one-byte count and the fields (R194). -/
def counted (fields : List (List Byte)) : List Byte :=
  u8 fields.length ++ fields.flatten

/-- Flags packed into one byte, bit 0 first (R194). -/
def packFlags (flags : List Bool) : Nat :=
  flags.foldr (fun b n => (if b then 1 else 0) + 2 * n) 0

/-- The number that big-endian bytes stand for (R194). -/
def ofBytes (bytes : List Byte) : Nat :=
  bytes.foldl (fun n b => n * 256 + b.toNat) 0

/-- The bytes at `first`, `count` of them. -/
def field (bytes : List Byte) (first count : Nat) : List Byte :=
  (bytes.drop first).take count

/-- The number in the bytes at `first`, `count` of them. -/
def num (bytes : List Byte) (first count : Nat) : Nat := ofBytes (field bytes first count)

/-- The signed number in the bytes at `first`, `count` of them (R194). -/
def signedNum (bytes : List Byte) (first count : Nat) : Int :=
  let x := num bytes first count
  if 2 * x < 256 ^ count then (x : Int) else (x : Int) - (256 ^ count : Nat)

/-- The flag in the byte at `first`: 0 or 1, anything else is a bad value (R194, R1). -/
def flagAt (bytes : List Byte) (first : Nat) : Option Bool :=
  match num bytes first 1 with
  | 0 => some false
  | 1 => some true
  | _ => none

/-- One bit of a CRC-16 register with polynomial 0x1021 (R172). -/
def crcShift (crc : BitVec 16) : BitVec 16 :=
  if crc.msb then (crc <<< 1) ^^^ 0x1021#16 else crc <<< 1

/-- One byte, most significant bit first, into the CRC-16 register (R172). -/
def crcByte (crc : BitVec 16) (b : Byte) : BitVec 16 :=
  (List.range 8).foldl (fun c _ => crcShift c) (crc ^^^ (b.zeroExtend 16 <<< 8))

/-- The CRC-16 of R172: initial value 0xFFFF, no final inversion. -/
def crc16 (bytes : List Byte) : BitVec 16 := bytes.foldl crcByte 0xFFFF#16

/-- The CRC of bytes as two bytes, high byte first. -/
def crcBytes (bytes : List Byte) : List Byte := u16 (crc16 bytes).toNat

/-- Bytes padded with zero bytes to a multiple of `n` (R136, R141, R197). -/
def padTo (n : Nat) (bytes : List Byte) : List Byte :=
  bytes ++ List.replicate ((n - bytes.length % n) % n) 0

/-- A length rounded up to a multiple of `n`. -/
def roundUp (n x : Nat) : Nat := (x + n - 1) / n * n

/-- Whether bytes are all zero. -/
def allZero (bytes : List Byte) : Bool := bytes.all (· == 0)

/-- Replaces the `i`-th element of a list by its image. -/
def modifyAt {α : Type} (f : α → α) : Nat → List α → List α
  | _, [] => []
  | 0, x :: xs => f x :: xs
  | n + 1, x :: xs => x :: modifyAt f n xs

end Sys2Proof.Machine
end

