-- ==== Sys2Proof/Machine/Types.lean ====
section
/-! DEFINITION. The records of the VC340's blocks: what each block holds, in the manual's own terms. State.lean joins them. -/

namespace Sys2Proof.Machine

/-! ## Replies and notices -/

/-- The reply statuses (introduction, R194). -/
inductive Status where
  | ok
  | accepted
  | busy
  | badLength
  | badValue
  | badState
  | blockOff
  | noCard
  | full
  | unknown
deriving DecidableEq, Repr

/-- What a request's rule answers: the status and the reply fields after it. -/
structure Answer where
  status : Status
  body : List Byte
deriving DecidableEq, Repr

/-- The twenty notice sources, in the order of their numbers. -/
inductive Source where
  | partStarted
  | linkError
  | frameLoss
  | tcTrigger
  | lensLost
  | lensMoveDone
  | lensOverride
  | gyroFault
  | stabEdge
  | audioOver
  | audioSlip
  | unitDropped
  | recState
  | cardChange
  | cardNearFull
  | cardFull
  | cardFault
  | relaySwitch
  | cardDone
  | powerState
deriving DecidableEq, Repr

/-- The routes of a source (R178). -/
structure Routes where
  host : Bool
  vf : Bool
  tally : Bool
deriving DecidableEq, Repr

/-- A first-occurrence record (R178). -/
structure Occurrence where
  detail : List Byte
  serial : Serial
deriving DecidableEq, Repr

/-- What the notice table holds for one source (R178). -/
structure SourceState where
  enabled : Bool
  level : Nat
  routes : Routes
  pending : Bool
  count : Nat
  record : Option Occurrence
  sent : Bool
deriving DecidableEq, Repr

/-- A request in the inbound queue (R175): code, tag and payload of a well-formed frame. -/
structure Request where
  code : Byte
  tag : Byte
  payload : List Byte
deriving DecidableEq, Repr

/-- A message of the outbound queue (R177): a reply, or the notice message of a source. -/
inductive OutMsg where
  | reply (code : Byte) (tag : Byte) (payload : List Byte)
  | notice (source : Source)
deriving DecidableEq, Repr

/-- The message on the line, with the bytes of its frame. -/
structure Sending where
  msg : OutMsg
  frame : List Byte
deriving DecidableEq, Repr

/-- The causes of a dropped frame, in the order of R174. -/
inductive DropCause where
  | badLength
  | badCrc
  | framing
  | timeout
  | badKind
  | overrun
deriving DecidableEq, Repr

/-- The six link counts (R174). -/
structure LinkCounts where
  badLength : Nat
  badCrc : Nat
  framing : Nat
  timeout : Nat
  badKind : Nat
  overrun : Nat
deriving DecidableEq, Repr

/-- The Link Interface. The receiver's state is what the kept bytes make it: HUNT with none, HEADER with fewer than six,
BODY with six or more (R173). -/
structure Lnk where
  /-- The baud code of the strap table (R171). -/
  baud : Nat
  /-- The bytes kept from the sync of the frame being collected onward (R173). -/
  kept : List Byte
  /-- The inbound queue, oldest first (R175). -/
  inbound : List Request
  /-- The messages that wait in the outbound queue, oldest first (R177). -/
  waiting : List OutMsg
  /-- The message being sent; it keeps its place (R177). -/
  sending : Option Sending
  counts : LinkCounts
  /-- The notice table, by source number (R178). -/
  table : List SourceState
  /-- The notice mask M (R179). -/
  mask : Nat
  /-- The ATTN line: asserted or not (R180). -/
  attn : Bool
  /-- PART_RESET has been taken and its reply not yet sent (R176). -/
  resetTaken : Bool
  /-- The MODEL's own field: how many free bytes have been drawn (log entry 1). -/
  drawn : Nat
deriving DecidableEq, Repr

/-! ## Frame timing -/

/-- The eight frame rates, in the order of their codes (R5, formats). -/
inductive Rate where
  | r24
  | r24d
  | r25
  | r30
  | r30d
  | r50
  | r60
  | r60d
deriving DecidableEq, Repr

/-- A time value (R14). -/
structure Timecode where
  hours : Nat
  minutes : Nat
  seconds : Nat
  frames : Nat
deriving DecidableEq, Repr

/-- A label: a time value and the user bits (R10 step 3). -/
structure Label where
  time : Timecode
  userBits : BitVec 32
deriving DecidableEq, Repr

/-- An entry of the label history (R12). -/
structure HistoryEntry where
  serial : Serial
  label : Label
  valid : Bool
  substituted : Bool
  recording : Bool
  burst : Bool
deriving DecidableEq, Repr

/-- The timebase states (R6). -/
inductive TimebaseState where
  | acquire
  | locked
  | holdover
  | standby
deriving DecidableEq, Repr

/-- The timecode modes (R16). -/
inductive TcMode where
  | freeRun
  | recRun
deriving DecidableEq, Repr

/-- The trigger actions (R19). -/
inductive TriggerAction where
  | start
  | stop
  | noticeOnly
deriving DecidableEq, Repr

/-- The armed trigger (R19). -/
structure Trigger where
  time : Timecode
  action : TriggerAction
deriving DecidableEq, Repr

/-- The settings of interval mode while it is on (R21). -/
structure Interval where
  burst : Nat
  period : Nat
deriving DecidableEq, Repr

/-- The Frame Timebase. -/
structure Ftb where
  rate : Rate
  dropFrame : Bool
  state : TimebaseState
  /-- e: reference cycles since the most recent frame start, absorbed edge or end of reset (R6, R8). -/
  elapsed : Nat
  /-- The serial of the latest frame start. -/
  serial : Serial
  /-- The serial of the last real frame start (R7). -/
  lastReal : Serial
  /-- Whether the latest frame start was real (R7). -/
  previousReal : Bool
  measurement : Nat
  runts : Nat
  substituted : Nat
  history : List HistoryEntry
  generator : Timecode
  userBits : BitVec 32
  mode : TcMode
  preset : Option Timecode
  trigger : Option Trigger
  /-- The interval settings, or none while interval mode is off (R21). -/
  interval : Option Interval
  counter : Nat
deriving DecidableEq, Repr

/-! ## Lens control -/

/-- A well-formed report's content (R27). -/
structure LensReport where
  zoom : Nat
  focus : Nat
  iris : Nat
  extender : Bool
  override : PerAxis Bool
deriving DecidableEq, Repr

/-- The lens record that LNC offers the other blocks (R29). -/
structure LensRecord where
  report : LensReport
  previousZoom : Nat
  focal : Nat
  /-- The serial of the frame start the focal length was computed at (R42). -/
  focalSerial : Serial
  stale : Bool
deriving DecidableEq, Repr

/-- A frame start as the other blocks see it (R10): its serial and flag, whether the part was in RUN when FTB took it, once LNC
has acted on it, the lens record as that action left it (R29), and whether STB has been enabled since, so that STB sends for it the
window record of a disabled block (R65, R190; log entry 33). -/
structure FrameStart where
  serial : Serial
  substituted : Bool
  inRun : Bool
  lens : Option LensRecord
  stbOff : Bool
deriving DecidableEq, Repr

/-- The frame starts that each block has yet to act on, oldest first. FTB imposes no order among the blocks (R10), so each
has its own list (log entry 4). -/
structure Due where
  lnc : List FrameStart
  stb : List FrameStart
  aud : List FrameStart
  bfm : List FrameStart
  rcd : List FrameStart
  vog : List FrameStart
deriving DecidableEq, Repr

/-- The lens states (R29). -/
inductive LensState where
  | unknown
  | present
  | lost
deriving DecidableEq, Repr

/-- The origin of a move (R34, R36). -/
inductive Origin where
  | goto
  | recall (preset : Nat)
deriving DecidableEq, Repr

/-- The phase of a move, with its own count: the step k in RAMP, the frame starts waited in WAIT (R34). -/
inductive Phase where
  | ramp (step : Nat)
  | wait (waited : Nat)
deriving DecidableEq, Repr

/-- A move record (R34). -/
structure Move where
  p0 : Nat
  p1 : Nat
  duration : Nat
  phase : Phase
  origin : Origin
deriving DecidableEq, Repr

/-- How a move ends, in the order of R35. -/
inductive MoveStatus where
  | arrived
  | late
  | interrupted
  | overridden
  | lost
  | halted
deriving DecidableEq, Repr

/-- A last-ending entry (R35). -/
structure Ending where
  status : MoveStatus
  origin : Origin
  position : Nat
  serial : Serial
deriving DecidableEq, Repr

/-- The mode of zoom or focus (R31), with the rate of RATE and the move record of MOVE. -/
inductive ServoMode where
  | idle
  | rate (v : Int)
  | move (m : Move)
deriving DecidableEq, Repr

/-- Zoom or focus. -/
structure Servo where
  mode : ServoMode
  released : Bool
  demand : Nat
  least : Nat
  greatest : Nat
  /-- The speed table S_0 to S_8 (R33). -/
  speeds : List Nat
  lastEnding : Option Ending
deriving DecidableEq, Repr

/-- The iris (R40). -/
structure Iris where
  auto : Bool
  released : Bool
  demand : Nat
  move : Option Move
  /-- The target luma Lt. -/
  target : Nat
  deadband : Nat
  lastEnding : Option Ending
deriving DecidableEq, Repr

/-- A preset record (R37); an invalid preset is absent. -/
structure Preset where
  zoom : Nat
  focus : Nat
  iris : Option Nat
deriving DecidableEq, Repr

/-- One axis's part of a demand record (R26): a position with the servo enabled, or HOLD with it disabled. -/
inductive Demand where
  | position (p : Nat)
  | hold
deriving DecidableEq, Repr

/-- An open report window (R26): the serial of its demand, and twice its length in reference cycles (half a nominal period
need not be a whole number of cycles). -/
structure ReportWindow where
  serial : Serial
  twiceLength : Nat
deriving DecidableEq, Repr

/-- The Lens Controller. -/
structure Lnc where
  lens : LensState
  /-- The consecutive-miss count. -/
  misses : Nat
  totalMisses : Nat
  latest : LensReport
  previous : LensReport
  /-- A good report has been received since power-on reset or PART_RESET (R29). -/
  reported : Bool
  /-- The serial of the frame start whose demand last received a good report, 0 if none has (R28). -/
  lastGood : Serial
  window : Option ReportWindow
  zoom : Servo
  focus : Servo
  iris : Iris
  /-- The zoom curve F_0 to F_16 (R42). -/
  curve : List Nat
  focal : Nat
  focalSerial : Serial
  presets : List (Option Preset)
  /-- The tile mean record: serial and mean luma (R41). -/
  tileMean : Option (Serial × Nat)
  /-- The demand record sent last on the lens link (R26), with the serial of its frame start. -/
  sent : Option (Serial × PerAxis Demand)
deriving DecidableEq, Repr

/-! ## Image stabilisation -/

/-- The stabiliser states, in the order of R60. -/
inductive StabState where
  | off
  | settling
  | active
  | panning
  | returning
deriving DecidableEq, Repr

/-- The window record (R65). -/
structure WindowRecord where
  serial : Serial
  cx : Int
  cy : Int
  state : StabState
  trusted : Bool
  gyroFault : Bool
  clampedX : Bool
  clampedY : Bool
  noMeasure : Bool
deriving DecidableEq, Repr

/-- A tile set held in a buffer (R51): its serial and its 9,216 luma values, row by row. -/
structure TileSet where
  serial : Serial
  pixels : List Byte
deriving DecidableEq, Repr

/-- A candidate offset with its SAD (R52). -/
structure Candidate where
  dx : Int
  dy : Int
  sad : Nat
deriving DecidableEq, Repr

/-- A correlation result record (R52). -/
structure CorrResult where
  older : Serial
  newer : Serial
  /-- The best four, best first. -/
  best : List Candidate
  mean : Nat
  left : Option Nat
  right : Option Nat
  up : Option Nat
  down : Option Nat
  used : Bool
deriving DecidableEq, Repr

/-- The reasons of the trust test, in the order of R58. -/
inductive Distrust where
  | noResult
  | zoomMoving
  | flat
  | weak
  | ambiguous
deriving DecidableEq, Repr

/-- What STB holds for one axis: x is driven by yaw, y by pitch. -/
structure StabAxis where
  /-- The crop offset c (R59). -/
  c : Int
  /-- The running gyro sum (R48). -/
  sum : Int
  /-- The values of the last frame start: Δθ, g, v and m. -/
  angle : Int
  gyroShift : Int
  vector : Int
  measured : Int
  clampedLast : Bool
  /-- The swing count and its sign (R61). -/
  swing : Nat
  swingPositive : Bool
  clampCount : Nat
deriving DecidableEq, Repr

/-- The settings of R66. -/
structure StabSettings where
  marginX : Nat
  marginY : Nat
  pitch : Nat
  decimation : Nat
  biasX : Int
  biasY : Int
  invertX : Bool
  invertY : Bool
  panThreshold : Nat
deriving DecidableEq, Repr

/-- The Stabiliser. -/
structure Stb where
  state : StabState
  /-- The follow-on state of RETURNING (R62): SETTLING when set, OFF when clear. -/
  followSettling : Bool
  settle : Nat
  x : StabAxis
  y : StabAxis
  quiet : Nat
  /-- The samples in the running sums so far (R67). -/
  samples : Nat
  gain : Nat
  focal : Nat
  /-- The trust decision of the last frame start: none when trusted (R58). -/
  distrust : Option Distrust
  result : Option CorrResult
  older : Option TileSet
  newer : Option TileSet
  waiting : Option TileSet
  correlating : Bool
  /-- A gyro read is in progress (R47). -/
  reading : Bool
  /-- The gyro port is in FAULT (R49). -/
  gyroFault : Bool
  badRun : Nat
  goodRun : Nat
  /-- The last good sample: yaw and pitch. -/
  lastGood : Option (Int × Int)
  badSamples : Nat
  rejectedSets : Nat
  droppedSets : Nat
  droppedResults : Nat
  settings : StabSettings
  /-- The window record sent last to the image side (R65). -/
  sent : Option WindowRecord
deriving DecidableEq, Repr

/-! ## Audio -/

/-- The states of a pair (R70). -/
inductive PairState where
  | off
  | warming
  | active
deriving DecidableEq, Repr

/-- A processed sample frame: the samples of the pair's first and second channel. -/
structure SampleFrame where
  first : Int
  second : Int
deriving DecidableEq, Repr

/-- The settings of a limiter (R75). -/
structure Limiter where
  on : Bool
  threshold : Nat
  release : Nat
deriving DecidableEq, Repr

/-- One audio channel. -/
structure Channel where
  gain : Nat
  pendingGain : Option Nat
  limiter : Limiter
  pendingLimiter : Option Limiter
  /-- The limiter reduction g (R73). -/
  reduction : Nat
  releaseCount : Nat
  blockPeak : Nat
  meter : Nat
  /-- The hold history, oldest first (R83). -/
  holdHistory : List Nat
  overs : Nat
  /-- The channel has made AUDIO_OVER an occurrence in the present frame (R74). -/
  overReported : Bool
deriving DecidableEq, Repr

/-- One audio pair. -/
structure Pair where
  state : PairState
  /-- The elastic store, front first (R78). -/
  store : List SampleFrame
  /-- The sample frames accepted in the present sample block (R73). -/
  blockCount : Nat
  /-- The last sample frame of the previous segment (R79). -/
  last : Option SampleFrame
  /-- The sample frames removed for the full store since the last cut (R78). -/
  dropped : Nat
  slips : Nat
  paddedTotal : Nat
  droppedTotal : Nat
  first : Channel
  second : Channel
deriving DecidableEq, Repr

/-- The Audio Processor: pair A (channels 1 and 2) and pair B (channels 3 and 4). -/
structure Aud where
  pairs : Two Pair
deriving DecidableEq, Repr

/-- Why a pair handed over no sound (R81). -/
inductive AbsenceReason where
  | off
  | warming
deriving DecidableEq, Repr

/-- A sound segment (R81). -/
structure Segment where
  samples : List SampleFrame
  padded : Nat
  dropped : Nat
  meterFirst : Nat
  meterSecond : Nat
deriving DecidableEq, Repr

/-- A hand-over of AUD to BFM (R81). -/
inductive HandOver where
  | segment (s : Segment)
  | absence (reason : AbsenceReason)
deriving DecidableEq, Repr

/-! ## The buffer memory -/

/-- The free list of R88. Its front is the run of pages that no owner has taken since reset, `fresh` to 16,383 ascending, and
behind it stand the released pages in the order of their release: allocations take from the front and releases go to the
back, so the list always has this form. -/
structure FreeList where
  fresh : Nat
  released : List Nat
deriving DecidableEq, Repr

/-- A placed picture: its key flag, its length and its pages. -/
structure PictureData where
  key : Bool
  length : Nat
  pages : List Nat
deriving DecidableEq, Repr

/-- The picture of an assembly entry. -/
inductive Picture where
  | none
  | arriving (p : PictureData)
  | present (p : PictureData)
deriving DecidableEq, Repr

/-- The figures of a present sound segment: its page, its sample count and the counts and meters of R81. -/
structure SoundData where
  page : Nat
  count : Nat
  padded : Nat
  dropped : Nat
  meterFirst : Nat
  meterSecond : Nat
deriving DecidableEq, Repr

/-- The sound of one pair in an entry or a unit. -/
inductive Sound where
  | awaited
  | present (d : SoundData)
  | absent (reason : AbsenceReason)
deriving DecidableEq, Repr

/-- The frame settings in force when an entry was created. -/
structure FrameSettings where
  rate : Rate
  dropFrame : Bool
  mode : TcMode
deriving DecidableEq, Repr

/-- An assembly entry. The label is the lookup of R13, none for "label unknown". -/
structure Entry where
  serial : Serial
  label : Option HistoryEntry
  lens : LensRecord
  window : Option WindowRecord
  picture : Picture
  sound : Two Sound
  attachment : Option (List Byte)
  mark : Option Byte
  settings : FrameSettings
deriving DecidableEq, Repr

/-- The membership of a unit (R97). CLIP carries the clip's sequence number. -/
inductive Membership where
  | ring
  | clip (sequence : Nat)
  | retain
deriving DecidableEq, Repr

/-- A unit's progress on one slot (R97). -/
inductive Progress where
  | none
  | owed
  | written
deriving DecidableEq, Repr

/-- A record unit (R97). -/
structure RecUnit where
  serial : Serial
  /-- The label, or none for "label unknown". -/
  label : Option Label
  labelValid : Bool
  recording : Bool
  picture : PictureData
  sound : Two Sound
  lens : LensRecord
  window : Option WindowRecord
  settings : FrameSettings
  attachment : Option (List Byte)
  mark : Option Byte
  gap : Bool
  audioAbsent : Bool
  substituted : Bool
  burst : Bool
  membership : Membership
  /-- The windows that hold the unit, ascending. -/
  holds : List Nat
  progress : Two Progress
deriving DecidableEq, Repr

/-- The essence port (R93): DATA with the serial of its entry, the bytes placed and the bytes that remain, SKIP with the bytes
that remain. -/
inductive EssencePort where
  | header
  | data (serial : Serial) (placed : Nat) (remaining : Nat)
  | skip (remaining : Nat)
deriving DecidableEq, Repr

/-- A valid hold window's first and last serials (R103). -/
structure HoldWindow where
  first : Serial
  last : Serial
deriving DecidableEq, Repr

/-- The reasons of an abandonment, in the order of R195. -/
inductive AbandonReason where
  | aged
  | skipped
  | tooLarge
  | overflow
deriving DecidableEq, Repr

/-- The counts of BFM (R109). -/
structure BfmCounts where
  future : Nat
  late : Nat
  duplicate : Nat
  tooLarge : Nat
  skipped : Nat
  aged : Nat
  overflow : Nat
  depth : Nat
  shortage : Nat
  queueLimit : Nat
  start : Nat
  aborted : Nat
  cleared : Nat
  auxLost : Nat
deriving DecidableEq, Repr

/-- The Buffer Manager. -/
structure Bfm where
  /-- The latest frame start that BFM has taken (R93). -/
  taken : Serial
  free : FreeList
  /-- The assembly table, in serial order. -/
  entries : List Entry
  port : EssencePort
  /-- The unit queue, in serial order. -/
  queue : List RecUnit
  /-- The pre-record depth D. -/
  depth : Nat
  /-- The four hold windows; an invalid window is none. -/
  windows : List (Option HoldWindow)
  /-- The attachment queue, in serial order. -/
  attachments : List (Serial × List Byte)
  nextMark : Option Byte
  gapPending : Bool
  counts : BfmCounts
deriving DecidableEq, Repr

/-! ## Clip recording -/

/-- The states of the Recorder, in the order of R113. -/
inductive RecState where
  | standing
  | recording
  | closing
  | retaining
deriving DecidableEq, Repr

/-- The slot modes, in the order of R114. -/
inductive SlotMode where
  | single
  | relay
  | mirror
deriving DecidableEq, Repr

/-- The kinds of a clip (R113). -/
inductive ClipKind where
  | normal
  | retained
deriving DecidableEq, Repr

/-- The ending reasons (R113). -/
inductive EndReason where
  | stopped
  | cardFull
  | aborted
  | retained
deriving DecidableEq, Repr

/-- The states of a copy (R113). -/
inductive CopyState where
  | writing
  | closing
  | closed
  | lost
deriving DecidableEq, Repr

/-- A card label and clip number that a copy continues from (R113). -/
structure CopyRef where
  label : List Byte
  clip : Nat
deriving DecidableEq, Repr

/-- The Recorder's record of a copy (R113). -/
structure Copy where
  clip : Nat
  label : List Byte
  firstSerial : Option Serial
  placed : Nat
  written : Nat
  continues : Option CopyRef
  state : CopyState
deriving DecidableEq, Repr

/-- The clip record (R113). -/
structure Clip where
  sequence : Nat
  kind : ClipKind
  mode : SlotMode
  primary : Side
  start : Option Serial
  head : Option Serial
  /-- The end serial E. -/
  last : Option Serial
  reason : Option EndReason
  burstHead : Option Int
  copies : Two (Option Copy)
  switches : Nat
  claimed : Nat
  written : Nat
  /-- The newest unit the clip has placed on any card (R128). -/
  newestPlaced : Option Serial
deriving DecidableEq, Repr

/-- The sources of a start (R115). -/
inductive StartSource where
  | host
  | line
  | trigger
  | latch
deriving DecidableEq, Repr

/-- The last-start entry (R115). -/
structure LastStart where
  source : StartSource
  status : Status
  serial : Serial
deriving DecidableEq, Repr

/-- The counts of each ending reason (R132). -/
structure EndCounts where
  stopped : Nat
  cardFull : Nat
  aborted : Nat
  retained : Nat
deriving DecidableEq, Repr

/-- The Recorder. -/
structure Rcd where
  state : RecState
  mode : SlotMode
  primary : Side
  clip : Option Clip
  /-- The sequence number of the latest clip, 0 before the first. -/
  sequence : Nat
  /-- The pending-start latch (R118). -/
  latch : Bool
  lastStart : Option LastStart
  /-- S: the serial the Recorder noted at the latest frame start it acted on (R112). -/
  noted : Serial
  /-- The clips begun since reset (R132). -/
  begun : Nat
  endings : EndCounts
deriving DecidableEq, Repr

/-- The reasons of REC_STATE, in the order of R195. -/
inductive RecReason where
  | started
  | retainStarted
  | stopped
  | cardFull
  | retained
  | aborted
  | slotDropped
  | startRefused
deriving DecidableEq, Repr

/-! ## Card slots -/

/-- The states of a slot, in the order of R137. -/
inductive SlotState where
  | off
  | absent
  | mounting
  | recovering
  | unformatted
  | writeProtected
  | ready
  | full
  | formatting
  | ejected
  | fault
deriving DecidableEq, Repr

/-- The states of a used catalogue entry (R135). -/
inductive EntryState where
  | opened
  | closed
  | recovered
deriving DecidableEq, Repr

/-- A used catalogue entry (R135, R197). -/
structure CatEntry where
  clip : Nat
  state : EntryState
  continuation : Bool
  retained : Bool
  mirrored : Bool
  start : Nat
  extents : Nat
  frames : Nat
  label : Label
  labelValid : Bool
  /-- The rate code as the entry holds it; R198 does not judge it. -/
  rateCode : Nat
  dropFrame : Bool
  continues : Option CopyRef
deriving DecidableEq, Repr

/-- A catalogue header (R135). -/
structure CardHeader where
  label : List Byte
  /-- The extent count N. -/
  extents : Nat
  formatNumber : Nat
deriving DecidableEq, Repr

/-- The card summary (R137): the header, the used entries ascending (the others are FREE), and the next free extent. -/
structure Summary where
  header : CardHeader
  entries : List CatEntry
  nextFree : Nat
deriving DecidableEq, Repr

/-- What a CATALOGUE command is written for. -/
inductive CatPurpose where
  | opening (clip : Nat)
  | progress (clip : Nat)
  | closing (clip : Nat)
  | rebuilt (clip : Nat)
  | blankHeader
  | freeSector (sector : Nat)
  | newHeader
deriving DecidableEq, Repr

/-- An index entry of an extent index block (R136). -/
structure IndexEntry where
  offset : Nat
  serial : Serial
  size : Nat
  key : Bool
  gap : Bool
deriving DecidableEq, Repr

/-- An extent index block (R136). -/
structure IndexBlock where
  extent : Nat
  formatNumber : Nat
  clip : Nat
  start : Nat
  entries : List IndexEntry
deriving DecidableEq, Repr

/-- A chunk of an essence area with its bytes (R146). `units` are the units with bytes in it, `ends` those whose last byte
lies in it, each with its card byte size. -/
structure Chunk where
  extent : Nat
  chunk : Nat
  bytes : List Byte
  units : List Serial
  ends : List (Serial × Nat)
deriving DecidableEq, Repr

/-- The kinds of a command (R141). -/
inductive CardCmdKind where
  | essence (units : List Serial) (ends : List (Serial × Nat))
  | index (block : IndexBlock)
  | catalogue (purpose : CatPurpose)
deriving DecidableEq, Repr

/-- A command of the write queue (R141). -/
structure CardCmd where
  id : Nat
  kind : CardCmdKind
  first : Nat
  sectors : Nat
  depends : List Nat
  data : List Byte
deriving DecidableEq, Repr

/-- The last unit the Recorder has named to a copy (R148). -/
inductive LastUnit where
  | unnamed
  | nothing
  | unit (serial : Serial)
deriving DecidableEq, Repr

/-- The extent that a copy is filling (R146): the chunk being filled, and the units listed in the extent. -/
structure CurrentExtent where
  chunk : Chunk
  listed : List IndexEntry
deriving DecidableEq, Repr

/-- The bytes of a taken unit that are not yet appended (R146). -/
structure Rest where
  serial : Serial
  size : Nat
  bytes : List Byte
deriving DecidableEq, Repr

/-- How far the closing of a copy has come (R148): not begun, the last chunk and index under way, the entry CLOSED. -/
inductive CloseStage where
  | writing
  | flushing
  | entryClosed
deriving DecidableEq, Repr

/-- The writer's copy record (R145). -/
structure WriterCopy where
  clip : Nat
  start : Nat
  consumed : Nat
  current : Option CurrentExtent
  /-- A chunk that is ready and waits for a queue place (R146). -/
  ready : Option Chunk
  /-- The unit the writer stopped in, if it did (R146). -/
  rest : Option Rest
  placed : Nat
  written : Nat
  lastTaken : Option Serial
  last : LastUnit
  stage : CloseStage
  /-- INDEX commands that the writer will owe or owes, oldest first (R147). -/
  owedIndex : List IndexBlock
  /-- The command number of the latest queued INDEX command. -/
  lastIndex : Option Nat
  /-- The counts of the completed index blocks (R143): units, blocks, and where the last listed unit ends. -/
  doneUnits : Nat
  doneBlocks : Nat
  doneEnd : Nat
deriving DecidableEq, Repr

/-- The read of a mount or recovery in flight (R139, R140). -/
inductive CardRead where
  | size
  | header
  | entries (sector : Nat)
  | index (extent : Nat)
deriving DecidableEq, Repr

/-- The recovery of one OPEN entry (R140). -/
structure Recovery where
  clip : Nat
  frames : Nat
  blocks : Nat
  tailEnd : Nat
deriving DecidableEq, Repr

/-- A card writer with its slot. -/
structure CardSlot where
  state : SlotState
  /-- The debounced level of the card-detect line. -/
  present : Bool
  /-- The debounced level of the write-protect line. -/
  protectOn : Bool
  deferred : Bool
  summary : Option Summary
  /-- The card's size in sectors as the mount read it (R139). -/
  cardSectors : Nat
  /-- The last valid header read or written on this card (R139, R151). -/
  lastHeader : Option CardHeader
  /-- The entries a mount has read so far (R139). -/
  mounted : List CatEntry
  reading : Option CardRead
  recovery : Option Recovery
  /-- The entries rebuilt by the present mount (R140). -/
  rebuilt : Nat
  /-- The write queue, oldest first (R141). -/
  queue : List CardCmd
  /-- The number of the command in flight. -/
  inFlight : Option Nat
  /-- The number the next command takes. -/
  nextId : Nat
  /-- The CATALOGUE commands owed, first first (R141). -/
  owed : List CatPurpose
  copy : Option WriterCopy
  threshold : Nat
  nearFull : Bool
  /-- The remaining-time list, oldest first (R150). -/
  sizes : List Nat
  completed : Nat
  errors : Nat
  timeouts : Nat
  recovered : Nat
deriving DecidableEq, Repr

/-! ## Viewfinder overlay and tally -/

/-- An item slot (R157). A system slot's row, column and text stay empty. -/
structure ItemSlot where
  enabled : Bool
  priority : Nat
  row : Nat
  column : Nat
  text : List Byte
deriving DecidableEq, Repr

/-- An item of an overlay record (R163). -/
structure OverlayItem where
  slot : Nat
  priority : Nat
  content : List Byte
deriving DecidableEq, Repr

/-- An overlay record (R163). -/
structure Overlay where
  serial : Serial
  zebra : Nat
  peaking : Nat
  blinkOn : Bool
  items : List OverlayItem
deriving DecidableEq, Repr

/-- The TALLY output (R169). -/
inductive Tally where
  | dark
  | lit
  | blinking
deriving DecidableEq, Repr

/-- The Viewfinder Overlay Generator. -/
structure Vog where
  slots : List ItemSlot
  zebra : Nat
  peaking : Nat
  marker : Bool
  blink : Nat
  /-- The alert shown (R167). -/
  shown : Option Source
  dwell : Nat
  /-- The MODEL's own field: the rotation as the alert line last read it, from which R167 finds what followed a source that
  has left (log entry 5). -/
  rotation : List Source
  /-- The most recent window record received (R158). -/
  window : Option WindowRecord
  inFlight : Option Overlay
  waiting : Option Overlay
  droppedRecords : Nat
  tally : Tally
deriving DecidableEq, Repr

/-! ## Power -/

/-- The causes of a reset (R191). -/
inductive ResetCause where
  | powerOn
  | partReset
deriving DecidableEq, Repr

/-- The causes of a change of run state (R186, R188). -/
inductive RunCause where
  | request
  | recLine
deriving DecidableEq, Repr

/-- The enable set (R189). -/
structure Enables where
  lnc : Bool
  stb : Bool
  aud : Bool
  vog : Bool
  slots : Two Bool
deriving DecidableEq, Repr

/-- The Power Controller. -/
structure Pwc where
  /-- The run state: RUN, or STANDBY. -/
  inRun : Bool
  enables : Enables
  lastReset : ResetCause
  lastRunChange : RunCause
  /-- The reset in progress, if any (R191). -/
  resetting : Option ResetCause
deriving DecidableEq, Repr

end Sys2Proof.Machine
end

