-- ==== Sys2Proof/Machine/Notice.lean ====
section
/-! DEFINITION. The notice table and the outbound side of the host link as LNK alone holds them (R177 to R180, R185, R194,
R195): occurrences, qualification, the queueing and withdrawal of notice messages, the transmit arbiter, and the frames. -/

namespace Sys2Proof.Machine

/-- The code of a status (R194). -/
def Status.code : Status → Nat
  | .ok => 0
  | .accepted => 1
  | .busy => 2
  | .badLength => 3
  | .badValue => 4
  | .badState => 5
  | .blockOff => 6
  | .noCard => 7
  | .full => 8
  | .unknown => 9

/-- The number of a source (the notice table). -/
def Source.number : Source → Nat
  | .partStarted => 0
  | .linkError => 1
  | .frameLoss => 2
  | .tcTrigger => 3
  | .lensLost => 4
  | .lensMoveDone => 5
  | .lensOverride => 6
  | .gyroFault => 7
  | .stabEdge => 8
  | .audioOver => 9
  | .audioSlip => 10
  | .unitDropped => 11
  | .recState => 12
  | .cardChange => 13
  | .cardNearFull => 14
  | .cardFull => 15
  | .cardFault => 16
  | .relaySwitch => 17
  | .cardDone => 18
  | .powerState => 19

/-- The sources in the order of their numbers. -/
def allSources : List Source := [
  .partStarted, .linkError, .frameLoss, .tcTrigger, .lensLost, .lensMoveDone, .lensOverride, .gyroFault, .stabEdge,
  .audioOver, .audioSlip, .unitDropped, .recState, .cardChange, .cardNearFull, .cardFull, .cardFault, .relaySwitch,
  .cardDone, .powerState]

/-- A source with nothing pending, enabled, at a level and routed to the host; `vf` and `tally` say whether there too. -/
def freshSource (level : Nat) (vf tally : Bool) : SourceState :=
  { enabled := true, level := level, routes := { host := true, vf := vf, tally := tally },
    pending := false, count := 0, record := none, sent := false }

/-- The level and the routes of a source after reset (the notice table). -/
def Source.afterReset : Source → SourceState
  | .partStarted => freshSource 3 false false
  | .linkError => freshSource 1 false false
  | .frameLoss => freshSource 3 true false
  | .tcTrigger => freshSource 2 false false
  | .lensLost => freshSource 3 true false
  | .lensMoveDone => freshSource 1 false false
  | .lensOverride => freshSource 1 false false
  | .gyroFault => freshSource 2 true false
  | .stabEdge => freshSource 1 false false
  | .audioOver => freshSource 2 true false
  | .audioSlip => freshSource 2 false false
  | .unitDropped => freshSource 2 true false
  | .recState => freshSource 1 false false
  | .cardChange => freshSource 1 false false
  | .cardNearFull => freshSource 2 true false
  | .cardFull => freshSource 3 true true
  | .cardFault => freshSource 3 true true
  | .relaySwitch => freshSource 1 true false
  | .cardDone => freshSource 1 false false
  | .powerState => freshSource 1 false false

/-- What the table holds for a source. -/
def Lnk.source (lnk : Lnk) (src : Source) : SourceState :=
  lnk.table[src.number]?.getD src.afterReset

/-- Changes what the table holds for a source. -/
def Lnk.modifySource (lnk : Lnk) (src : Source) (f : SourceState → SourceState) : Lnk :=
  { lnk with table := modifyAt f src.number lnk.table }

/-- The serial of a source's first occurrence; 0 when the record is empty. -/
def SourceState.firstSerial (st : SourceState) : Serial :=
  match st.record with
  | some r => r.serial
  | none => 0

/-- The order of the arbiter (R177) and of the alert list (R166): level descending, oldest first occurrence, source number. -/
def Lnk.ahead (lnk : Lnk) (x y : Source) : Bool :=
  let sx := lnk.source x
  let sy := lnk.source y
  if sx.level != sy.level then decide (sy.level < sx.level)
  else if older sx.firstSerial sy.firstSerial then true
  else if older sy.firstSerial sx.firstSerial then false
  else decide (x.number ≤ y.number)

/-- Puts a source into a list that stands in the arbiter's order. -/
def Lnk.insertInOrder (lnk : Lnk) (x : Source) : List Source → List Source
  | [] => [x]
  | y :: ys => if lnk.ahead x y then x :: y :: ys else y :: Lnk.insertInOrder lnk x ys

/-- Sources in the arbiter's order. -/
def Lnk.inOrder (lnk : Lnk) (sources : List Source) : List Source :=
  sources.foldr (lnk.insertInOrder) []

/-- A source qualifies for the host (R179). -/
def Lnk.qualifies (lnk : Lnk) (src : Source) : Bool :=
  let st := lnk.source src
  st.pending && st.enabled && st.routes.host && decide (lnk.mask < st.level)

/-- The condition of the ATTN line (R180). -/
def Lnk.attnDue (lnk : Lnk) : Bool := allSources.any lnk.qualifies

/-- The places of the outbound queue that are taken (R177). -/
def Lnk.places (lnk : Lnk) : Nat := lnk.waiting.length + (if lnk.sending.isSome then 1 else 0)

/-- Whether a message is a notice message. -/
def OutMsg.isNotice : OutMsg → Bool
  | .notice _ => true
  | .reply _ _ _ => false

/-- The notice messages in the outbound queue, the one being sent among them (R177). -/
def Lnk.noticePlaces (lnk : Lnk) : Nat :=
  (lnk.waiting.filter OutMsg.isNotice).length +
    (match lnk.sending with
     | some x => if x.msg.isNotice then 1 else 0
     | none => 0)

/-- The replies in the outbound queue. -/
def Lnk.replyPlaces (lnk : Lnk) : Nat := lnk.places - lnk.noticePlaces

/-- A place is free for a reply (R175, R177). -/
def Lnk.hasPlace (lnk : Lnk) : Bool := decide (lnk.places < 16)

/-- A place is free for a notice message (R177). -/
def Lnk.hasNoticePlace (lnk : Lnk) : Bool := decide (lnk.places < 16) && decide (lnk.noticePlaces < 12)

/-- A frame of the host link (R172, R194). -/
def linkFrame (kind code tag : Byte) (payload : List Byte) : List Byte :=
  let body := kind :: code :: tag :: payload
  0xC3#8 :: u16 payload.length ++ body ++ crcBytes body

/-- The payload of a notice message (R195). -/
def SourceState.noticePayload (st : SourceState) : List Byte :=
  let detail := match st.record with
    | some r => r.detail
    | none => []
  u8 st.level ++ u8 st.count ++ u8 detail.length ++ serialBytes st.firstSerial ++ detail ++
    List.replicate (16 - detail.length) 0

/-- Gives the detail's unstated bytes free values (log entry 1), counting the draws. -/
def fillDetail : Nat → List (Option Byte) → List Byte × Nat
  | drawn, [] => ([], drawn)
  | drawn, some b :: rest => let (bytes, n) := fillDetail drawn rest; (b :: bytes, n)
  | drawn, none :: rest => let (bytes, n) := fillDetail (drawn + 1) rest; (Config.freeByte drawn :: bytes, n)

/-- An occurrence of a source is taken by the source's state (R178). `latest` is the latest frame-start serial. -/
def Lnk.occur (lnk : Lnk) (latest : Serial) (src : Source) (detail : List (Option Byte)) : Lnk :=
  let st := lnk.source src
  if !st.enabled then lnk
  else if st.pending then lnk.modifySource src (fun st => { st with count := bump 255 st.count 1 })
  else
    let filled := fillDetail lnk.drawn detail
    { lnk.modifySource src (fun st =>
        { st with pending := true, count := 1, sent := false, record := some { detail := filled.1, serial := latest } })
      with drawn := filled.2 }

/-- Clears a pending source (R183); a source that is not pending is left as it is. -/
def SourceState.clear (st : SourceState) : SourceState :=
  if st.pending then { st with pending := false, count := 0, record := none, sent := false } else st

/-- A waiting message stands while its source qualifies (R179). -/
def Lnk.stands (lnk : Lnk) : OutMsg → Bool
  | .reply _ _ _ => true
  | .notice src => lnk.qualifies src

/-- Withdraws the waiting messages of the sources that qualify no longer, and clears their sent flags (R179). A source with no
message waiting, its message sent or being sent, keeps its sent flag, also where NOTICE_MASK excludes it (R182 read as R179 words
it: DESIGN CHOICE, log entry 55). -/
def Lnk.withdraw (lnk : Lnk) : Lnk :=
  let gone := allSources.filter (fun src => lnk.waiting.contains (.notice src) && !lnk.qualifies src)
  { gone.foldl (fun l src => l.modifySource src (fun st => { st with sent := false })) lnk with
    waiting := lnk.waiting.filter lnk.stands }

/-- A source qualifies, and its sent flag is clear (R179). -/
def Lnk.unsentNow (lnk : Lnk) (src : Source) : Bool := lnk.qualifies src && !(lnk.source src).sent

/-- Queues the notice message of one qualifying source whose sent flag is clear, when a place is free (R179). -/
def Lnk.queueNotice (lnk : Lnk) (src : Source) : Lnk :=
  if lnk.unsentNow src && lnk.hasNoticePlace then
    { lnk.modifySource src (fun st => { st with sent := true }) with waiting := lnk.waiting ++ [.notice src] }
  else lnk

/-- Queues the qualifying unsent sources in the arbiter's order as places allow (R179). -/
def Lnk.queueNotices (lnk : Lnk) : Lnk :=
  (lnk.inOrder (allSources.filter lnk.unsentNow)).foldl Lnk.queueNotice lnk

/-- The reply that the arbiter sends next: the oldest (R177). -/
def Lnk.oldestReply (lnk : Lnk) : Option OutMsg := lnk.waiting.find? (fun m => !m.isNotice)

/-- The notice message that the arbiter sends next (R177). -/
def Lnk.nextNotice (lnk : Lnk) : Option Source :=
  (lnk.inOrder (allSources.filter (fun src => lnk.waiting.contains (.notice src)))).head?

/-- The transmit arbiter: when the line is idle and a message waits, one begins (R177). A notice message takes its content now
(R179); the tag of its frame is a free byte (log entry 1). -/
def Lnk.transmit (lnk : Lnk) : Lnk :=
  if lnk.sending.isSome then lnk
  else match lnk.oldestReply with
  | some (.reply code tag payload) =>
    { lnk with
      waiting := lnk.waiting.erase (.reply code tag payload)
      sending := some { msg := .reply code tag payload, frame := linkFrame 0x02#8 code tag payload } }
  | _ =>
    match lnk.nextNotice with
    | some src =>
      { lnk with
        waiting := lnk.waiting.erase (.notice src)
        sending := some { msg := .notice src,
                          frame := linkFrame 0x03#8 (BitVec.ofNat 8 src.number) (Config.freeByte lnk.drawn)
                                     (lnk.source src).noticePayload }
        drawn := lnk.drawn + 1 }
    | none => lnk

/-- LNK acts on the table as it stands: it withdraws, queues, begins a message when the line is idle, and judges ATTN (R179,
R180). -/
def Lnk.follow (lnk : Lnk) : Lnk :=
  let lnk := (lnk.withdraw.queueNotices).transmit
  { lnk with attn := lnk.attnDue }

/-- A reply joins the outbound queue (R175, R176). A status other than OK or ACCEPTED goes alone. -/
def Lnk.pushReply (lnk : Lnk) (r : Request) (ans : Answer) : Lnk :=
  let body := match ans.status with
    | .ok => ans.body
    | .accepted => ans.body
    | _ => []
  { lnk with waiting := lnk.waiting ++ [.reply r.code r.tag (u8 ans.status.code ++ body)] }

/-- Link counts at 0. -/
def LinkCounts.zero : LinkCounts :=
  { badLength := 0, badCrc := 0, framing := 0, timeout := 0, badKind := 0, overrun := 0 }

/-- LNK while a reset lasts: the values of R185 with nothing pending and ATTN released. `drawn` goes on. -/
def Lnk.held (drawn : Nat) : Lnk :=
  { baud := 0, kept := [], inbound := [], waiting := [], sending := none, counts := .zero,
    table := allSources.map Source.afterReset, mask := 0, attn := false, resetTaken := false, drawn := drawn }

/-- The code of a reset's cause (R195). -/
def ResetCause.code : ResetCause → Nat
  | .powerOn => 0
  | .partReset => 1

/-- LNK at the end of a reset (R185, R191): the straps are read, PART_STARTED is made pending with serial 0, its message begins
and ATTN is asserted. -/
def Lnk.started (drawn : Nat) (cause : ResetCause) (baud : Nat) (detectA detectB : Bool) : Lnk :=
  (({ Lnk.held drawn with baud := baud }).occur 0 .partStarted
    ((u8 cause.code ++ u8 baud ++ flagByte detectA ++ flagByte detectB).map some)).follow

end Sys2Proof.Machine
end

