-- ==== Sys2Proof/Machine/Optics.lean ====
section
/-! DEFINITION. The computations of the Lens Controller: the focal length (R42), the rate speed (R33), the steps of a timed
move (R34), the automatic iris (R41), and the lens report's bytes (R196). -/

namespace Sys2Proof.Machine

/-- F(Z) of R42, in hundredths of a millimetre. -/
def zoomFocal (curve : List Nat) (z : Nat) : Int :=
  let i := z / 256
  let fi : Int := (curve[i]?.getD 0 : Nat)
  let fj : Int := (curve[i + 1]?.getD 0 : Nat)
  fi + (fj - fi) * ((z : Int) - 256 * i) / 256

/-- The focal length of a report (R42). -/
def focalLength (curve : List Nat) (r : LensReport) : Nat :=
  let f := (zoomFocal curve r.zoom).toNat
  if r.extender then min 65535 (2 * f) else f

/-- The speed of rate `v` from a speed table, before the slow zone (R33). -/
def tableSpeed (speeds : List Nat) (v : Int) : Nat :=
  let m := v.natAbs
  let i := m / 16
  let si : Int := (speeds[i]?.getD 0 : Nat)
  let sj : Int := (speeds[i + 1]?.getD 0 : Nat)
  (si + (sj - si) * ((m : Int) - 16 * i) / 16).toNat

/-- The new demand of an axis in RATE: the speed with its slow zone, and the clamp to the soft limits (R33). -/
def rateDemand (s : Servo) (v : Int) : Nat :=
  let speed := tableSpeed s.speeds v
  let distance : Int := if v < 0 then (s.demand : Int) - s.least else (s.greatest : Int) - s.demand
  let used := if 1 ≤ speed ∧ distance ≤ 64 then max 1 (speed / 4) else speed
  let moved : Int := if v < 0 then (s.demand : Int) - used else (s.demand : Int) + used
  (saturate s.least s.greatest moved).toNat

/-- The demand of step k of a ramp (R34). -/
def rampDemand (m : Move) (k : Nat) : Nat :=
  ((m.p0 : Int) + roundDiv (((m.p1 : Int) - m.p0) * k) m.duration).toNat

/-- One frame start of a move: its new phase and demand, or none when the move ends LATE (R34). -/
def Move.frame (m : Move) : Option Move × Nat :=
  match m.phase with
  | .ramp k =>
    let k' := k + 1
    (some { m with phase := if k' < m.duration then .ramp k' else .wait 0 }, rampDemand m k')
  | .wait w =>
    if w + 1 < 50 then (some { m with phase := .wait (w + 1) }, m.p1) else (none, m.p1)

/-- A reported position is within 4 counts of the target (R34). -/
def nearTarget (m : Move) (position : Nat) : Bool :=
  decide (position ≤ m.p1 + 4) && decide (m.p1 ≤ position + 4)

/-- A move has sent its last step (R34). -/
def Move.waiting (m : Move) : Bool :=
  match m.phase with
  | .ramp _ => false
  | .wait _ => true

/-- The frames a move of `distance` counts needs at top speed `top` (R34 step 2). -/
def framesNeeded (distance top : Nat) : Nat := (distance + top - 1) / top

/-- The distance between two positions. -/
def distance (x y : Nat) : Nat := if x ≤ y then y - x else x - y

/-- The automatic iris step (R41): the new demand from target, deadband and mean luma. -/
def autoIris (i : Iris) (luma : Nat) : Nat :=
  let e : Int := (i.target : Int) - luma
  if i.deadband < e.natAbs then (saturate 0 255 ((i.demand : Int) + saturate (-4) 4 (Int.tdiv e 8))).toNat
  else i.demand

/-- The mean luma of a tile set: the floor of the mean of its pixels (R41). -/
def tileMeanOf (pixels : List Byte) : Nat :=
  pixels.foldl (fun n b => n + b.toNat) 0 / 9216

/-- A well-formed report, or none for a malformed one (R27, R196). -/
def parseReport (bytes : List Byte) : Option LensReport :=
  let zoom := num bytes 0 2
  let focus := num bytes 2 2
  let flags := bytes[5]?.getD 0
  if bytes.length == 8 && field bytes 6 2 == crcBytes (bytes.take 6) && decide (zoom ≤ 4095) && decide (focus ≤ 4095) then
    some { zoom := zoom, focus := focus, iris := num bytes 4 1, extender := flags.getLsbD 0,
           override := { zoom := flags.getLsbD 1, focus := flags.getLsbD 2, iris := flags.getLsbD 3 } }
  else none

/-- The reported position of an axis. -/
def LensReport.position (r : LensReport) : Axis → Nat
  | .zoom => r.zoom
  | .focus => r.focus
  | .iris => r.iris

/-- The default record of R29. -/
def LensReport.initial : LensReport :=
  { zoom := 2048, focus := 2048, iris := 128, extender := false,
    override := { zoom := false, focus := false, iris := false } }

/-- The default zoom curve of R42. -/
def defaultCurve : List Nat :=
  [450, 928, 1406, 1884, 2363, 2841, 3319, 3797, 4275, 4753, 5231, 5709, 6188, 6666, 7144, 7622, 8100]

/-- The default speed table of R43. -/
def defaultSpeeds : List Nat := [0, 2, 4, 8, 14, 24, 40, 64, 96]

end Sys2Proof.Machine
end

