-- ==== Sys2Proof/Machine/Timecode.lean ====
section
/-! DEFINITION. Frame rates and timecode arithmetic: the rate table of R5, the cadence of R80, drop-frame counting and the
advance of R14 and R15, the label lookup of R13. -/

namespace Sys2Proof.Machine

/-- The nominal rate (R5). -/
def Rate.nominal : Rate → Nat
  | .r24 => 24
  | .r24d => 24
  | .r25 => 25
  | .r30 => 30
  | .r30d => 30
  | .r50 => 50
  | .r60 => 60
  | .r60d => 60

/-- The nominal period N in reference cycles (R5). -/
def Rate.period : Rate → Nat
  | .r24 => 1125000
  | .r24d => 1126125
  | .r25 => 1080000
  | .r30 => 900000
  | .r30d => 900900
  | .r50 => 540000
  | .r60 => 450000
  | .r60d => 450450

/-- The labels dropped at a dropping minute (R14); 0 where drop-frame is not allowed (R5). -/
def Rate.dropCount : Rate → Nat
  | .r30d => 2
  | .r60d => 4
  | _ => 0

/-- Drop-frame may be chosen (R5). -/
def Rate.dropAllowed (r : Rate) : Bool := r.dropCount != 0

/-- The code of a rate (formats). -/
def Rate.code : Rate → Nat
  | .r24 => 0
  | .r24d => 1
  | .r25 => 2
  | .r30 => 3
  | .r30d => 4
  | .r50 => 5
  | .r60 => 6
  | .r60d => 7

/-- The rate of a code (formats). -/
def rateOfCode : Nat → Option Rate
  | 0 => some .r24
  | 1 => some .r24d
  | 2 => some .r25
  | 3 => some .r30
  | 4 => some .r30d
  | 5 => some .r50
  | 6 => some .r60
  | 7 => some .r60d
  | _ => none

/-- The cadence count e(n): the sample frames in the segment of serial n (R80). -/
def Rate.cadence (r : Rate) (n : Serial) : Nat :=
  let phase := n.toNat % 5
  match r with
  | .r24 => 2000
  | .r24d => 2002
  | .r25 => 1920
  | .r30 => 1600
  | .r30d => if phase == 1 || phase == 3 then 1601 else 1602
  | .r50 => 960
  | .r60 => 800
  | .r60d => if phase == 4 then 800 else 801

/-- The time value 00:00:00:00. -/
def Timecode.zero : Timecode := { hours := 0, minutes := 0, seconds := 0, frames := 0 }

/-- The four fields are in range (R14). -/
def Timecode.inRange (r : Rate) (t : Timecode) : Bool :=
  decide (t.hours ≤ 23) && decide (t.minutes ≤ 59) && decide (t.seconds ≤ 59) && decide (t.frames < r.nominal)

/-- A dropped label (R14). -/
def Timecode.isDropped (r : Rate) (drop : Bool) (t : Timecode) : Bool :=
  drop && t.seconds == 0 && t.minutes % 10 != 0 && decide (t.frames < r.dropCount)

/-- A dropped label is moved forward (R14). -/
def Timecode.moveForward (r : Rate) (drop : Bool) (t : Timecode) : Timecode :=
  if t.isDropped r drop then { t with frames := r.dropCount } else t

/-- One frame on, with the carries of R15. -/
def Timecode.succ (r : Rate) (t : Timecode) : Timecode :=
  if t.frames + 1 < r.nominal then { t with frames := t.frames + 1 }
  else if t.seconds + 1 < 60 then { t with seconds := t.seconds + 1, frames := 0 }
  else if t.minutes + 1 < 60 then { t with minutes := t.minutes + 1, seconds := 0, frames := 0 }
  else if t.hours + 1 < 24 then { hours := t.hours + 1, minutes := 0, seconds := 0, frames := 0 }
  else Timecode.zero

/-- The advance (R15). -/
def Timecode.advance (r : Rate) (drop : Bool) (t : Timecode) : Timecode :=
  (t.succ r).moveForward r drop

/-- What a change of rate does to a time value (R23): the frames field is brought below the nominal rate, then a dropped label
is moved forward. -/
def Timecode.fit (r : Rate) (drop : Bool) (t : Timecode) : Timecode :=
  ({ t with frames := min t.frames (r.nominal - 1) }).moveForward r drop

/-- A time value as four bytes (formats). -/
def Timecode.bytes (t : Timecode) : List Byte := u8 t.hours ++ u8 t.minutes ++ u8 t.seconds ++ u8 t.frames

/-- A label as eight bytes: the time value and the user bits (formats). -/
def Label.bytes (l : Label) : List Byte := l.time.bytes ++ u32 l.userBits.toNat

/-- The lookup of R13: the history entry of a serial, or none for "label unknown". -/
def Ftb.lookup (ftb : Ftb) (n : Serial) : Option HistoryEntry :=
  ftb.history.find? (fun h => h.serial == n)

/-- The generator advances one frame (R15). -/
def Ftb.advance (ftb : Ftb) : Ftb :=
  { ftb with generator := ftb.generator.advance ftb.rate ftb.dropFrame }

/-- What the Recorder's entry into RECORDING does to FTB: the interval counter is loaded with P when interval mode is on
(R22), and the catch-up advance is made in REC-RUN with interval mode off (R15). -/
def Ftb.clipStarted (ftb : Ftb) : Ftb :=
  match ftb.interval with
  | some iv => { ftb with counter := iv.period }
  | none => if ftb.mode == .recRun then ftb.advance else ftb

end Sys2Proof.Machine
end

