-- ==== Sys2Proof/Machine/Reset.lean ====
section
/-! DEFINITION. The reset values of every block, as each block's chapter tabulates them: R25, R46, R69, R86, R111, R133, R156,
R170, R185, R193. -/

namespace Sys2Proof.Machine

/-- The Frame Timebase after power-on reset and PART_RESET (R25). `lastReal` has no stated value: log entry 7. -/
def Ftb.afterReset : Ftb :=
  { rate := .r25, dropFrame := false, state := .acquire, elapsed := 0, serial := 0, lastReal := 0, previousReal := false,
    measurement := 0, runts := 0, substituted := 0, history := [], generator := .zero, userBits := 0, mode := .freeRun,
    preset := none, trigger := none, interval := none, counter := 0 }

/-- Zoom or focus after reset (R46). -/
def Servo.afterReset : Servo :=
  { mode := .idle, released := false, demand := 2048, least := 0, greatest := 4095, speeds := defaultSpeeds,
    lastEnding := none }

/-- The iris after reset (R46). -/
def Iris.afterReset : Iris :=
  { auto := false, released := false, demand := 128, move := none, target := 112, deadband := 4, lastEnding := none }

/-- The Lens Controller at its reset values with given reports (R46): a block disable keeps the two reports. The focal length
is the one R42 gives for the latest report on the default curve (log entry 7). -/
def Lnc.resetKeeping (latest previous : LensReport) (reported : Bool) : Lnc :=
  { lens := .unknown, misses := 0, totalMisses := 0, latest := latest, previous := previous, reported := reported,
    lastGood := 0, window := none, zoom := .afterReset, focus := .afterReset, iris := .afterReset, curve := defaultCurve,
    focal := focalLength defaultCurve latest, focalSerial := 0, presets := List.replicate 8 none, tileMean := none,
    sent := none }

/-- The Lens Controller after power-on reset and PART_RESET (R46). -/
def Lnc.afterReset : Lnc := .resetKeeping .initial .initial false

/-- One stabiliser axis after reset (R69). -/
def StabAxis.afterReset : StabAxis :=
  { c := 0, sum := 0, angle := 0, gyroShift := 0, vector := 0, measured := 0, clampedLast := false, swing := 0,
    swingPositive := true, clampCount := 0 }

/-- The default settings of R66. -/
def StabSettings.default : StabSettings :=
  { marginX := 96, marginY := 54, pitch := 500, decimation := 15, biasX := 0, biasY := 0, invertX := false, invertY := false,
    panThreshold := 320 }

/-- The Stabiliser after reset and block disable (R69). -/
def Stb.afterReset : Stb :=
  { state := .off, followSettling := false, settle := 0, x := .afterReset, y := .afterReset, quiet := 0, samples := 0,
    gain := 0, focal := 0, distrust := some .noResult, result := none, older := none, newer := none, waiting := none,
    correlating := false, reading := false, gyroFault := false, badRun := 0, goodRun := 0, lastGood := none, badSamples := 0,
    rejectedSets := 0, droppedSets := 0, droppedResults := 0, settings := .default, sent := none }

/-- An audio channel after reset (R86). -/
def Channel.afterReset : Channel :=
  { gain := 0, pendingGain := none, limiter := { on := false, threshold := 0, release := 50 }, pendingLimiter := none,
    reduction := 0, releaseCount := 0, blockPeak := 0, meter := 97, holdHistory := [], overs := 0, overReported := false }

/-- An audio pair after reset (R86). -/
def Pair.afterReset : Pair :=
  { state := .off, store := [], blockCount := 0, last := none, dropped := 0, slips := 0, paddedTotal := 0, droppedTotal := 0,
    first := .afterReset, second := .afterReset }

/-- The Audio Processor after reset and block disable (R86). -/
def Aud.afterReset : Aud := { pairs := { a := .afterReset, b := .afterReset } }

/-- BFM's counts at 0. -/
def BfmCounts.zero : BfmCounts :=
  { future := 0, late := 0, duplicate := 0, tooLarge := 0, skipped := 0, aged := 0, overflow := 0, depth := 0, shortage := 0,
    queueLimit := 0, start := 0, aborted := 0, cleared := 0, auxLost := 0 }

/-- The Buffer Manager after power-on reset and PART_RESET (R111). -/
def Bfm.afterReset : Bfm :=
  { taken := 0, free := { fresh := 0, released := [] }, entries := [], port := .header, queue := [], depth := 0,
    windows := List.replicate 4 none, attachments := [], nextMark := none, gapPending := false, counts := .zero }

/-- The ending counts at 0. -/
def EndCounts.zero : EndCounts := { stopped := 0, cardFull := 0, aborted := 0, retained := 0 }

/-- The Recorder after power-on reset and PART_RESET (R133). -/
def Rcd.afterReset : Rcd :=
  { state := .standing, mode := .single, primary := .a, clip := none, sequence := 0, latch := false, lastStart := none,
    noted := 0, begun := 0, endings := .zero }

/-- A card writer after power-on reset and PART_RESET (R156). The debounced lines start clear (log entry 8). -/
def CardSlot.afterReset : CardSlot :=
  { state := .absent, present := false, protectOn := false, deferred := false, summary := none, cardSectors := 0,
    lastHeader := none, mounted := [], reading := none, recovery := none, rebuilt := 0, queue := [], inFlight := none,
    nextId := 0, owed := [], copy := none, threshold := 64, nearFull := false, sizes := [], completed := 0, errors := 0,
    timeouts := 0, recovered := 0 }

/-- A card writer at its block-disable values (R156): the debounced levels are followed in OFF (R138). -/
def CardSlot.disabled (c : CardSlot) : CardSlot :=
  { CardSlot.afterReset with state := .off, present := c.present, protectOn := c.protectOn }

/-- A card writer after removal of its card (R156): the threshold and the counts are kept. -/
def CardSlot.removed (c : CardSlot) : CardSlot :=
  { CardSlot.afterReset with
    protectOn := c.protectOn, threshold := c.threshold, completed := c.completed, errors := c.errors,
    timeouts := c.timeouts, recovered := c.recovered }

/-- A system slot is enabled after reset (R170). -/
def slotEnabledAfterReset (i : Nat) : Bool := decide (i ≤ 6) || i == 10

/-- An item slot after reset (R170). -/
def ItemSlot.afterReset (i : Nat) : ItemSlot :=
  { enabled := slotEnabledAfterReset i, priority := 4, row := 0, column := 0, text := [] }

/-- The Viewfinder Overlay Generator after reset and block disable (R170). -/
def Vog.afterReset : Vog :=
  { slots := (List.range 32).map ItemSlot.afterReset, zebra := 100, peaking := 0, marker := false, blink := 31,
    shown := none, dwell := 0, rotation := [], window := none, inFlight := none, waiting := none, droppedRecords := 0,
    tally := .dark }

/-- All blocks enabled (R193). -/
def Enables.all : Enables :=
  { lnc := true, stb := true, aud := true, vog := true, slots := { a := true, b := true } }

/-- The Power Controller after a reset (R193). -/
def Pwc.afterReset (cause : ResetCause) : Pwc :=
  { inRun := true, enables := .all, lastReset := cause, lastRunChange := .request, resetting := none }

/-- No block has a frame start to act on. -/
def Due.none : Due := { lnc := [], stb := [], aud := [], bfm := [], rcd := [], vog := [] }

end Sys2Proof.Machine
end

