-- ==== Sys2Proof/Machine/State.lean ====
section
/-! DEFINITION. The state of the VC340: every block's record, the buffer memory's bytes, the frame starts that blocks have yet
to act on, and the queue of waiting commands. -/

namespace Sys2Proof.Machine

/-- The whole part, with the queue of commands that wait. -/
structure State where
  /-- Commands waiting, first in, first out. The MODEL's own field. -/
  pending : List Instr
  ftb : Ftb
  lnc : Lnc
  stb : Stb
  aud : Aud
  bfm : Bfm
  /-- The bytes of the buffer memory (R88). -/
  mem : Memory
  rcd : Rcd
  slots : Two CardSlot
  vog : Vog
  lnk : Lnk
  pwc : Pwc
  /-- The frame starts that blocks have yet to act on. -/
  due : Due
deriving DecidableEq, Repr

/-- The faults: none. No rule of the manual stops the part, every command has an effect in every state, and the state's
addresses are all inside the memory, so nothing raises a fault. -/
inductive Fault where
deriving DecidableEq, Repr

/-- The refusals. -/
inductive Refusal where
  /-- Raised by exec's arm for a command that has no meaning yet, by its mnemonic. Safe: nothing can be proved of a run
  through it. -/
  | notModelled (mnemonic : String)
deriving DecidableEq, Repr

/-- The part at the end of a reset (R191): every block at its power-on values, the straps and the raw card-detect levels as
they were sampled. The buffer memory keeps its bytes, and the model's counter of free bytes goes on. -/
def State.started (mem : Memory) (drawn : Nat) (cause : ResetCause) (baud : Nat) (detectA detectB : Bool) : State :=
  { pending := [], ftb := .afterReset, lnc := .afterReset, stb := .afterReset, aud := .afterReset, bfm := .afterReset,
    mem := mem, rcd := .afterReset, slots := { a := .afterReset, b := .afterReset }, vog := .afterReset,
    lnk := .started drawn cause baud detectA detectB, pwc := .afterReset cause, due := .none }

/-- The part at the end of a power-on reset with both baud straps low, no card in either slot (log entry 9) and nothing
listed in the buffer memory. -/
def State.reset : State := .started [] 0 .powerOn 0 false false

end Sys2Proof.Machine
end

