-- ==== Sys2Proof/Machine/Flags.lean ====
section
/-! DEFINITION. The output lines and flags that follow the state: the alert rotation and the alert shown (R166, R167), the
TALLY output (R169), ATTN (R180), and the settling of all of them at the end of a step. -/

namespace Sys2Proof.Machine

/-- A source stands on the alert list: pending, enabled and routed to the viewfinder (R166). -/
def Lnk.alerts (lnk : Lnk) (src : Source) : Bool :=
  let st := lnk.source src
  st.pending && st.enabled && st.routes.vf

/-- The rotation: the first 8 sources of the alert list (R166). -/
def Lnk.rotation (lnk : Lnk) : List Source :=
  (lnk.inOrder (allSources.filter lnk.alerts)).take 8

/-- The source that follows `x` in a rotation, if one does. -/
def following (x : Source) (rotation : List Source) : List Source :=
  (rotation.dropWhile (fun y => y != x)).drop 1

/-- The alert chosen when the shown source has left the rotation (R167): the first that followed it before the change and is
still there, or the first of the rotation. -/
def chooseAlert (before after : List Source) (gone : Source) : Option Source :=
  match (following gone before).find? (fun y => after.contains y) with
  | some y => some y
  | none => after.head?

/-- The alert line follows the table between frame starts (R167). DESIGN CHOICE, log entry 5: it rests in STANDBY and compares at
the return to RUN alone (R170), so an alert shown that left the rotation meanwhile and came back stays shown with its dwell
count; for one that is gone then, the rotation before the change is the one last read in RUN. -/
def Vog.follow (vog : Vog) (rotation : List Source) : Vog :=
  match vog.shown with
  | some x =>
    if rotation.contains x then { vog with rotation := rotation }
    else { vog with shown := chooseAlert vog.rotation rotation x, dwell := 0, rotation := rotation }
  | none => { vog with rotation := rotation }

/-- The alert line moves at a frame start (R167). -/
def Vog.moveAlert (vog : Vog) (rotation : List Source) (dwellLength : Nat) : Vog :=
  match rotation with
  | [] => { vog with shown := none, dwell := 0 }
  | first :: _ =>
    match vog.shown with
    | none => { vog with shown := some first, dwell := 1 }
    | some x =>
      if vog.dwell < dwellLength then { vog with dwell := vog.dwell + 1 }
      else { vog with shown := some ((following x rotation).head?.getD first), dwell := 1 }

/-- The blink phase is ON (R163). -/
def Vog.phaseOn (vog : Vog) : Bool := decide (vog.blink ≤ 15)

/-- A source is pending, enabled and routed to tally (R169). -/
def Lnk.tallied (lnk : Lnk) (src : Source) : Bool :=
  let st := lnk.source src
  st.pending && st.enabled && st.routes.tally

/-- VOG works: it is enabled and the part is in RUN. -/
def State.vogRuns (s : State) : Bool := s.pwc.inRun && s.pwc.enables.vog

/-- The TALLY output as its conditions stand (R169). -/
def State.tallyDue (s : State) : Tally :=
  if !s.vogRuns then .dark
  else if allSources.any s.lnk.tallied then .blinking
  else match s.rcd.state with
  | .recording => .lit
  | .closing => .lit
  | .standing => .dark
  | .retaining => .dark

/-- The lamp's level: a blinking lamp is lit while the phase is ON (R169). -/
def State.lampLit (s : State) : Bool :=
  match s.vog.tally with
  | .dark => false
  | .lit => true
  | .blinking => s.vog.phaseOn

/-- The end of a step: LNK's readers follow the notice table and the run and Recorder states (R178): notice messages and ATTN
(R179, R180), the alert line while VOG works (R167, R170), TALLY (R169). -/
def State.settle (s : State) : State :=
  let s := { s with lnk := s.lnk.follow }
  let s := if s.vogRuns then { s with vog := s.vog.follow s.lnk.rotation } else s
  { s with vog := { s.vog with tally := s.tallyDue } }

end Sys2Proof.Machine
end

