-- ==== Sys2Proof/Machine/Ops.lean ====
section
/-! DEFINITION. The shared operations over the state: occurrences, slots, what a step is while a reset lasts, and the part
status. -/

namespace Sys2Proof.Machine

/-- What one step answers. -/
abbrev Result := Host.Outcome State Fault Refusal

/-- An occurrence of a source, with a detail whose unstated bytes are none (R178). -/
def State.notify (s : State) (src : Source) (detail : List (Option Byte)) : State :=
  { s with lnk := s.lnk.occur s.ftb.serial src detail }

/-- An occurrence of a source with every byte of its detail stated. -/
def State.report (s : State) (src : Source) (detail : List Byte) : State := s.notify src (detail.map some)

/-- One slot's card writer. -/
def State.slot (s : State) (side : Side) : CardSlot := s.slots.get side

/-- Replaces one slot's card writer. -/
def State.setSlot (s : State) (side : Side) (c : CardSlot) : State := { s with slots := s.slots.set side c }

/-- Changes one slot's card writer. -/
def State.modifySlot (s : State) (side : Side) (f : CardSlot → CardSlot) : State := s.setSlot side (f (s.slot side))

/-- The part is held in a reset (R191). -/
def State.inReset (s : State) : Bool := s.pwc.resetting.isSome

/-- What a step of the part does: while a reset lasts, nothing is taken (R191); otherwise the effect, and the settling of the
lines that follow the state. -/
def State.act (s : State) (effect : State → State) : Result :=
  if s.inReset then .next s else .next (effect s).settle

/-- Refuses a request with a status (R176). -/
def refuse (s : State) (status : Status) : State × Answer := (s, { status := status, body := [] })

/-- Answers OK with the reply fields. -/
def answerOk (s : State) (body : List Byte) : State × Answer := (s, { status := .ok, body := body })

/-- A slot is a target of the clip: it holds a copy in WRITING or CLOSING (R113). -/
def State.isTarget (s : State) (side : Side) : Bool :=
  match s.rcd.clip with
  | none => false
  | some clip =>
    match clip.copies.get side with
    | none => false
    | some copy => copy.state == .writing || copy.state == .closing

/-- A slot is live (R101). -/
def State.slotLive (s : State) (side : Side) : Bool :=
  match (s.slot side).state with
  | .fault => false
  | .absent => false
  | .off => false
  | _ => true

end Sys2Proof.Machine
end

