-- ==== Sys2Proof/Machine/Buffer.lean ====
section
/-! DEFINITION. The Buffer Manager's shared operations: pages and page shortage (R88, R89), discards and releases of units,
hold windows (R103), abandonment (R96), the completion of an entry (R95) and its joining of the unit queue (R100 to R102,
R119, R120), the removal of written units (R101). -/

namespace Sys2Proof.Machine

/-! ## Pages -/

/-- The pages of the buffer memory (R88). -/
def pageCount : Nat := 16384

/-- The free pages (R88). -/
def FreeList.count (f : FreeList) : Nat := (pageCount - f.fresh) + f.released.length

/-- The free list in order (R88). -/
def FreeList.pages (f : FreeList) : List Nat := List.range' f.fresh (pageCount - f.fresh) ++ f.released

/-- The first `k` pages of the free list, if it holds them (R88). -/
def FreeList.take (f : FreeList) (k : Nat) : Option (List Nat × FreeList) :=
  if k ≤ f.count then
    let n := min k (pageCount - f.fresh)
    some (List.range' f.fresh n ++ f.released.take (k - n), { fresh := f.fresh + n, released := f.released.drop (k - n) })
  else none

/-- Pages return to the back of the free list (R88). -/
def FreeList.give (f : FreeList) (pages : List Nat) : FreeList := { f with released := f.released ++ pages }

/-- The pages of a length of picture (R88). -/
def pagesOf (length : Nat) : Nat := (length + pageSize - 1) / pageSize

/-- The page of a pair's sound, if it is present. -/
def Sound.pages : Sound → List Nat
  | .present d => [d.page]
  | .awaited => []
  | .absent _ => []

/-- The pages of a picture. -/
def Picture.pages : Picture → List Nat
  | .none => []
  | .arriving p => p.pages
  | .present p => p.pages

/-- The page list of an entry: the picture, then sound A, then sound B (R88, R97). -/
def Entry.pages (e : Entry) : List Nat := e.picture.pages ++ e.sound.a.pages ++ e.sound.b.pages

/-- The page list of a unit (R97). -/
def RecUnit.pages (u : RecUnit) : List Nat := u.picture.pages ++ u.sound.a.pages ++ u.sound.b.pages

/-- A unit that carries no hold mark and belongs to no clip and no retention (R89). -/
def RecUnit.unheldRing (u : RecUnit) : Bool := u.membership == .ring && u.holds.isEmpty

/-- The pages owned by assembly entries (R88). -/
def Bfm.entryPages (b : Bfm) : Nat := (b.entries.map (fun e => e.pages.length)).sum

/-- The pages owned by queued units (R88). -/
def Bfm.unitPages (b : Bfm) : Nat := (b.queue.map (fun u => u.pages.length)).sum

/-- The held pages (R103). -/
def Bfm.heldPages (b : Bfm) : Nat := ((b.queue.filter (fun u => !u.holds.isEmpty)).map (fun u => u.pages.length)).sum

/-! ## Units leave the queue -/

/-- A valid window becomes invalid when no queued unit carries its mark (R103). -/
def Bfm.judgeWindows (b : Bfm) : Bfm :=
  { b with windows := (List.range 4).map (fun w =>
      if b.queue.any (fun u => u.holds.contains w) then (b.windows[w]?).join else none) }

/-- Units leave the queue with their pages, attachments and marks (R89, R100, R101). Where several leave in one step,
their pages return oldest unit first (DESIGN CHOICE, log entry 41). -/
def Bfm.dropUnits (b : Bfm) (gone : RecUnit → Bool) : Bfm :=
  ({ b with
      queue := b.queue.filter (fun u => !gone u)
      free := b.free.give ((b.queue.filter gone).map RecUnit.pages).flatten }).judgeWindows

/-- One unit leaves the queue. -/
def Bfm.dropUnit (b : Bfm) (serial : Serial) : Bfm := b.dropUnits (fun u => u.serial == serial)

/-- Changes queued units. -/
def Bfm.modifyUnits (b : Bfm) (which : RecUnit → Bool) (f : RecUnit → RecUnit) : Bfm :=
  { b with queue := b.queue.map (fun u => if which u then f u else u) }

/-- Changes one entry of the assembly table. -/
def Bfm.modifyEntry (b : Bfm) (serial : Serial) (f : Entry → Entry) : Bfm :=
  { b with entries := b.entries.map (fun e => if e.serial == serial then f e else e) }

/-- The entry with a serial. -/
def Bfm.entry (b : Bfm) (serial : Serial) : Option Entry := b.entries.find? (fun e => e.serial == serial)

/-- An allocation of `k` pages, meeting a page shortage (R88, R89). -/
def Bfm.allocate (b : Bfm) (k : Nat) : Option (List Nat) × Bfm :=
  let ring := b.queue.filter RecUnit.unheldRing
  let b' :=
    if k ≤ b.free.count then b
    else if k ≤ b.free.count + (ring.map (fun u => u.pages.length)).sum then
      ring.foldl (fun b u =>
        if k ≤ b.free.count then b
        else { b.dropUnit u.serial with counts := { b.counts with shortage := bump16 b.counts.shortage } }) b
    else b
  match b'.free.take k with
  | some (pages, free) => (some pages, { b' with free := free })
  | none => (none, b')

/-- The ring rule: the oldest unheld ring units beyond the pre-record depth are discarded (R102). -/
def Bfm.ringRule (b : Bfm) : Bfm :=
  let ring := b.queue.filter RecUnit.unheldRing
  let extra := ring.take (ring.length - b.depth)
  extra.foldl (fun b u =>
    { b.dropUnit u.serial with counts := { b.counts with depth := bump16 b.counts.depth } }) b

/-- A unit goes back to the ring with no progress on any slot, keeping its hold marks (R108, R128). -/
def RecUnit.toRing (u : RecUnit) : RecUnit :=
  { u with membership := .ring, progress := { a := .none, b := .none } }

/-- The release of units of an aborted clip or retention (R108): a held unit becomes RING, an unheld one is discarded and
counted ABORTED. -/
def Bfm.releaseUnits (b : Bfm) (which : RecUnit → Bool) : Bfm :=
  let gone := fun (u : RecUnit) => which u && u.holds.isEmpty
  let n := (b.queue.filter gone).length
  let b := b.modifyUnits (fun u => which u && !u.holds.isEmpty) RecUnit.toRing
  let b := b.dropUnits gone
  { b with counts := { b.counts with aborted := bump 65535 b.counts.aborted n } }

/-- A unit belongs to the open clip or retention. -/
def RecUnit.ofClip (u : RecUnit) : Bool :=
  match u.membership with
  | .ring => false
  | .clip _ => true
  | .retain => true

/-- FRAME_CONFIG and the entry into STANDBY discard every queued unit, abandon every entry and clear all windows (R110). The pages
return from the units, oldest first, and then from the entries, oldest first (DESIGN CHOICE, log entry 41). -/
def Bfm.clearAll (b : Bfm) : Bfm :=
  { b with
    queue := []
    entries := []
    windows := List.replicate 4 none
    free := (b.free.give (b.queue.map RecUnit.pages).flatten).give (b.entries.map Entry.pages).flatten
    port := match b.port with
      | .data _ _ remaining => .skip remaining
      | .skip remaining => .skip remaining
      | .header => .header
    counts := { b.counts with cleared := bump 65535 b.counts.cleared (b.queue.length + b.entries.length) } }

/-! ## Abandonment -/

/-- The code of an abandonment's reason (R195). -/
def AbandonReason.code : AbandonReason → Nat
  | .aged => 0
  | .skipped => 1
  | .tooLarge => 2
  | .overflow => 3

/-- The count of an abandonment's reason goes up by one (R96). -/
def BfmCounts.abandon (c : BfmCounts) : AbandonReason → BfmCounts
  | .aged => { c with aged := bump16 c.aged }
  | .skipped => { c with skipped := bump16 c.skipped }
  | .tooLarge => { c with tooLarge := bump16 c.tooLarge }
  | .overflow => { c with overflow := bump16 c.overflow }

/-- An entry's label lookup carries the burst flag. -/
def Entry.burst (e : Entry) : Bool :=
  match e.label with
  | some h => h.burst
  | none => false

/-- A serial is at or before the clip's end serial, or none is fixed (R96). -/
def Clip.reaches (clip : Clip) (serial : Serial) : Bool :=
  match clip.last with
  | some last => olderOrSame serial last
  | none => true

/-- An entry lies within the open clip's range (R96). -/
def State.inClipRange (s : State) (e : Entry) : Bool :=
  match s.rcd.clip with
  | none => false
  | some clip =>
    (s.rcd.state == .recording || s.rcd.state == .closing) &&
    (match clip.head with
     | none => false
     | some head => !older e.serial head && clip.reaches e.serial) &&
    (s.ftb.interval.isNone || e.burst)

/-- The port goes to SKIP when the entry receiving the bytes is abandoned (R94). -/
def EssencePort.abandoned (p : EssencePort) (serial : Serial) : EssencePort :=
  match p with
  | .data target placed remaining => if target == serial then .skip remaining else .data target placed remaining
  | .skip remaining => .skip remaining
  | .header => .header

/-- An entry is abandoned (R96, R94). -/
def State.abandon (s : State) (e : Entry) (reason : AbandonReason) : State :=
  let b := s.bfm
  let inRange := s.inClipRange e
  let s := { s with bfm :=
    { b with
      entries := b.entries.filter (fun x => x.serial != e.serial)
      free := b.free.give e.pages
      port := b.port.abandoned e.serial
      counts := b.counts.abandon reason
      gapPending := b.gapPending || inRange } }
  if inRange then s.report .unitDropped (serialBytes e.serial ++ u8 reason.code) else s

/-! ## Completion and joining -/

/-- A pair's sound is decided. -/
def Sound.decided : Sound → Bool
  | .awaited => false
  | .present _ => true
  | .absent _ => true

/-- A pair's sound is present. -/
def Sound.isPresent : Sound → Bool
  | .present _ => true
  | .awaited => false
  | .absent _ => false

/-- The unit that a complete entry becomes, as a ring unit (R95, R97). -/
def Entry.toUnit (e : Entry) (picture : PictureData) : RecUnit :=
  { serial := e.serial
    label := e.label.map HistoryEntry.label
    labelValid := (e.label.map HistoryEntry.valid).getD false
    recording := (e.label.map HistoryEntry.recording).getD false
    picture := picture
    sound := e.sound
    lens := e.lens
    window := e.window
    settings := e.settings
    attachment := e.attachment
    mark := e.mark
    gap := false
    audioAbsent := !e.sound.a.isPresent && !e.sound.b.isPresent
    substituted := (e.label.map HistoryEntry.substituted).getD false
    burst := e.burst
    membership := .ring
    holds := []
    progress := { a := .none, b := .none } }

/-- What the Recorder's rule makes of a joining unit (R119, R120). -/
inductive JoinAs where
  | ring
  | clip (head : Bool) (period : Option Int)
  | discard
deriving DecidableEq, Repr

/-- A copy takes units: it is WRITING. -/
def Copy.isWriting : Option Copy → Bool
  | some copy => copy.state == .writing
  | none => false

/-- Some copy of the clip is WRITING. -/
def Clip.someWriting (clip : Clip) : Bool := Copy.isWriting clip.copies.a || Copy.isWriting clip.copies.b

/-- The period number of a serial in an interval clip (R120). -/
def periodNumber (serial start : Serial) (period : Nat) : Int :=
  (((serial - start).toNat : Int) - 1) / (period : Int)

/-- The period is newer than the burst head, or there is none (R120). -/
def Clip.newBurst (clip : Clip) (period : Int) : Bool :=
  match clip.burstHead with
  | none => true
  | some h => decide (h < period)

/-- The Recorder judges a joining unit (R119, R120). -/
def State.judgeJoin (s : State) (u : RecUnit) : JoinAs :=
  match s.rcd.clip with
  | none => .ring
  | some clip =>
    if !(s.rcd.state == .recording || (s.rcd.state == .closing && clip.reaches u.serial)) then .ring
    else if !clip.someWriting then .ring
    else match s.ftb.interval with
    | none =>
      if clip.head.isSome then .clip false none
      else if u.picture.key then .clip true none
      else .discard
    | some iv =>
      if !u.burst then .ring
      else
        let period := periodNumber u.serial (clip.start.getD 0) iv.period
        if clip.burstHead == some period then .clip false none
        else if clip.newBurst period && u.picture.key then .clip clip.head.isNone (some period)
        else .ring

/-- The progress of a unit that joins the clip: OWED on each slot whose copy is WRITING (R119). -/
def Clip.owedProgress (clip : Clip) : Two Progress :=
  { a := if Copy.isWriting clip.copies.a then .owed else .none
    b := if Copy.isWriting clip.copies.b then .owed else .none }

/-- A unit joins the queue at the tail with its membership (R101, R102, R119, R120). -/
def State.placeUnit (s : State) (u : RecUnit) : State :=
  match s.judgeJoin u, s.rcd.clip with
  | .clip head period, some clip =>
    let u := { u with
      membership := .clip clip.sequence
      gap := s.bfm.gapPending
      progress := clip.owedProgress }
    let clip := { clip with
      head := if head then some u.serial else clip.head
      burstHead := if period.isSome then period else clip.burstHead
      claimed := bump32 clip.claimed }
    { s with
      bfm := { s.bfm with queue := s.bfm.queue ++ [u], gapPending := false }
      rcd := { s.rcd with clip := some clip } }
  | .discard, _ =>
    { s with bfm := { s.bfm with
        free := s.bfm.free.give u.pages
        counts := { s.bfm.counts with start := bump16 s.bfm.counts.start } } }
  | _, _ => { s with bfm := ({ s.bfm with queue := s.bfm.queue ++ [u] }).ringRule }

/-- A complete entry leaves the table and joins the queue; a full queue first loses its oldest unheld ring unit, or else the
entry is abandoned (R100). -/
def State.join (s : State) (e : Entry) (picture : PictureData) : State :=
  let leave := fun (b : Bfm) => { b with entries := b.entries.filter (fun x => x.serial != e.serial) }
  if s.bfm.queue.length < 1024 then
    ({ s with bfm := leave s.bfm }).placeUnit (e.toUnit picture)
  else match s.bfm.queue.find? RecUnit.unheldRing with
  | some old =>
    let b := s.bfm.dropUnit old.serial
    let b := { b with counts := { b.counts with queueLimit := bump16 b.counts.queueLimit } }
    ({ s with bfm := leave b }).placeUnit (e.toUnit picture)
  | none => s.abandon e .overflow

/-- An entry completes when its picture is present and both pairs are decided (R95). -/
def State.checkComplete (s : State) (serial : Serial) : State :=
  match s.bfm.entry serial with
  | none => s
  | some e =>
    match e.picture with
    | .present p => if e.sound.a.decided && e.sound.b.decided then s.join e p else s
    | .none => s
    | .arriving _ => s

/-! ## Written units -/

/-- A progress counts as owed on a live slot. -/
def State.liveOwed (s : State) (u : RecUnit) : Bool :=
  (u.progress.a == .owed && s.slotLive .a) || (u.progress.b == .owed && s.slotLive .b)

/-- A unit has been written on some slot. -/
def RecUnit.writtenSomewhere (u : RecUnit) : Bool := u.progress.a == .written || u.progress.b == .written

/-- Clip units that no live slot owes and that some slot has written leave the queue (R101). -/
def State.sweepWritten (s : State) : State :=
  { s with bfm := s.bfm.dropUnits (fun u => u.ofClip && !s.liveOwed u && u.writtenSomewhere) }

end Sys2Proof.Machine
end

