-- ==== Sys2Proof/Machine/Operands.lean ====
section
/-! DEFINITION. The operand forms of the requests: enumerations and compound fields of a payload (R194), read at a byte offset.
A field outside its range is none, which every rule answers BAD_VALUE (R1). -/

namespace Sys2Proof.Machine

/-- A slot or pair field (formats). -/
def sideAt (bytes : List Byte) (first : Nat) : Option Side := slotOfCode (num bytes first 1)

/-- A number of `count` bytes that must lie from `lo` to `hi` (R1). -/
def rangeAt (bytes : List Byte) (first count lo hi : Nat) : Option Nat :=
  let x := num bytes first count
  if decide (lo ≤ x) && decide (x ≤ hi) then some x else none

/-- A signed number of `count` bytes that must lie from `lo` to `hi` (R1). -/
def signedRangeAt (bytes : List Byte) (first count : Nat) (lo hi : Int) : Option Int :=
  let x := signedNum bytes first count
  if decide (lo ≤ x) && decide (x ≤ hi) then some x else none

/-- A serial field. -/
def serialAt (bytes : List Byte) (first : Nat) : Serial := BitVec.ofNat 32 (num bytes first 4)

/-- A frame-rate field (formats). -/
def rateAt (bytes : List Byte) (first : Nat) : Option Rate := rateOfCode (num bytes first 1)

/-- A timecode mode field, in the order of R16. -/
def tcModeAt (bytes : List Byte) (first : Nat) : Option TcMode :=
  match num bytes first 1 with
  | 0 => some .freeRun
  | 1 => some .recRun
  | _ => none

/-- A slot mode field, in the order of R114. -/
def slotModeAt (bytes : List Byte) (first : Nat) : Option SlotMode :=
  match num bytes first 1 with
  | 0 => some .single
  | 1 => some .relay
  | 2 => some .mirror
  | _ => none

/-- A time value's four bytes. -/
def timecodeAt (bytes : List Byte) (first : Nat) : Timecode :=
  { hours := num bytes first 1, minutes := num bytes (first + 1) 1, seconds := num bytes (first + 2) 1,
    frames := num bytes (first + 3) 1 }

/-- The flag in a one-byte query payload, with which the query's counts are cleared (R194). -/
def clearFlag (bytes : List Byte) : Option Bool := flagAt bytes 0

/-- A set of notice sources or a set of routes: bit `i` of a number (R194). -/
def inSet (set i : Nat) : Bool := set.testBit i

/-- A field that may be absent, made from an optional value (R194). -/
def optional {α : Type} (width : Nat) (bytes : α → List Byte) (x : Option α) : List Byte :=
  presence width (x.map bytes)

end Sys2Proof.Machine
end

