-- ==== Sys2Proof/Machine/CardFormat.lean ====
section
/-! DEFINITION. The card structures as bytes (R134, R135, R136, R197) and the checks on reading them (R198): the catalogue
header and sectors, the extent index block, the unit with its segments and FRAME_DATA. -/

namespace Sys2Proof.Machine

/-! ## Places on the card -/

/-- The sectors of an extent (R134). -/
def extentSectors : Nat := 8192

/-- The bytes of a chunk (R134). -/
def chunkBytes : Nat := 262144

/-- The bytes of an essence area (R134). -/
def essenceBytes : Nat := 3932160

/-- The catalogue sector of a clip number's entry (R134). -/
def entrySector (clip : Nat) : Nat := 1 + (clip - 1) / 4

/-- The first sector of a chunk (R134). -/
def chunkSector (extent chunk : Nat) : Nat := extentSectors * extent + 512 * chunk

/-! ## Catalogue -/

/-- The state code of a used entry (R197). -/
def EntryState.code : EntryState → Nat
  | .opened => 1
  | .closed => 2
  | .recovered => 3

/-- The state of a code (R198). -/
def entryStateOfCode : Nat → Option EntryState
  | 1 => some .opened
  | 2 => some .closed
  | 3 => some .recovered
  | _ => none

/-- Bytes with their CRC behind them (R197). -/
def withCrc (bytes : List Byte) : List Byte := bytes ++ crcBytes bytes

/-- The header sector (R197). -/
def CardHeader.bytes (h : CardHeader) : List Byte :=
  withCrc ([0x56, 0x43, 0x41, 0x54] ++ u16 1 ++ h.label ++ u16 h.extents ++ u32 h.formatNumber ++ List.replicate 482 0)

/-- The continues-from field (R197). -/
def continuesBytes : Option CopyRef → List Byte
  | some r => r.label ++ u16 r.clip
  | none => List.replicate 18 0

/-- A used catalogue entry (R197). -/
def CatEntry.bytes (e : CatEntry) : List Byte :=
  withCrc (u16 e.clip ++ u8 e.state.code ++ u8 (packFlags [e.continuation, e.retained, e.mirrored]) ++ u16 e.start ++
    u16 e.extents ++ u32 e.frames ++ e.label.bytes ++ flagByte e.labelValid ++ u8 e.rateCode ++ flagByte e.dropFrame ++
    [0] ++ continuesBytes e.continues ++ List.replicate 84 0)

/-- The entry of a clip number in a summary; none is FREE. -/
def Summary.entry (s : Summary) (clip : Nat) : Option CatEntry := s.entries.find? (fun e => e.clip == clip)

/-- One catalogue place as bytes (R197). -/
def Summary.placeBytes (s : Summary) (clip : Nat) : List Byte :=
  match s.entry clip with
  | some e => e.bytes
  | none => List.replicate 128 0

/-- A catalogue sector's image as the summary holds it (R134, R141). -/
def Summary.sectorBytes (s : Summary) (sector : Nat) : List Byte :=
  if sector = 0 then s.header.bytes
  else ((List.range 4).map (fun i => s.placeBytes (4 * (sector - 1) + i + 1))).flatten

/-- A card character (R194). -/
def isCardChar (b : Byte) : Bool := decide (0x20 ≤ b.toNat) && decide (b.toNat ≤ 0x7E)

/-- The header checks (R198). -/
def parseHeader (bytes : List Byte) : Option CardHeader :=
  let h : CardHeader :=
    { label := field bytes 6 16, extents := num bytes 22 2, formatNumber := num bytes 24 4 }
  if bytes.length == 512 && field bytes 0 4 == [0x56, 0x43, 0x41, 0x54] && num bytes 4 2 == 1 && decide (2 ≤ h.extents) &&
      h.label.all isCardChar && allZero (field bytes 28 482) && field bytes 510 2 == crcBytes (bytes.take 510) then some h
  else none

/-- A continues-from field as read. -/
def parseContinues (bytes : List Byte) : Option CopyRef :=
  if allZero bytes then none else some { label := bytes.take 16, clip := num bytes 16 2 }

/-- The check of one catalogue place (R198): none for a failed place, some none for FREE. -/
def parsePlace (clip extents : Nat) (bytes : List Byte) : Option (Option CatEntry) :=
  if allZero bytes then some none
  else match entryStateOfCode (num bytes 2 1) with
  | none => none
  | some state =>
    let flags := bytes[3]?.getD 0
    let start := num bytes 4 2
    if num bytes 0 2 == clip && decide (1 ≤ start) && decide (start < extents) && allZero (field bytes 23 1) &&
        allZero (field bytes 42 84) && field bytes 126 2 == crcBytes (bytes.take 126) then
      some (some
        { clip := clip, state := state, continuation := flags.getLsbD 0, retained := flags.getLsbD 1,
          mirrored := flags.getLsbD 2, start := start, extents := num bytes 6 2, frames := num bytes 8 4,
          label := { time := timecodeAt bytes 12, userBits := BitVec.ofNat 32 (num bytes 16 4) },
          labelValid := num bytes 20 1 != 0, rateCode := num bytes 21 1,
          dropFrame := num bytes 22 1 != 0, continues := parseContinues (field bytes 24 18) })
    else none

/-- The used entries of a catalogue sector, or none when the sector fails its checks (R198); the fourth place of sector 250
is all zero. -/
def parseSector (sector extents : Nat) (bytes : List Byte) : Option (List CatEntry) :=
  if bytes.length != 512 then none
  else (List.range 4).foldr (fun i acc =>
    let clip := 4 * (sector - 1) + i + 1
    let place := field bytes (128 * i) 128
    match (if clip = 1000 then (if allZero place then some none else none) else parsePlace clip extents place), acc with
    | some (some e), some es => some (e :: es)
    | some none, some es => some es
    | _, _ => none) (some [])

/-- The next free extent of a catalogue (R135). -/
def nextFreeOf (entries : List CatEntry) : Nat :=
  entries.foldl (fun n e => max n (e.start + e.extents)) 1

/-! ## Extent index blocks -/

/-- An index entry (R197). -/
def IndexEntry.bytes (e : IndexEntry) : List Byte :=
  u32 e.offset ++ serialBytes e.serial ++ u32 e.size ++ u8 (packFlags [e.key, e.gap]) ++ [0, 0, 0]

/-- An index block (R197). The CRC is over the whole block with its own two bytes taken as zero. -/
def IndexBlock.bytes (b : IndexBlock) : List Byte :=
  let front := [0x49, 0x58] ++ u16 b.entries.length ++ u32 b.formatNumber ++ u16 b.clip ++ u16 b.start ++
    u16 (b.extent - b.start)
  let listed := (b.entries.map IndexEntry.bytes).flatten
  let back := listed ++ List.replicate (4080 - listed.length) 0
  front ++ crcBytes (front ++ [0, 0] ++ back) ++ back

/-- An index block as read: its count, its names, and where its last listed unit ends. -/
structure ReadIndex where
  count : Nat
  formatNumber : Nat
  clip : Nat
  start : Nat
  ordinal : Nat
  tailEnd : Nat
deriving DecidableEq, Repr

/-- Offsets rise strictly and stay below the essence area's end (R198). -/
def offsetsRise : List Nat → Bool
  | [] => true
  | [x] => decide (x < essenceBytes)
  | x :: y :: rest => decide (x < y) && decide (x < essenceBytes) && offsetsRise (y :: rest)

/-- The index block checks (R198). -/
def parseIndex (bytes : List Byte) : Option ReadIndex :=
  let count := num bytes 2 2
  let offsets := (List.range count).map (fun i => num bytes (16 + 16 * i) 4)
  if bytes.length == 4096 && field bytes 0 2 == [0x49, 0x58] && decide (1 ≤ count) && decide (count ≤ 255) &&
      offsetsRise offsets && allZero (bytes.drop (16 + 16 * count)) &&
      field bytes 14 2 == crcBytes (bytes.take 14 ++ [0, 0] ++ bytes.drop 16) then
    some { count := count, formatNumber := num bytes 4 4, clip := num bytes 8 2, start := num bytes 10 2,
           ordinal := num bytes 12 2,
           tailEnd := num bytes (16 * count) 4 + num bytes (16 * count + 8) 4 }
  else none

/-! ## Units -/

/-- The flags byte that packs a lens record (R197). -/
def LensRecord.flags (r : LensRecord) : Nat :=
  packFlags [r.report.extender, r.report.override.zoom, r.report.override.focus, r.report.override.iris, r.stale]

/-- The code of a stabiliser state (R197). -/
def StabState.code : StabState → Nat
  | .off => 0
  | .settling => 1
  | .active => 2
  | .panning => 3
  | .returning => 4

/-- The window fields of FRAME_DATA (R197, R91): zero with the window-absent flag when the window is absent. -/
def windowBytes : Option WindowRecord → List Byte
  | some w => signedBytes 4 w.cx ++ signedBytes 4 w.cy ++ u8 w.state.code ++
      u8 (packFlags [w.trusted, w.gyroFault, w.clampedX, w.clampedY, w.noMeasure, false])
  | none => List.replicate 9 0 ++ u8 32

/-- The meters of a pair in FRAME_DATA: 97 where it is not present (R97). -/
def Sound.meterBytes : Sound → List Byte
  | .present d => u8 d.meterFirst ++ u8 d.meterSecond
  | .awaited => u8 97 ++ u8 97
  | .absent _ => u8 97 ++ u8 97

/-- The sound code of FRAME_DATA (R197). -/
def Sound.code : Sound → Nat
  | .present _ => 0
  | .absent .off => 1
  | .absent .warming => 2
  | .awaited => 1

/-- The padded and dropped counts of FRAME_DATA (R197), zero for a pair that is not present (DESIGN CHOICE, log entry 51). A dropped count above 65,535 is written as 65,535, as R195 has it for
AUDIO_SLIP (DESIGN CHOICE, log entry 37). -/
def Sound.countBytes : Sound → List Byte
  | .present d => u16 d.padded ++ u16 (min 65535 d.dropped)
  | .awaited => u16 0 ++ u16 0
  | .absent _ => u16 0 ++ u16 0

/-- The code of a timecode mode (R194, R197). -/
def TcMode.code : TcMode → Nat
  | .freeRun => 0
  | .recRun => 1

/-- The label bytes, zero for "label unknown": in FRAME_DATA by R197, in the unit header by the same rule (DESIGN CHOICE, log
entry 51). -/
def labelBytes : Option Label → List Byte
  | some l => l.bytes
  | none => List.replicate 8 0

/-- The FRAME_DATA payload (R197). -/
def RecUnit.frameData (u : RecUnit) : List Byte :=
  serialBytes u.serial ++ labelBytes u.label ++
    u8 (packFlags [u.labelValid, u.substituted, u.recording, u.burst]) ++
    u8 u.settings.rate.code ++ flagByte u.settings.dropFrame ++ u8 u.settings.mode.code ++
    u16 u.lens.report.zoom ++ u16 u.lens.report.focus ++ u8 u.lens.report.iris ++ u8 u.lens.flags ++ u16 u.lens.focal ++
    windowBytes u.window ++ u.sound.a.meterBytes ++ u.sound.b.meterBytes ++ u8 u.sound.a.code ++ u8 u.sound.b.code ++
    u.sound.a.countBytes ++ u.sound.b.countBytes ++ List.replicate 80 0

/-- A segment's payload length (R97). -/
def Sound.payload : Sound → Option Nat
  | .present d => some (6 * d.count)
  | .awaited => none
  | .absent _ => none

/-- The payload lengths of a unit's segments, in segment order (R97). -/
def RecUnit.payloads (u : RecUnit) : List Nat :=
  [some u.picture.length, u.sound.a.payload, u.sound.b.payload, some 128, u.attachment.map List.length,
   u.mark.map (fun _ => 16)].filterMap id

/-- The card byte size (R97). -/
def RecUnit.cardSize (u : RecUnit) : Nat :=
  32 + (u.payloads.map (fun n => 16 + roundUp 16 n)).sum

/-- One segment: its header and its payload padded to a multiple of 16 (R197). A dropped count above 65,535 is written as 65,535,
as R195 has it for AUDIO_SLIP (DESIGN CHOICE, log entry 37). -/
def segmentBytes (type : Nat) (count padded dropped : Nat) (payload : List Byte) : List Byte :=
  u8 type ++ [0] ++ u32 payload.length ++ u16 count ++ u16 padded ++ u16 (min 65535 dropped) ++ List.replicate 4 0 ++
    padTo 16 payload

/-- A sound segment, if the pair is present. -/
def Sound.segment (m : Memory) (type : Nat) : Sound → List Byte
  | .present d => segmentBytes type d.count d.padded d.dropped (m.fetch [d.page] 0 (6 * d.count))
  | .awaited => []
  | .absent _ => []

/-- The flags byte of a unit header (R197). -/
def RecUnit.flags (u : RecUnit) : Nat :=
  packFlags [u.picture.key, u.labelValid, u.gap, u.audioAbsent, u.substituted, u.burst]

/-- A unit as it is written to a card (R197), under its clip number on that card. Its header's label and user bits are zero for
"label unknown" (DESIGN CHOICE, log entry 51). -/
def RecUnit.bytes (u : RecUnit) (m : Memory) (clip : Nat) : List Byte :=
  [0x56, 0x55, 0x4E, 0x54] ++ u32 u.cardSize ++ serialBytes u.serial ++ labelBytes u.label ++ u8 u.flags ++
    u8 u.payloads.length ++ u16 clip ++ u8 u.settings.rate.code ++ List.replicate 7 0 ++
    segmentBytes 1 0 0 0 (m.fetch u.picture.pages 0 u.picture.length) ++
    u.sound.a.segment m 2 ++ u.sound.b.segment m 3 ++ segmentBytes 4 0 0 0 u.frameData ++
    (match u.attachment with
     | some data => segmentBytes 5 0 0 0 data
     | none => []) ++
    (match u.mark with
     | some code => segmentBytes 6 0 0 0 (code :: List.replicate 15 0)
     | none => [])

end Sys2Proof.Machine
end

