-- ==== Sys2Proof/Machine/Writer.lean ====
section
/-! DEFINITION. The card writer's shared operations: capacity (R126, R149, R150), the write queue and its ordering (R141,
R142), the forming of chunks, index blocks and catalogue images (R146 to R148), opening a copy (R145), mount and recovery
(R139, R140), and the failure of a slot (R144). -/

namespace Sys2Proof.Machine

/-! ## Capacity -/

/-- The free extents of a summary (R135). -/
def Summary.freeExtents (s : Summary) : Nat := s.header.extents - s.nextFree

/-- A summary leaves no room for a new copy: no free extent, or 999 used entries (R137). -/
def Summary.isFull (s : Summary) : Bool := s.freeExtents == 0 || decide (999 ≤ s.entries.length)

/-- The remaining time in minutes, or none while it is unknown (R150). -/
def CardSlot.remainingTime (c : CardSlot) (nominal : Nat) : Option Nat :=
  match c.summary with
  | none => none
  | some sum =>
    if !(c.state == .ready || c.state == .full) || c.sizes.isEmpty then none
    else some (min 999 (sum.freeExtents * essenceBytes / (c.sizes.sum / c.sizes.length * nominal * 60)))

/-- The remaining time as two bytes (R194). -/
def CardSlot.remainingBytes (c : CardSlot) (nominal : Nat) : List Byte :=
  u16 ((c.remainingTime nominal).getD 65535)

/-- CARD_FULL is made pending for a slot that has become FULL (R149, R195). -/
def State.reportFull (s : State) (side : Side) : State :=
  match (s.slot side).summary with
  | none => s
  | some sum =>
    s.report .cardFull (u8 (packFlags [side == .b, sum.freeExtents != 0]) ++ sum.header.label.take 15)

/-- A READY slot whose capacity is used up becomes FULL (R149). -/
def State.judgeFull (s : State) (side : Side) : State :=
  match (s.slot side).summary with
  | none => s
  | some sum =>
    if (s.slot side).state == .ready && sum.isFull then
      (s.modifySlot side (fun c => { c with state := .full })).reportFull side
    else s

/-- The near-full flag is judged (R149). -/
def State.judgeNearFull (s : State) (side : Side) : State :=
  let c := s.slot side
  match c.summary with
  | none => s
  | some sum =>
    if c.threshold < sum.freeExtents then s.modifySlot side (fun c => { c with nearFull := false })
    else if c.nearFull then s
    else
      (s.modifySlot side (fun c => { c with nearFull := true })).report .cardNearFull
        (u8 side.code ++ u16 sum.freeExtents ++ c.remainingBytes s.ftb.rate.nominal)

/-! ## The write queue -/

/-- A place of the write queue is free (R141). -/
def CardSlot.hasPlace (c : CardSlot) : Bool := decide (c.queue.length < 8)

/-- The priority of a command (R141). -/
def CardCmdKind.priority : CardCmdKind → Nat
  | .essence _ _ => 0
  | .index _ => 1
  | .catalogue _ => 2

/-- A command joins the write queue. -/
def CardSlot.push (c : CardSlot) (kind : CardCmdKind) (first sectors : Nat) (depends : List Nat) (data : List Byte) :
    CardSlot :=
  { c with
    queue := c.queue ++ [{ id := c.nextId, kind := kind, first := first, sectors := sectors, depends := depends, data := data }]
    nextId := c.nextId + 1 }

/-- A command with a number is in the queue. -/
def CardSlot.queued (c : CardSlot) (id : Nat) : Bool := c.queue.any (fun x => x.id == id)

/-- The command in flight. -/
def CardSlot.flying (c : CardSlot) : Option CardCmd :=
  match c.inFlight with
  | some id => c.queue.find? (fun x => x.id == id)
  | none => none

/-- Two commands write some sector in common (R142). -/
def CardCmd.overlaps (x y : CardCmd) : Bool :=
  decide (x.first < y.first + y.sectors) && decide (y.first < x.first + x.sectors)

/-- The commands that may be issued: their dependencies have completed and nothing older overlaps them (R142). -/
def CardSlot.issuable (c : CardSlot) : List CardCmd → List CardCmd → List CardCmd
  | _, [] => []
  | olderCmds, x :: rest =>
    let free := x.depends.all (fun d => !c.queued d) && olderCmds.all (fun y => !y.overlaps x)
    if free then x :: CardSlot.issuable c (olderCmds ++ [x]) rest else CardSlot.issuable c (olderCmds ++ [x]) rest

/-- The oldest command of the highest priority among some. -/
def bestCmd : List CardCmd → Option CardCmd
  | [] => none
  | x :: rest =>
    match bestCmd rest with
    | none => some x
    | some y => if x.kind.priority < y.kind.priority then some y else some x

/-- The writer issues a command when nothing is in flight (R142). -/
def CardSlot.issue (c : CardSlot) : CardSlot :=
  if c.inFlight.isSome then c
  else match bestCmd (c.issuable [] c.queue) with
  | some x => { c with inFlight := some x.id }
  | none => c

/-- The clip number whose entry a CATALOGUE command writes. -/
def CatPurpose.clip : CatPurpose → Option Nat
  | .opening clip => some clip
  | .progress clip => some clip
  | .closing clip => some clip
  | .rebuilt clip => some clip
  | .blankHeader => none
  | .freeSector _ => none
  | .newHeader => none

/-- The sector of a CATALOGUE command (R134, R151). -/
def CatPurpose.sector : CatPurpose → Nat
  | .opening clip => entrySector clip
  | .progress clip => entrySector clip
  | .closing clip => entrySector clip
  | .rebuilt clip => entrySector clip
  | .blankHeader => 0
  | .freeSector sector => sector
  | .newHeader => 0

/-- The image of a CATALOGUE command at the moment it is queued (R141, R151). A blank header is 512 zero bytes (log entry
10). -/
def CardSlot.image (c : CardSlot) (p : CatPurpose) : List Byte :=
  match p with
  | .blankHeader => List.replicate 512 0
  | .freeSector _ => List.replicate 512 0
  | .newHeader =>
    match c.lastHeader with
    | some h => h.bytes
    | none => List.replicate 512 0
  | _ =>
    match c.summary with
    | some sum => sum.sectorBytes p.sector
    | none => List.replicate 512 0

/-- The dependency of a CATALOGUE command: it waits for the INDEX command of the copy's last listed extent when it writes the
copy's entry CLOSED (R141). -/
def CardSlot.catDepends (c : CardSlot) (p : CatPurpose) : List Nat :=
  match c.copy with
  | none => []
  | some copy =>
    if copy.stage == .entryClosed && entrySector copy.clip == p.sector && p.clip.isSome then
      match copy.lastIndex with
      | some id => if c.queued id then [id] else []
      | none => []
    else []

/-- The units whose bytes are not all queued (R141). -/
def WriterCopy.unqueued (copy : WriterCopy) : List Serial :=
  (match copy.current with
   | some cur => cur.chunk.units
   | none => []) ++
  (match copy.ready with
   | some chunk => chunk.units
   | none => []) ++
  (match copy.rest with
   | some r => [r.serial]
   | none => [])

/-- An INDEX command is owed once every chunk that holds bytes of its units has been queued (R141, R147). -/
def WriterCopy.indexOwed (copy : WriterCopy) : Option IndexBlock :=
  match copy.owedIndex with
  | [] => none
  | block :: _ => if block.entries.any (fun e => copy.unqueued.contains e.serial) then none else some block

/-- The dependencies of an INDEX command: the ESSENCE commands not yet completed that hold bytes of its units (R141). -/
def CardSlot.indexDepends (c : CardSlot) (block : IndexBlock) : List Nat :=
  (c.queue.filter (fun x =>
    match x.kind with
    | .essence units _ => block.entries.any (fun e => units.contains e.serial)
    | .index _ => false
    | .catalogue _ => false)).map CardCmd.id

/-- One free place of the queue is filled with the first of what the writer owes: a CATALOGUE command, an INDEX command, a
ready chunk (R141). None when nothing is owed or no place is free. -/
def CardSlot.fillPlace (c : CardSlot) : Option CardSlot :=
  if !c.hasPlace then none
  else match c.owed with
  | p :: rest => some ({ c with owed := rest }.push (.catalogue p) p.sector 1 (c.catDepends p) (c.image p))
  | [] =>
    match c.copy with
    | none => none
    | some copy =>
      match copy.indexOwed with
      | some block =>
        some ({ c with copy := some { copy with owedIndex := copy.owedIndex.drop 1, lastIndex := some c.nextId } }.push
          (.index block) (extentSectors * block.extent) 8 (c.indexDepends block) block.bytes)
      | none =>
        match copy.ready with
        | some chunk =>
          let data := padTo 512 chunk.bytes
          some ({ c with copy := some { copy with ready := none } }.push
            (.essence chunk.units chunk.ends) (chunkSector chunk.extent chunk.chunk) (data.length / 512) [] data)
        | none => none

/-! ## Forming chunks and extents -/

/-- Changes the summary entry of a clip number. -/
def Summary.modifyEntry (s : Summary) (clip : Nat) (f : CatEntry → CatEntry) : Summary :=
  { s with entries := s.entries.map (fun e => if e.clip == clip then f e else e) }

/-- Changes the summary, if one is held. -/
def CardSlot.modifySummary (c : CardSlot) (f : Summary → Summary) : CardSlot :=
  { c with summary := c.summary.map f }

/-- An empty chunk. -/
def Chunk.empty (extent chunk : Nat) : Chunk :=
  { extent := extent, chunk := chunk, bytes := [], units := [], ends := [] }

/-- The next free extent becomes the copy's current extent (R146), with the judgements of R149. -/
def State.openExtent (s : State) (side : Side) : State :=
  let c := s.slot side
  match c.summary, c.copy with
  | some sum, some copy =>
    let c := { c with
      summary := some { sum with nextFree := sum.nextFree + 1 }
      copy := some { copy with
        consumed := copy.consumed + 1
        current := some { chunk := .empty sum.nextFree 1, listed := [] } } }
    ((s.setSlot side c).judgeFull side).judgeNearFull side
  | _, _ => s

/-- The index block of the current extent, if it lists a unit (R147, R148). -/
def CardSlot.closingBlock (c : CardSlot) (copy : WriterCopy) (cur : CurrentExtent) : List IndexBlock :=
  if cur.listed.isEmpty then []
  else [{ extent := cur.chunk.extent, formatNumber := (c.summary.map (fun s => s.header.formatNumber)).getD 0,
          clip := copy.clip, start := copy.start, entries := cur.listed }]

/-- The current extent is closed: a chunk with bytes in it goes ready as it stands, and the INDEX command will be owed (R146,
R147). From then on there is no current extent, until the next one becomes current (DESIGN CHOICE for what CARD_QUERY shows, log
entry 42). -/
def CardSlot.closeExtent (c : CardSlot) : CardSlot :=
  match c.copy with
  | none => c
  | some copy =>
    match copy.current with
    | none => c
    | some cur =>
      { c with copy := some { copy with
          current := none
          ready := if cur.chunk.bytes.isEmpty then copy.ready else some cur.chunk
          owedIndex := copy.owedIndex ++ c.closingBlock copy cur } }

/-- Bytes of the taken unit go into the current chunk up to its end (R146). A full chunk is ready, and the next
chunk of the extent is current with fill 0, chunk 16 of an area exactly full (DESIGN CHOICE for what CARD_QUERY shows, log entry
42). -/
def WriterCopy.append (copy : WriterCopy) (cur : CurrentExtent) (r : Rest) : WriterCopy :=
  let n := min (chunkBytes - cur.chunk.bytes.length) r.bytes.length
  let done := n == r.bytes.length
  let chunk : Chunk :=
    { cur.chunk with
      bytes := cur.chunk.bytes ++ r.bytes.take n
      units := if cur.chunk.units.contains r.serial then cur.chunk.units else cur.chunk.units ++ [r.serial]
      ends := if done then cur.chunk.ends ++ [(r.serial, r.size)] else cur.chunk.ends }
  let isFull := decide (chunkBytes ≤ chunk.bytes.length)
  { copy with
    rest := if done then none else some { r with bytes := r.bytes.drop n }
    ready := if isFull then some chunk else copy.ready
    current := some { cur with chunk := if isFull then .empty chunk.extent (chunk.chunk + 1) else chunk } }

/-- The essence area of an extent is exactly full (R146). -/
def CurrentExtent.areaFull (cur : CurrentExtent) : Bool := decide (16 ≤ cur.chunk.chunk)

/-- The copy has taken the last unit that the Recorder named (R148). -/
def WriterCopy.lastReached (copy : WriterCopy) : Bool :=
  match copy.last with
  | .unnamed => false
  | .nothing => true
  | .unit serial => copy.lastTaken == some serial

/-- The summary entry of the copy becomes CLOSED, and the closing command is owed (R148 step 3). -/
def CardSlot.closeEntry (c : CardSlot) (copy : WriterCopy) : CardSlot :=
  let c := c.modifySummary (fun s => s.modifyEntry copy.clip (fun e =>
    { e with state := .closed, extents := copy.consumed, frames := copy.placed }))
  { c with
    copy := some { copy with stage := .entryClosed }
    owed := c.owed ++ [.closing copy.clip] }

/-- One piece of the writer's own work on its copy, if there is one: it appends bytes of the taken unit (R146), or takes the
next step of closing the copy (R148). -/
def State.writerWork (s : State) (side : Side) : Option State :=
  let c := s.slot side
  match c.copy with
  | none => none
  | some copy =>
    if copy.ready.isSome then none
    else match copy.rest, copy.current with
    | some r, some cur =>
      if cur.areaFull then some ((s.setSlot side c.closeExtent).openExtent side)
      else some (s.setSlot side { c with copy := some (copy.append cur r) })
    | some _, none => some (s.openExtent side)
    | none, _ =>
      match copy.stage with
      | .writing =>
        if copy.lastReached then
          let c := c.closeExtent
          some (s.setSlot side { c with copy := c.copy.map (fun x => { x with stage := .flushing }) })
        else none
      | .flushing => if copy.owedIndex.isEmpty then some (s.setSlot side (c.closeEntry copy)) else none
      | .entryClosed => none

/-- The writer works and fills free queue places until neither can go on; `fuel` bounds the pieces of work. -/
def State.writerLoop : Nat → Side → State → State
  | 0, _, s => s
  | fuel + 1, side, s =>
    match s.writerWork side with
    | some s' => State.writerLoop fuel side s'
    | none =>
      match (s.slot side).fillPlace with
      | some c => State.writerLoop fuel side (s.setSlot side c)
      | none => s

/-- The writer goes on as far as it can, and issues a command when nothing is in flight (R141, R142, R146 to R148). A unit
spans at most nine chunks and two extents and the queue has eight places, so 64 pieces of work always suffice. -/
def State.runWriter (s : State) (side : Side) : State :=
  (State.writerLoop 64 side s).modifySlot side CardSlot.issue

/-! ## Opening a copy -/

/-- The lowest-numbered FREE entry (R135). -/
def Summary.lowestFree (s : Summary) : Nat :=
  (((List.range 999).map (· + 1)).find? (fun clip => (s.entry clip).isNone)).getD 1000

/-- Puts an entry in its place among the used entries. -/
def insertEntry (e : CatEntry) : List CatEntry → List CatEntry
  | [] => [e]
  | x :: rest => if e.clip < x.clip then e :: x :: rest else x :: insertEntry e rest

/-- The flags the Recorder gives a copy (R145). -/
structure CopyFlags where
  continuation : Bool
  retained : Bool
  mirrored : Bool
deriving DecidableEq, Repr

/-- The writer opens a copy (R145): it reserves an entry and the next free extent, owes the OPEN write, and gives the Recorder
its copy. The first label of the new entry, marked invalid, has zero bytes (DESIGN CHOICE, log entry 46). Without a summary there
is nothing to reserve. -/
def State.openCopy (s : State) (side : Side) (flags : CopyFlags) (continues : Option CopyRef) : State × Option Copy :=
  let c := s.slot side
  match c.summary with
  | none => (s, none)
  | some sum =>
    let clip := sum.lowestFree
    let entry : CatEntry :=
      { clip := clip, state := .opened, continuation := flags.continuation, retained := flags.retained,
        mirrored := flags.mirrored, start := sum.nextFree, extents := 0, frames := 0,
        label := { time := .zero, userBits := 0 }, labelValid := false, rateCode := s.ftb.rate.code,
        dropFrame := s.ftb.dropFrame, continues := continues }
    let copy : WriterCopy :=
      { clip := clip, start := sum.nextFree, consumed := 0, current := none, ready := none, rest := none, placed := 0,
        written := 0, lastTaken := none, last := .unnamed, stage := .writing, owedIndex := [], lastIndex := none,
        doneUnits := 0, doneBlocks := 0, doneEnd := 0 }
    let c := { c with
      summary := some { sum with entries := insertEntry entry sum.entries }
      copy := some copy
      owed := c.owed ++ [.opening clip] }
    let s := ((s.setSlot side c).judgeFull side).runWriter side
    (s, some { clip := clip, label := sum.header.label, firstSerial := none, placed := 0, written := 0,
               continues := continues, state := .writing })

/-- The Recorder names the copy's last unit (R148), and the writer goes on. -/
def State.nameLast (s : State) (side : Side) (last : LastUnit) : State :=
  (s.modifySlot side (fun c => { c with copy := c.copy.map (fun x => { x with last := last }) })).runWriter side

/-- The last unit that a copy has taken. -/
def CardSlot.lastTaken (c : CardSlot) : Option Serial :=
  match c.copy with
  | some copy => copy.lastTaken
  | none => none

/-! ## Taking a unit -/

/-- The remaining essence capacity (R126). -/
def CardSlot.capacity (c : CardSlot) : Nat :=
  match c.summary with
  | none => 0
  | some sum =>
    let left := match c.copy.bind WriterCopy.current with
      | some cur => if 255 ≤ cur.listed.length then 0 else (16 - cur.chunk.chunk) * chunkBytes - cur.chunk.bytes.length
      | none => 0
    left + sum.freeExtents * essenceBytes

/-- The next unit of the copy: the oldest queued unit that this slot owes and has not taken (R146). -/
def State.nextUnit (s : State) (side : Side) : Option RecUnit :=
  s.bfm.queue.find? (fun u => u.progress.get side == .owed &&
    (match (s.slot side).lastTaken with
     | some t => newer u.serial t
     | none => true))

/-- A writer that may take a unit: it holds a copy whose unit in hand is wholly appended and that waits for no place (R146). -/
def CardSlot.takes (c : CardSlot) : Bool :=
  match c.copy with
  | some copy => copy.stage == .writing && copy.rest.isNone && copy.ready.isNone
  | none => false

/-- An extent becomes current for the next unit: at the copy's first unit, and when the current extent lists 255 units or its
essence area is exactly full (R146 steps 1 and 2). -/
def State.readyExtent (s : State) (side : Side) : State :=
  match (s.slot side).copy.bind WriterCopy.current with
  | none => s.openExtent side
  | some cur =>
    if 255 ≤ cur.listed.length || cur.areaFull then (s.modifySlot side CardSlot.closeExtent).openExtent side else s

/-- The first label of an entry is filled from a unit while it is invalid (R146 step 3). A unit whose lookup returned "label unknown"
leaves the entry's label bytes as they were (DESIGN CHOICE, log entry 46). -/
def CatEntry.takeLabel (e : CatEntry) (u : RecUnit) : CatEntry :=
  if e.labelValid then e
  else match u.label with
  | some l => { e with label := l, labelValid := u.labelValid }
  | none => e

/-- The unit is listed in the current extent and its bytes are in hand (R146 steps 4 and 5). The count of units placed saturates at
4,294,967,295 (DESIGN CHOICE, log entry 37). -/
def WriterCopy.take (copy : WriterCopy) (u : RecUnit) (bytes : List Byte) : WriterCopy :=
  { copy with
    current := copy.current.map (fun cur =>
      { cur with listed := cur.listed ++
          [{ offset := (cur.chunk.chunk - 1) * chunkBytes + cur.chunk.bytes.length, serial := u.serial, size := u.cardSize,
             key := u.picture.key, gap := u.gap }] })
    rest := some { serial := u.serial, size := u.cardSize, bytes := bytes }
    placed := bump32 copy.placed
    lastTaken := some u.serial }

/-- The writer takes a unit that its card can hold (R146). -/
def State.takeUnit (s : State) (side : Side) (u : RecUnit) : State :=
  let s := s.readyExtent side
  let s := s.modifySlot side (fun c =>
    match c.copy with
    | none => c
    | some copy =>
      { c.modifySummary (fun sum => sum.modifyEntry copy.clip (fun e => e.takeLabel u)) with
        copy := some (copy.take u (u.bytes s.mem copy.clip)) })
  s.runWriter side

/-! ## Mount and recovery -/

/-- The code of a slot state (R137, R194). -/
def SlotState.code : SlotState → Nat
  | .off => 0
  | .absent => 1
  | .mounting => 2
  | .recovering => 3
  | .unformatted => 4
  | .writeProtected => 5
  | .ready => 6
  | .full => 7
  | .formatting => 8
  | .ejected => 9
  | .fault => 10

/-- CARD_DONE (R195). -/
def State.reportDone (s : State) (side : Side) (operation recovered : Nat) : State :=
  s.report .cardDone (u8 side.code ++ u8 operation ++ u8 (s.slot side).state.code ++ u16 recovered)

/-- A mount begins (R139). Its reads begin at once; a leftover progress command that is queued or in flight stays there and goes on
being issued (DEDUCED, log entry 43). -/
def CardSlot.beginMount (c : CardSlot) : CardSlot :=
  { c with state := .mounting, deferred := false, summary := none, mounted := [], reading := some .size, recovery := none,
           rebuilt := 0, nearFull := false }

/-- READY or FULL, as the summary has room (R137). -/
def roomState (sum : Summary) : SlotState := if sum.isFull then .full else .ready

/-- The end of a mount or recovery in a state: CARD_DONE, CARD_FULL for FULL, and the near-full flag (R139, R140, R149). -/
def State.mountEnds (s : State) (side : Side) (state : SlotState) (recovered : Nat) : State :=
  let s := s.modifySlot side (fun c => { c with state := state, reading := none, recovery := none, mounted := [] })
  let s := s.reportDone side 0 recovered
  let s := if state == .full then s.reportFull side else s
  s.judgeNearFull side

/-- The OPEN entry that recovery rebuilds next: the lowest clip number (R140). -/
def Summary.nextOpen (s : Summary) : Option CatEntry := s.entries.find? (fun e => e.state == .opened)

/-- Recovery turns to the next OPEN entry, or ends (R140). -/
def State.recoverNext (s : State) (side : Side) : State :=
  let c := s.slot side
  match c.summary with
  | none => s
  | some sum =>
    match sum.nextOpen with
    | some e =>
      s.setSlot side { c with
        recovery := some { clip := e.clip, frames := 0, blocks := 0, tailEnd := 0 }
        reading := some (.index e.start) }
    | none =>
      let sum := { sum with nextFree := nextFreeOf sum.entries }
      (s.setSlot side { c with summary := some sum }).mountEnds side (roomState sum) c.rebuilt

/-- The card's entries have all been read (R139). -/
def State.mountRead (s : State) (side : Side) (header : CardHeader) (entries : List CatEntry) : State :=
  let sum : Summary := { header := header, entries := entries, nextFree := nextFreeOf entries }
  let s := s.modifySlot side (fun c => { c with summary := some sum, reading := none, mounted := [] })
  if sum.nextOpen.isSome && !(s.slot side).protectOn then
    (s.modifySlot side (fun c => { c with state := .recovering })).recoverNext side
  else s.mountEnds side (if (s.slot side).protectOn then .writeProtected else roomState sum) 0

/-- The rebuilt entry's counts (R140). -/
def Recovery.extents (r : Recovery) : Nat := r.blocks + (if essenceBytes < r.tailEnd then 1 else 0)

/-- The reading of an OPEN entry's index blocks stops: the entry is RECOVERED in the summary and its write is owed (R140). -/
def State.rebuild (s : State) (side : Side) (r : Recovery) : State :=
  (s.modifySlot side (fun c =>
    { c.modifySummary (fun sum => sum.modifyEntry r.clip (fun e =>
        { e with state := .recovered, extents := r.extents, frames := r.frames })) with
      reading := none
      recovery := none
      owed := c.owed ++ [.rebuilt r.clip] })).runWriter side

/-- An index block belongs to the copy under recovery (R140). -/
def ReadIndex.belongs (b : ReadIndex) (sum : Summary) (e : CatEntry) (extent : Nat) : Bool :=
  b.formatNumber == sum.header.formatNumber && b.clip == e.clip && b.start == e.start && b.ordinal + e.start == extent

/-- An index block has been read in recovery (R140). -/
def State.indexRead (s : State) (side : Side) (extent : Nat) (bytes : List Byte) : State :=
  let c := s.slot side
  match c.summary, c.recovery with
  | some sum, some r =>
    match sum.entry r.clip, parseIndex bytes with
    | some e, some b =>
      if b.belongs sum e extent then
        let r := { r with frames := r.frames + b.count, blocks := r.blocks + 1, tailEnd := b.tailEnd }
        if extent + 1 < sum.header.extents then
          s.setSlot side { c with recovery := some r, reading := some (.index (extent + 1)) }
        else s.rebuild side r
      else s.rebuild side r
    | _, _ => s.rebuild side r
  | _, _ => s

/-- A mount ends UNFORMATTED (R139). -/
def State.mountUnformatted (s : State) (side : Side) : State :=
  (s.modifySlot side (fun c => { c with summary := none })).mountEnds side .unformatted 0

/-- A mount or recovery read has been answered (R139, R140). -/
def State.cardRead (s : State) (side : Side) (read : CardRead) (size : Nat) (bytes : List Byte) : State :=
  match read with
  | .size => s.modifySlot side (fun c => { c with cardSectors := size, reading := some .header })
  | .header =>
    match parseHeader bytes with
    | none => (s.modifySlot side (fun c => { c with lastHeader := none })).mountUnformatted side
    | some h =>
      let s := s.modifySlot side (fun c => { c with lastHeader := some h })
      if (s.slot side).cardSectors / extentSectors < h.extents then s.mountUnformatted side
      else s.modifySlot side (fun c => { c with reading := some (.entries 1) })
  | .entries sector =>
    match (s.slot side).lastHeader with
    | none => s.mountUnformatted side
    | some h =>
      match parseSector sector h.extents bytes with
      | none => s.mountUnformatted side
      | some es =>
        if es.any (fun e => decide (h.extents < e.start + e.extents)) then s.mountUnformatted side
        else
          let all := (s.slot side).mounted ++ es
          if sector < 250 then
            s.modifySlot side (fun c => { c with mounted := all, reading := some (.entries (sector + 1)) })
          else s.mountRead side h all
  | .index extent => s.indexRead side extent bytes

end Sys2Proof.Machine
end

