-- ==== Sys2Proof/Machine/Recorder.lean ====
section
/-! DEFINITION. The Recorder's shared operations: the REC_STATE report (R131), starts (R115 to R118), the clip-head rule (R106),
stops and the end of a clip (R121 to R123, R125), the end of a card (R127 to R129) and the loss of a slot (R130). -/

namespace Sys2Proof.Machine

/-! ## Codes -/

/-- The code of a Recorder state, in the order of R113. -/
def RecState.code : RecState → Nat
  | .standing => 0
  | .recording => 1
  | .closing => 2
  | .retaining => 3

/-- The code of a REC_STATE reason (R195). -/
def RecReason.code : RecReason → Nat
  | .started => 0
  | .retainStarted => 1
  | .stopped => 2
  | .cardFull => 3
  | .retained => 4
  | .aborted => 5
  | .slotDropped => 6
  | .startRefused => 7

/-- The reason with which the end of a clip is reported (R131). -/
def EndReason.report : EndReason → RecReason
  | .stopped => .stopped
  | .cardFull => .cardFull
  | .aborted => .aborted
  | .retained => .retained

/-! ## The clip record -/

/-- Changes the clip record, if there is one. -/
def State.modifyClip (s : State) (f : Clip → Clip) : State :=
  { s with rcd := { s.rcd with clip := s.rcd.clip.map f } }

/-- Changes queued units. -/
def State.modifyUnits (s : State) (which : RecUnit → Bool) (f : RecUnit → RecUnit) : State :=
  { s with bfm := s.bfm.modifyUnits which f }

/-- Changes one copy of a clip, if it is present. -/
def Clip.modifyCopy (clip : Clip) (side : Side) (f : Copy → Copy) : Clip :=
  { clip with copies := clip.copies.set side ((clip.copies.get side).map f) }

/-- The clip number of one copy, 0 where it is absent (R131). -/
def Clip.copyNumber (clip : Clip) (side : Side) : Nat :=
  match clip.copies.get side with
  | some copy => copy.clip
  | none => 0

/-- The state of one copy, if it is present. -/
def Clip.copyState (clip : Clip) (side : Side) : Option CopyState := (clip.copies.get side).map Copy.state

/-- REC_STATE is made pending (R131, R195). A refused start has no clip: the manual states no sequence number and no units
claimed for it (log entry 1). -/
def State.reportRec (s : State) (reason : RecReason) (status : Nat) (slot : Nat) : State :=
  s.notify .recState
    ((u8 s.rcd.state.code ++ u8 reason.code).map some ++
      (match s.rcd.clip with
       | some clip =>
         (u16 clip.sequence ++ u16 (clip.copyNumber .a) ++ u16 (clip.copyNumber .b) ++ u32 clip.claimed).map some
       | none => [none, none] ++ (u16 0 ++ u16 0).map some ++ [none, none, none, none]) ++
      (u8 status ++ u8 slot).map some)

/-! ## Starting -/

/-- The judgement of a start in STANDING against the slot states: none when it is taken (R116). -/
def State.judgeStart (s : State) : Option Status :=
  let judge := fun (st : SlotState) =>
    match st with
    | .ready => none
    | .full => some Status.full
    | _ => some Status.noCard
  match s.rcd.mode with
  | .single => judge (s.slot s.rcd.primary).state
  | .relay => judge (s.slot s.rcd.primary).state
  | .mirror =>
    match judge (s.slot .a).state, judge (s.slot .b).state with
    | none, none => none
    | some .noCard, _ => some .noCard
    | _, some .noCard => some .noCard
    | _, _ => some .full

/-- The next sequence number (R113). -/
def Rcd.nextSequence (r : Rcd) : Nat := if r.sequence < 65535 then r.sequence + 1 else 1

/-- A new clip record (R117 step 1, R124). -/
def Rcd.newClip (r : Rcd) (kind : ClipKind) (start : Option Serial) : Clip :=
  { sequence := r.nextSequence, kind := kind, mode := r.mode, primary := r.primary, start := start, head := none,
    last := none, reason := none, burstHead := none, copies := { a := none, b := none }, switches := 0, claimed := 0,
    written := 0, newestPlaced := none }

/-- The Recorder begins a clip (R117 step 1, R124): the record, the state, the counts. -/
def State.beginClip (s : State) (kind : ClipKind) (state : RecState) (start : Option Serial) : State :=
  { s with rcd := { s.rcd with
      clip := some (s.rcd.newClip kind start), state := state, sequence := s.rcd.nextSequence,
      begun := bump16 s.rcd.begun } }

/-- A slot's writer opens a copy for the clip (R117 step 2, R124, R127 step 2). -/
def State.openFor (s : State) (side : Side) (flags : CopyFlags) (continues : Option CopyRef) : State :=
  let (s, copy) := s.openCopy side flags continues
  s.modifyClip (fun clip => { clip with copies := clip.copies.set side copy })

/-- The copies of a new normal clip (R117 step 2). In MIRROR slot A's is opened first (DESIGN CHOICE, log entry 40). -/
def State.openCopies (s : State) : State :=
  let flags : CopyFlags := { continuation := false, retained := false, mirrored := s.rcd.mode == .mirror }
  match s.rcd.mode with
  | .single => s.openFor s.rcd.primary flags none
  | .relay => s.openFor s.rcd.primary flags none
  | .mirror => (s.openFor .a flags none).openFor .b flags none

/-- A ring unit that is not older than the floor (R106). -/
def RecUnit.fromFloor (u : RecUnit) (floor : Serial) : Bool := u.membership == .ring && !older u.serial floor

/-- Unheld units that a clip start passes over are discarded and counted START (R106). -/
def Bfm.discardStart (b : Bfm) (which : RecUnit → Bool) : Bfm :=
  let gone := fun (u : RecUnit) => which u && u.holds.isEmpty
  let n := (b.queue.filter gone).length
  let b := b.dropUnits gone
  { b with counts := { b.counts with start := bump 65535 b.counts.start n } }

/-- The clip-head rule (R106): the head is the oldest ring unit with the key flag that is not older than the floor. The units
from it onward become CLIP, the unheld ones between floor and head are discarded. -/
def State.chooseHead (s : State) (floor : Serial) : State :=
  match s.rcd.clip with
  | none => s
  | some clip =>
    match s.bfm.queue.find? (fun u => u.fromFloor floor && u.picture.key) with
    | none => { s with bfm := s.bfm.discardStart (fun u => u.fromFloor floor) }
    | some head =>
      let b := s.bfm.discardStart (fun u => u.fromFloor floor && older u.serial head.serial)
      let claim := fun (u : RecUnit) => u.membership == .ring && !older u.serial head.serial
      let n := (b.queue.filter claim).length
      let b := b.modifyUnits claim (fun u =>
        { u with membership := .clip clip.sequence, progress := clip.owedProgress })
      { s with
        bfm := b
        rcd := { s.rcd with clip := some { clip with
          head := some head.serial, claimed := bump 4294967295 clip.claimed n } } }

/-- A start is taken in STANDING (R117). -/
def State.takeStart (s : State) (serial : Serial) : State :=
  let s := (s.beginClip .normal .recording (some serial)).openCopies
  let s := if s.ftb.interval.isNone then s.chooseHead (serial - BitVec.ofNat 32 s.bfm.depth) else s
  ({ s with ftb := s.ftb.clipStarted }).reportRec .started 0 0

/-- The last-start entry is recorded (R115). -/
def State.recordStart (s : State) (source : StartSource) (status : Status) (serial : Serial) : State :=
  { s with rcd := { s.rcd with lastStart := some { source := source, status := status, serial := serial } } }

/-- A start reaches the Recorder (R115, R116, R118). -/
def State.start (s : State) (source : StartSource) (serial : Serial) : State × Status :=
  let answer := fun (s : State) (status : Status) => (s.recordStart source status serial, status)
  if !s.pwc.inRun then answer s .badState
  else match s.rcd.state with
  | .recording => answer s .ok
  | .closing => answer s .busy
  | .retaining => answer s .busy
  | .standing =>
    match s.judgeStart with
    | some status => answer s status
    | none => answer (s.takeStart serial) .ok

/-- A start whose refusal has no reply to carry it: from the REC line or from the latch (R115, R118). -/
def State.startReported (s : State) (source : StartSource) (serial : Serial) : State :=
  let (s, status) := s.start source serial
  if status == .ok then s else s.reportRec .startRefused status.code 0

/-! ## The end of a clip -/

/-- The Recorder returns to STANDING with a clip's ending reported (R122, R125, R130 step 5), and takes the pending-start latch
(R118). -/
def State.endClip (s : State) (reason : EndReason) : State :=
  let count := fun (c : EndCounts) =>
    match reason with
    | .stopped => { c with stopped := bump16 c.stopped }
    | .cardFull => { c with cardFull := bump16 c.cardFull }
    | .aborted => { c with aborted := bump16 c.aborted }
    | .retained => { c with retained := bump16 c.retained }
  let s := { s with
    rcd := { s.rcd with state := .standing, endings := count s.rcd.endings }
    bfm := { s.bfm with gapPending := false } }
  let s := s.reportRec reason.report 0 0
  let s := { s with rcd := { s.rcd with clip := none } }
  if s.rcd.latch then ({ s with rcd := { s.rcd with latch := false } }).startReported .latch s.rcd.noted else s

/-- An assembly entry older than or equal to the end serial remains, or is still to be created: BFM has yet to act on its frame
start (R121, R122, R90). -/
def State.entryRemains (s : State) (clip : Clip) : Bool :=
  match clip.last with
  | none => false
  | some last =>
    s.bfm.entries.any (fun e => olderOrSame e.serial last) ||
      s.due.bfm.any (fun f => f.inRun && olderOrSame f.serial last)

/-- The newest CLIP unit of the clip, queued or already taken by the slot's writer (R122). -/
def State.newestUnit (s : State) (side : Side) : LastUnit :=
  let queued := (s.bfm.queue.filter RecUnit.ofClip).getLast?.map RecUnit.serial
  match queued, (s.slot side).lastTaken with
  | some q, some t => .unit (if newer t q then t else q)
  | some q, none => .unit q
  | none, some t => .unit t
  | none, none => .nothing

/-- A copy in WRITING is told its last unit and enters CLOSING (R122, R125, R127, R128, R129). -/
def State.closeCopy (s : State) (side : Side) (last : LastUnit) : State :=
  (s.modifyClip (fun clip => clip.modifyCopy side (fun copy => { copy with state := .closing }))).nameLast side last

/-- A slot's copy in WRITING is told that its last unit is the clip's newest (R122, R123). -/
def State.tellLast (s : State) (side : Side) : State :=
  match s.rcd.clip with
  | none => s
  | some clip => if clip.copyState side == some .writing then s.closeCopy side (s.newestUnit side) else s

/-- A copy needs nothing more: absent, CLOSED or LOST. -/
def Clip.copyDone (clip : Clip) (side : Side) : Bool :=
  match clip.copyState side with
  | none => true
  | some .closed => true
  | some .lost => true
  | some .writing => false
  | some .closing => false

/-- No unit of the clip remains queued and every copy is CLOSED or LOST (R122, R125). -/
def State.clipDone (s : State) (clip : Clip) : Bool :=
  !s.bfm.queue.any RecUnit.ofClip && clip.copyDone .a && clip.copyDone .b

/-- The Recorder watches for the moments of R122 and R125: in CLOSING the copies are told their last unit once no entry up to
the end serial remains, and the clip ends when nothing of it is left; in RETAINING the retention ends likewise. -/
def State.watchClip (s : State) : State :=
  match s.rcd.clip, s.rcd.state with
  | some clip, .closing =>
    if s.entryRemains clip then s
    else
      let s := (s.tellLast .a).tellLast .b
      match s.rcd.clip with
      | some clip => if s.clipDone clip then s.endClip (clip.reason.getD .stopped) else s
      | none => s
  | some clip, .retaining => if s.clipDone clip then s.endClip (clip.reason.getD .retained) else s
  | _, _ => s

/-- Units may have joined or left, or entries may have gone: written units leave (R101), and the Recorder looks (R122). -/
def State.review (s : State) : State := s.sweepWritten.watchClip

/-- A stop reaches the Recorder (R121). -/
def State.stop (s : State) (serial : Serial) : State :=
  match s.rcd.state with
  | .recording =>
    let s := { s with rcd := { s.rcd with state := .closing } }
    let s := s.modifyClip (fun clip => { clip with last := some serial, reason := some .stopped })
    (s.reportRec .stopped 0 0).watchClip
  | .standing => s
  | .closing => s
  | .retaining => s

/-! ## The end of a card -/

/-- From unit `u` on, the clip's units are owed on `side` no longer (R127 step 3, R129). -/
def State.dropOwed (s : State) (side : Side) (u : Serial) : State :=
  s.modifyUnits (fun x => x.ofClip && !older x.serial u)
    (fun x => { x with progress := x.progress.set side .none })

/-- The last unit of a full copy: the one before the unit that the card could not take, which is the last one taken (R127 to
R129). -/
def CardSlot.lastBefore (c : CardSlot) : LastUnit :=
  match c.lastTaken with
  | some t => .unit t
  | none => .nothing

/-- The relay switch at unit `u` (R127). -/
def State.relaySwitch (s : State) (side : Side) (u : Serial) : State :=
  match s.rcd.clip with
  | none => s
  | some clip =>
    let left := clip.copies.get side
    let s := s.closeCopy side (s.slot side).lastBefore
    let s := s.openFor side.other { continuation := true, retained := false, mirrored := false }
      (left.map (fun c => { label := c.label, clip := c.clip }))
    let s := s.modifyUnits (fun x => x.ofClip && !older x.serial u)
      (fun x => { x with progress := (x.progress.set side .none).set side.other .owed })
    let s := s.modifyClip (fun clip =>
      { clip.modifyCopy side.other (fun c => { c with firstSerial := some u }) with switches := clip.switches + 1 })
    s.report .relaySwitch
      (u8 side.code ++ u8 side.other.code ++ serialBytes u ++ u16 (clip.copyNumber side) ++
        u16 ((s.rcd.clip.map (fun clip => clip.copyNumber side.other)).getD 0))

/-- A named last unit that has yet to be taken, and is `u` or newer. -/
def WriterCopy.awaitsFrom (copy : WriterCopy) (u : Serial) : Bool :=
  match copy.last with
  | .unit last => !older last u && copy.lastTaken != some last
  | .unnamed => false
  | .nothing => false

/-- A CLOSING copy whose named last unit has just left the clip is told its last unit anew, by R122's words: the clip's newest
(DEDUCED, log entry 11). -/
def State.renameLast (s : State) (side : Side) (u : Serial) : State :=
  match (s.rcd.clip.bind (fun clip => clip.copyState side)), (s.slot side).copy with
  | some .closing, some copy => if copy.awaitsFrom u then s.nameLast side (s.newestUnit side) else s
  | _, _ => s

/-- The clip ends CARD_FULL at unit `u` (R128). -/
def State.cardFullEnd (s : State) (side : Side) (u : Serial) : State :=
  match s.rcd.clip with
  | none => s
  | some clip =>
    let before := match (s.slot side).lastTaken with
      | some t => some t
      | none => clip.newestPlaced
    let s := s.closeCopy side (s.slot side).lastBefore
    let s := s.modifyClip (fun clip => { clip with last := before, reason := some .cardFull })
    let s := (s.modifyUnits (fun x => x.ofClip && !older x.serial u) RecUnit.toRing).renameLast side.other u
    let s := if s.rcd.state == .recording then { s with rcd := { s.rcd with state := .closing } } else s
    s.reportRec .cardFull 0 0

/-- One of two full mirrored copies is dropped, and the clip goes on on the other slot (R129). -/
def State.dropMirror (s : State) (side : Side) (u : Serial) : State :=
  ((s.closeCopy side (s.slot side).lastBefore).dropOwed side u).reportRec .slotDropped 0 side.code

/-- The other copy carries the clip on: it is WRITING (R128, R129). -/
def Clip.otherCarries (clip : Clip) (side : Side) : Bool := clip.copyState side.other == some .writing

/-- A copy has reached the end of its card at unit `u` (R126 to R129). In RELAY a copy that is CLOSING already, with units still to
take, relay-switches as a WRITING one does; the switch also asks that the other slot hold no live copy of the clip (DEDUCED, log
entry 23). -/
def State.endOfCard (s : State) (side : Side) (u : Serial) : State :=
  match s.rcd.clip with
  | none => s
  | some clip =>
    let s :=
      if clip.kind == .retained then s.cardFullEnd side u
      else match clip.mode with
      | .single => s.cardFullEnd side u
      | .relay =>
        if (s.slot side.other).state == .ready && clip.copyDone side.other then s.relaySwitch side u
        else s.cardFullEnd side u
      | .mirror => if clip.otherCarries side then s.dropMirror side u else s.cardFullEnd side u
    s.review

/-! ## The loss of a slot -/

/-- The end serial after the loss of a slot, from the last serial of the surviving copy (R130 step 4). A copy that was told it has no
last unit leaves the end serial as it was (DESIGN CHOICE, log entry 52). -/
def laterEnd (last : Option Serial) (copy : Option WriterCopy) : Option Serial :=
  match copy.map WriterCopy.last with
  | some (.unit x) =>
    (match last with
     | none => some x
     | some e => some (if newer x e then x else e))
  | _ => last

/-- The units of a lost copy: none is owed there any longer, and those that no live slot owes leave the queue, or are released
when no slot has written them (R130 step 2, R101, R108). -/
def State.looseUnits (s : State) (side : Side) : State :=
  let s := s.modifyUnits (fun u => u.ofClip && u.progress.get side == .owed)
    (fun u => { u with progress := u.progress.set side .none })
  let s := s.sweepWritten
  { s with bfm := s.bfm.releaseUnits (fun u => u.ofClip && !s.liveOwed u && !u.writtenSomewhere) }

/-- A slot is lost to the clip (R130). The slot's state stands at FAULT or ABSENT already. -/
def State.slotLost (s : State) (side : Side) : State :=
  match s.rcd.clip with
  | none => s
  | some clip =>
    if !s.isTarget side then s
    else
      let s := s.modifyClip (fun clip => clip.modifyCopy side (fun copy => { copy with state := .lost }))
      let s := s.looseUnits side
      match clip.copyState side.other with
      | some .writing => (s.reportRec .slotDropped 0 side.code).review
      | some .closing =>
        let s := s.modifyClip (fun clip =>
          { clip with last := laterEnd clip.last (s.slot side.other).copy, reason := some .aborted })
        let s := if s.rcd.state == .recording then { s with rcd := { s.rcd with state := .closing } } else s
        (s.reportRec .aborted 0 0).review
      | _ =>
        let s := s.modifyClip (fun clip => { clip with reason := some .aborted })
        ({ s with bfm := s.bfm.releaseUnits RecUnit.ofClip }).endClip .aborted

end Sys2Proof.Machine
end

