-- ==== Sys2Proof/Machine/Audio.lean ====
section
/-! DEFINITION. The Audio Processor: the step arithmetic (R72), the path of a sample frame (R73 to R76), the elastic stores and
the cut (R78 to R80), the hand-over to BFM (R81, R92), meters and holds (R82, R83), and its requests (R71, R77, R84). -/

namespace Sys2Proof.Machine

/-! ## Step arithmetic -/

/-- Full scale. -/
def fullScale : Int := 8388607

/-- The mantissa at a position (R72). -/
def mantissa (position : Nat) : Int :=
  ([16384, 17358, 18390, 19484, 20643, 21870, 23170, 24548, 26008, 27554, 29193, 30929] : List Nat)[position]?.getD 0

/-- The value of `x` scaled by step `s`, -96 to 60 (R72). -/
def scaleBy (s : Int) (x : Int) : Int :=
  roundDiv (x * mantissa (s % 12).toNat) ((2 ^ (14 - s / 12).toNat : Nat) : Int)

/-- The limit level Lv of a limiter (R75). -/
def Limiter.level (l : Limiter) : Int := scaleBy (-(l.threshold : Int)) fullScale

/-! ## Channels -/

/-- One channel of a pair. -/
inductive Which where
  | first
  | second
deriving DecidableEq, Repr

/-- A channel of a pair. -/
def Pair.channel (p : Pair) : Which → Channel
  | .first => p.first
  | .second => p.second

/-- Changes a channel of a pair. -/
def Pair.modifyChannel (p : Pair) (w : Which) (f : Channel → Channel) : Pair :=
  match w with
  | .first => { p with first := f p.first }
  | .second => { p with second := f p.second }

/-- Changes both channels of a pair. -/
def Pair.mapChannels (p : Pair) (f : Channel → Channel) : Pair := { p with first := f p.first, second := f p.second }

/-- The number of a channel: 1 and 2 of pair A, 3 and 4 of pair B. -/
def channelNumber (pair : Side) : Which → Nat
  | .first => 2 * pair.code + 1
  | .second => 2 * pair.code + 2

/-- The pair and place of a channel number. -/
def channelOf : Nat → Option (Side × Which)
  | 1 => some (.a, .first)
  | 2 => some (.a, .second)
  | 3 => some (.b, .first)
  | 4 => some (.b, .second)
  | _ => none

/-- A limiter takes new settings (R77): the reduction and the release count are kept while it stays on. -/
def Channel.setLimiter (c : Channel) (l : Limiter) : Channel :=
  if c.limiter.on && l.on then { c with limiter := l } else { c with limiter := l, reduction := 0, releaseCount := 0 }

/-- Pending settings take effect (R77). -/
def Channel.applyPending (c : Channel) : Channel :=
  let c := match c.pendingGain with
    | some n => { c with gain := n, pendingGain := none }
    | none => c
  match c.pendingLimiter with
  | some l => { c.setLimiter l with pendingLimiter := none }
  | none => c

/-- The output of the gain stage before its saturation (R74). -/
def Channel.scaled (c : Channel) (x : Int) : Int := scaleBy ((c.gain : Int) - c.reduction) x

/-- The output of the gain stage (R74). -/
def Channel.gained (c : Channel) (x : Int) : Int := saturate (-8388608) 8388607 (c.scaled x)

/-- A sample that the saturation changes is an over (R74). -/
def Channel.isOver (c : Channel) (x : Int) : Bool := c.gained x != c.scaled x

/-- The limiter's clamp (R75). -/
def Channel.clamped (c : Channel) (y : Int) : Int :=
  if c.limiter.on then saturate (-c.limiter.level) c.limiter.level y else y

/-- The output of a channel for an input sample (R73 steps 1 and 3). -/
def Channel.output (c : Channel) (x : Int) : Int := c.clamped (c.gained x)

/-- What a channel's record becomes when it accepts a sample (R73 steps 1 and 2, R74). -/
def Channel.accept (c : Channel) (x : Int) : Channel :=
  let c' := { c with blockPeak := max c.blockPeak (c.gained x).natAbs }
  if c.isOver x then { c' with overs := bump16 c'.overs, overReported := true } else c'

/-- The sample is the channel's first over of the present frame (R74). -/
def Channel.firstOver (c : Channel) (x : Int) : Bool := c.isOver x && !c.overReported

/-- A new frame begins for a channel: no over has been reported in it (R74). -/
def Channel.newFrame (c : Channel) : Channel := { c with overReported := false }

/-- The smallest step count k, 1 or more, that brings a peak to the limit level (R76). -/
def attackSteps (peak : Nat) (level : Int) : Nat :=
  (((List.range 96).map (· + 1)).find? (fun (k : Nat) => decide (scaleBy (-(k : Int)) peak ≤ level))).getD 96

/-- The attack or release decision at the end of a sample block (R76). -/
def Channel.judgeBlock (c : Channel) : Channel :=
  if !c.limiter.on then c
  else if c.limiter.level < (c.blockPeak : Int) then
    { c with reduction := min 48 (c.reduction + attackSteps c.blockPeak c.limiter.level), releaseCount := 0 }
  else if c.reduction = 0 then c
  else if c.limiter.release ≤ c.releaseCount + 1 then { c with reduction := c.reduction - 1, releaseCount := 0 }
  else { c with releaseCount := c.releaseCount + 1 }

/-- The end of a sample block for a channel (R73). -/
def Channel.endBlock (c : Channel) : Channel := ({ c.judgeBlock with blockPeak := 0 }).applyPending

/-! ## The elastic store -/

/-- A sample frame joins the store (R78). -/
def Pair.joinStore (p : Pair) (x : SampleFrame) : Pair :=
  if p.store.length < 4096 then { p with store := p.store ++ [x] }
  else { p with store := p.store.drop 1 ++ [x], dropped := p.dropped + 1 }

/-- A WARMING or ACTIVE pair accepts a sample frame (R73). -/
def Pair.accept (p : Pair) (x y : Int) : Pair :=
  let joined := p.joinStore { first := p.first.output x, second := p.second.output y }
  let p := { joined with first := p.first.accept x, second := p.second.accept y }
  if p.blockCount + 1 < 48 then { p with blockCount := p.blockCount + 1 }
  else ({ p with blockCount := 0 }).mapChannels Channel.endBlock

/-- The meters and holds start afresh (R83). -/
def Channel.freshMeter (c : Channel) : Channel := { c with meter := 97, holdHistory := [] }

/-- A pair enters WARMING (R70, R71, R85). Where this begins a new sample block before the one in progress has ended, at FRAME_CONFIG
and at the return to RUN, pending gain and limiter settings stay pending, to the end of the new block (DESIGN CHOICE, log entry
54). -/
def Pair.warm (p : Pair) : Pair :=
  ({ p with state := .warming, store := [], blockCount := 0, dropped := 0 }).mapChannels
    (fun c => { c.freshMeter with blockPeak := 0 })

/-- FRAME_CONFIG, and the return to RUN, for a pair (R85). -/
def Pair.restart (p : Pair) : Pair :=
  match p.state with
  | .off => p
  | .warming => p.warm
  | .active => p.warm

/-- A new frame begins for the four channels (R74). -/
def Aud.newFrame (a : Aud) : Aud :=
  { pairs := { a := a.pairs.a.mapChannels Channel.newFrame, b := a.pairs.b.mapChannels Channel.newFrame } }

/-- Both pairs start afresh (R85). -/
def Aud.restart (a : Aud) : Aud := { pairs := { a := a.pairs.a.restart, b := a.pairs.b.restart } }

/-- A pair is routed off (R71). -/
def Pair.switchOff (p : Pair) : Pair :=
  match p.state with
  | .off => p
  | _ =>
    ({ p with state := .off, store := [], last := none, dropped := 0 }).mapChannels
      (fun c => ({ c.freshMeter with reduction := 0, releaseCount := 0 }).applyPending)

/-- A pair is routed on (R71). -/
def Pair.switchOn (p : Pair) : Pair :=
  match p.state with
  | .off => p.warm
  | .warming => p
  | .active => p

/-! ## The cut -/

/-- The meter value of a peak (R82). -/
def meterOf (peak : Nat) : Nat :=
  ((List.range 97).find? (fun (j : Nat) => decide (scaleBy (-(j : Int)) fullScale ≤ (peak : Int)))).getD 97

/-- The largest magnitude among samples. -/
def peakOf (xs : List Int) : Nat := xs.foldl (fun n x => max n x.natAbs) 0

/-- A channel's meter becomes the value of a cut, and joins the hold history (R82, R83). -/
def Channel.metered (c : Channel) (value limit : Nat) : Channel :=
  let history := c.holdHistory ++ [value]
  { c with meter := value, holdHistory := history.drop (history.length - limit) }

/-- The hold: the smallest value in the history, or 97 (R83). -/
def Channel.hold (c : Channel) : Nat := c.holdHistory.foldl min 97

/-- The sample frame that pads a segment (R79 step 1). -/
def Pair.padding (p : Pair) (taken : List SampleFrame) : SampleFrame :=
  match taken.getLast? with
  | some x => x
  | none => p.last.getD { first := 0, second := 0 }

/-- The cut of a segment of `count` sample frames (R79, R82), with the length of the hold history. -/
def Pair.cut (p : Pair) (count limit : Nat) : Segment × Pair :=
  let taken := p.store.take count
  let padded := count - taken.length
  let samples := taken ++ List.replicate padded (p.padding taken)
  let rest := p.store.drop count
  let removed := rest.length - 32
  let dropped := p.dropped + removed
  let slip := decide (0 < padded) || decide (0 < dropped)
  let m1 := meterOf (peakOf (samples.map SampleFrame.first))
  let m2 := meterOf (peakOf (samples.map SampleFrame.second))
  ({ samples := samples, padded := padded, dropped := dropped, meterFirst := m1, meterSecond := m2 },
   { p with
     store := rest.drop removed
     dropped := 0
     last := samples.getLast?
     slips := if slip then bump16 p.slips else p.slips
     paddedTotal := bump 4294967295 p.paddedTotal padded
     droppedTotal := bump 4294967295 p.droppedTotal dropped
     first := p.first.metered m1 limit
     second := p.second.metered m2 limit })

/-- A pair's frame start (R70, R79): its hand-over for the frame just ended, and its new record. -/
def Pair.frame (p : Pair) (count limit : Nat) : HandOver × Pair :=
  match p.state with
  | .off => (.absence .off, p)
  | .warming => (.absence .warming, { p with state := .active, store := [], last := none, dropped := 0 })
  | .active =>
    let (segment, p) := p.cut count limit
    (.segment segment, p)

/-! ## The hand-over -/

/-- The bytes of a segment as its page holds them: the card layout of a sound payload (R197). -/
def Segment.bytes (g : Segment) : List Byte :=
  (g.samples.map (fun x => signedBytes 3 x.first ++ signedBytes 3 x.second)).flatten

/-- Changes the sound of one pair of the entry with a serial. -/
def State.setSound (s : State) (n : Serial) (side : Side) (x : Sound) : State :=
  { s with bfm := s.bfm.modifyEntry n (fun e => { e with sound := e.sound.set side x }) }

/-- BFM takes a hand-over for serial `n` (R92). -/
def State.takeHandOver (s : State) (n : Serial) (side : Side) (h : HandOver) : State :=
  match s.bfm.entry n with
  | none => s
  | some e =>
    if (e.sound.get side).decided then s
    else match h with
    | .absence reason => (s.setSound n side (.absent reason)).checkComplete n
    | .segment g =>
      let (pages, b) := s.bfm.allocate 1
      let s := { s with bfm := b }
      match pages with
      | some (page :: _) =>
        let s := { s with mem := s.mem.place [page] 0 g.bytes }
        (s.setSound n side (.present
          { page := page, count := g.samples.length, padded := g.padded, dropped := g.dropped,
            meterFirst := g.meterFirst, meterSecond := g.meterSecond })).checkComplete n
      | _ => s.abandon e .overflow

/-- AUDIO_SLIP, when a hand-over's segment padded or dropped more than 2 (R79 step 4). -/
def State.reportSlip (s : State) (n : Serial) (side : Side) (h : HandOver) : State :=
  match h with
  | .absence _ => s
  | .segment g =>
    if 2 < g.padded || 2 < g.dropped then
      s.report .audioSlip (u8 side.code ++ serialBytes n ++ u16 g.padded ++ u16 (min 65535 g.dropped))
    else s

/-- One pair acts on a frame start: it cuts or warms, and hands over for serial `n` (R79, R81). -/
def State.pairFrame (s : State) (n : Serial) (side : Side) : State :=
  let (h, p) := (s.aud.pairs.get side).frame (s.ftb.rate.cadence n) (2 * s.ftb.rate.nominal)
  let s := { s with aud := { pairs := s.aud.pairs.set side p } }
  (s.reportSlip n side h).takeHandOver n side h

/-- AUD acts on a frame start (R79, R81). Pair A slips and hands over before pair B, so a slip of A supplies AUDIO_SLIP's record
and A's segment takes its page first (DESIGN CHOICE, log entry 40). -/
def State.audFrame (s : State) (f : FrameStart) : State :=
  if f.inRun && s.pwc.inRun && s.pwc.enables.aud then
    ((s.pairFrame (f.serial - 1) .a).pairFrame (f.serial - 1) .b).review
  else s

/-- AUD takes the oldest frame start it has yet to act on. -/
def State.audStep (s : State) : State :=
  match s.due.aud with
  | [] => s
  | f :: rest => ({ s with due := { s.due with aud := rest } }).audFrame f

/-- AUD_FRAME_START (R79). -/
def execAudFrameStart (s : State) : Result := s.act State.audStep

/-- A disabled AUD hands over at once an absence mark for each pair for the frame in progress (R81), pair A first
(DESIGN CHOICE, log entry 40). -/
def State.handOverOff (s : State) : State :=
  ((s.takeHandOver s.ftb.serial .a (.absence .off)).takeHandOver s.ftb.serial .b (.absence .off)).review

/-! ## Sample frames -/

/-- AUDIO_OVER for one channel (R74). -/
def State.reportOver (s : State) (pair : Side) (w : Which) (first : Bool) : State :=
  if first then s.report .audioOver (u8 (channelNumber pair w) ++ serialBytes s.ftb.serial) else s

/-- A sample frame arrives at a pair (R70, R73). Where both channels have their first over in it, the first channel is reported
first and supplies AUDIO_OVER's record (DESIGN CHOICE, log entry 40). -/
def State.sampleFrame (s : State) (pair : Side) (x y : Int) : State :=
  let p := s.aud.pairs.get pair
  if !s.pwc.inRun || !s.pwc.enables.aud || p.state == .off then s
  else
    let s' := { s with aud := { pairs := s.aud.pairs.set pair (p.accept x y) } }
    (s'.reportOver pair .first (p.first.firstOver x)).reportOver pair .second (p.second.firstOver y)

/-- SAMPLE_FRAME (R73). -/
def execSampleFrame (pair : Side) (first second : BitVec 24) (s : State) : Result :=
  s.act (fun s => s.sampleFrame pair first.toInt second.toInt)

/-! ## Requests -/

/-- The code of a pair state, in the order of R70. -/
def PairState.code : PairState → Nat
  | .off => 0
  | .warming => 1
  | .active => 2

/-- AUDIO_ROUTE (R71). -/
def reqAudioRoute (p : List Byte) (s : State) : State × Answer :=
  match flagAt p 0, flagAt p 1 with
  | some a, some b =>
    if !s.pwc.inRun then refuse s .badState
    else
      let route := fun (on : Bool) (x : Pair) => if on then x.switchOn else x.switchOff
      let s := { s with aud := { pairs := { a := route a s.aud.pairs.a, b := route b s.aud.pairs.b } } }
      answerOk s (u8 s.aud.pairs.a.state.code ++ u8 s.aud.pairs.b.state.code)
  | _, _ => refuse s .badValue

/-- Gives a channel pending settings, which take effect at once while its pair is OFF (R77). -/
def State.setPending (s : State) (side : Side) (w : Which) (f : Channel → Channel) : State :=
  let p := (s.aud.pairs.get side).modifyChannel w f
  let p := if p.state == .off then p.modifyChannel w Channel.applyPending else p
  { s with aud := { pairs := s.aud.pairs.set side p } }

/-- The settings of a limiter as reply bytes. -/
def Limiter.bytes (l : Limiter) : List Byte := flagByte l.on ++ u8 l.threshold ++ u8 l.release

/-- AUDIO_GAIN (R77). The reply carries the gain in force and pending, and no limiter setting (DESIGN CHOICE, log entry 15). -/
def reqAudioGain (p : List Byte) (s : State) : State × Answer :=
  match channelOf (num p 0 1), rangeAt p 1 1 0 60 with
  | some (side, w), some gain =>
    if !s.pwc.inRun then refuse s .badState
    else
      let s := s.setPending side w (fun c => { c with pendingGain := some gain })
      let c := (s.aud.pairs.get side).channel w
      answerOk s (u8 c.gain ++ optional 1 u8 c.pendingGain)
  | _, _ => refuse s .badValue

/-- AUDIO_LIMITER (R77). The reply carries the limiter in force and pending, and no gain (DESIGN CHOICE, log entry 15). -/
def reqAudioLimiter (p : List Byte) (s : State) : State × Answer :=
  match channelOf (num p 0 1), flagAt p 1, rangeAt p 2 1 0 24, rangeAt p 3 1 1 255 with
  | some (side, w), some on, some threshold, some release =>
    if !s.pwc.inRun then refuse s .badState
    else
      let s := s.setPending side w (fun c =>
        { c with pendingLimiter := some { on := on, threshold := threshold, release := release } })
      let c := (s.aud.pairs.get side).channel w
      answerOk s (c.limiter.bytes ++ optional 3 Limiter.bytes c.pendingLimiter)
  | _, _, _, _ => refuse s .badValue

/-- A pair's part of the AUDIO_QUERY reply (R84). -/
def Pair.reply (p : Pair) : List Byte :=
  u8 p.state.code ++ u16 p.store.length ++ u16 p.slips ++ u32 p.paddedTotal ++ u32 p.droppedTotal

/-- A channel's part of the AUDIO_QUERY reply (R84). -/
def Channel.reply (c : Channel) : List Byte :=
  u8 c.gain ++ optional 1 u8 c.pendingGain ++ flagByte c.limiter.on ++ u8 c.limiter.threshold ++ u8 c.limiter.release ++
    u32 c.limiter.level.toNat ++ optional 3 Limiter.bytes c.pendingLimiter ++ u8 c.reduction ++ u8 c.releaseCount ++
    u8 c.meter ++ u8 c.hold ++ u16 c.overs

/-- The counts that AUDIO_QUERY clears (R84). -/
def Pair.clearCounts (p : Pair) : Pair :=
  ({ p with slips := 0, paddedTotal := 0, droppedTotal := 0 }).mapChannels (fun c => { c with overs := 0 })

/-- AUDIO_QUERY (R84). -/
def reqAudioQuery (p : List Byte) (s : State) : State × Answer :=
  match clearFlag p with
  | none => refuse s .badValue
  | some clear =>
    let a := s.aud.pairs.a
    let b := s.aud.pairs.b
    let s := if clear then { s with aud := { pairs := { a := a.clearCounts, b := b.clearCounts } } } else s
    answerOk s (a.reply ++ b.reply ++ a.first.reply ++ a.second.reply ++ b.first.reply ++ b.second.reply)

end Sys2Proof.Machine
end

