-- ==== Sys2Proof/Machine/Timebase.lean ====
section
/-! DEFINITION. The Frame Timebase: frame starts (R6 to R10), the trigger (R20), the interval counter (R22), and its requests
(R16 to R19, R21, R23, R24). -/

namespace Sys2Proof.Machine

/-! ## Frame starts -/

/-- The frame about to start is a burst frame (R22). -/
def Ftb.isBurst (ftb : Ftb) (recording : Bool) : Bool :=
  match ftb.interval with
  | some iv => recording && decide (iv.period - iv.burst < ftb.counter)
  | none => false

/-- The interval counter goes down at a frame start of an interval clip (R22). -/
def Ftb.countDown (ftb : Ftb) (recording : Bool) : Ftb :=
  match ftb.interval with
  | some iv =>
    if recording then { ftb with counter := if ftb.counter ≤ 1 then iv.period else ftb.counter - 1 } else ftb
  | none => ftb

/-- A pending preset is loaded (R10 step 2, R17). -/
def Ftb.loadPreset (ftb : Ftb) : Ftb :=
  match ftb.preset with
  | some t => { ftb with generator := t, preset := none }
  | none => ftb

/-- The label that the generator and the user bits give (R10 step 3). -/
def Ftb.label (ftb : Ftb) : Label := { time := ftb.generator, userBits := ftb.userBits }

/-- An entry joins the label history, and the oldest of 17 leaves (R12). -/
def Ftb.addEntry (ftb : Ftb) (e : HistoryEntry) : Ftb :=
  let history := ftb.history ++ [e]
  { ftb with history := history.drop (history.length - 16) }

/-- R10 steps 1 to 5, with the counting of R6 to R8: the entry added, and the new record. -/
def Ftb.begin (ftb : Ftb) (substituted recording : Bool) : HistoryEntry × Ftb :=
  let ftb := { ftb with serial := ftb.serial + 1, elapsed := 0, previousReal := !substituted }
  let ftb := if substituted then ftb else { ftb with lastReal := ftb.serial }
  let ftb := ftb.loadPreset
  let e : HistoryEntry :=
    { serial := ftb.serial, label := ftb.label, valid := true, substituted := substituted, recording := recording,
      burst := ftb.isBurst recording }
  (e, (ftb.countDown recording).addEntry e)

/-- R10 step 7 (R15): the generator advances at this frame start. -/
def Ftb.advances (ftb : Ftb) (e : HistoryEntry) : Bool :=
  match ftb.mode with
  | .freeRun => true
  | .recRun => e.recording && (ftb.interval.isNone || e.burst)

/-- The code of a trigger action (R194, R195). -/
def TriggerAction.code : TriggerAction → Nat
  | .start => 1
  | .stop => 2
  | .noticeOnly => 3

/-- The trigger's action is delivered (R20): the Recorder takes a start or a stop with S the serial of the frame start. -/
def State.deliver (s : State) (action : TriggerAction) (serial : Serial) : State × Status :=
  match action with
  | .start => s.start .trigger serial
  | .stop => (s.stop serial, .ok)
  | .noticeOnly => (s, .ok)

/-- R10 step 6 (R20): the frame's label is compared with the armed trigger. -/
def State.tryTrigger (s : State) (e : HistoryEntry) : State :=
  match s.ftb.trigger with
  | none => s
  | some t =>
    if t.time == e.label.time then
      let (s, status) := ({ s with ftb := { s.ftb with trigger := none } }).deliver t.action e.serial
      s.report .tcTrigger (serialBytes e.serial ++ t.time.bytes ++ u8 t.action.code ++ u8 status.code)
    else s

/-- Every block has the frame start to act on (R10); LNC has yet to leave its record for it (R29). -/
def Due.push (d : Due) (f : FrameStart) : Due :=
  { lnc := d.lnc ++ [f], stb := d.stb ++ [f], aud := d.aud ++ [f], bfm := d.bfm ++ [f], rcd := d.rcd ++ [f],
    vog := d.vog ++ [f] }

/-- A frame start, taken whole inside FTB (R10). The other blocks have it to act on from step 1, so that a stop delivered at step
6 finds the entry of this frame still to come (R122); the channels begin a new frame (R74). -/
def State.frameStart (s : State) (substituted : Bool) : State :=
  let begun := s.ftb.begin substituted (s.rcd.state == .recording)
  let start : FrameStart :=
    { serial := begun.1.serial, substituted := substituted, inRun := s.pwc.inRun, lens := none, stbOff := false }
  let s := ({ s with ftb := begun.2, due := s.due.push start, aud := s.aud.newFrame }).tryTrigger begun.1
  if s.ftb.advances begun.1 then { s with ftb := s.ftb.advance } else s

/-- The timebase enters a state. -/
def State.setTimebase (s : State) (t : TimebaseState) : State := { s with ftb := { s.ftb with state := t } }

/-- An edge comes earlier than three quarters of a period (R6). -/
def Ftb.isEarly (ftb : Ftb) : Bool := decide (4 * ftb.elapsed < 3 * ftb.rate.period)

/-- The period measurement of a real frame start taken in LOCKED (R7, R11). -/
def Ftb.measure (ftb : Ftb) : Ftb :=
  if ftb.previousReal then { ftb with measurement := ftb.elapsed } else ftb

/-- An edge on the frame-start line, at the elapsed count that stands (R6 to R9). -/
def State.edge (s : State) : State :=
  match s.ftb.state with
  | .acquire => (s.frameStart false).setTimebase .locked
  | .locked =>
    if s.ftb.isEarly then { s with ftb := { s.ftb with runts := bump16 s.ftb.runts } }
    else ({ s with ftb := s.ftb.measure }).frameStart false
  | .holdover =>
    if s.ftb.isEarly then { s with ftb := { s.ftb with elapsed := 0, state := .locked } }
    else (s.frameStart false).setTimebase .locked
  | .standby => s

/-- A substituted frame start is counted (R7, R8; in ACQUIRE: DEDUCED, log entry 12). -/
def State.countSubstituted (s : State) : State :=
  { s with ftb := { s.ftb with substituted := bump16 s.ftb.substituted } }

/-- The loss of the line: a substituted start, FRAME_LOSS, HOLDOVER (R6, R7). -/
def State.frameLoss (s : State) : State :=
  let s := ((s.frameStart true).countSubstituted).setTimebase .holdover
  s.report .frameLoss (serialBytes s.ftb.serial ++ serialBytes s.ftb.lastReal)

/-- What the substitution timer does when it fires (R6 to R9). -/
def State.timerFires (s : State) : State :=
  match s.ftb.state with
  | .acquire => s.frameLoss
  | .locked => s.frameLoss
  | .holdover => (s.frameStart true).countSubstituted
  | .standby => s.frameStart true

/-- The span of the substitution timer in reference cycles: the least e for which 2 × e reaches 3 × N, or N itself (R6). -/
def Ftb.span (ftb : Ftb) : Nat :=
  match ftb.state with
  | .acquire => (3 * ftb.rate.period + 1) / 2
  | .locked => (3 * ftb.rate.period + 1) / 2
  | .holdover => ftb.rate.period
  | .standby => ftb.rate.period

/-- The span of the substitution timer has been reached (R6). -/
def Ftb.timerDue (ftb : Ftb) : Bool := decide (ftb.span ≤ ftb.elapsed)

/-! ## Time -/

/-- Reference cycles pass in which no span is passed. -/
def State.pass (s : State) (cycles : Nat) : State := { s with ftb := { s.ftb with elapsed := s.ftb.elapsed + cycles } }

/-- The cycles that may pass before the substitution timer fires (R6). -/
def Ftb.toDue (ftb : Ftb) : Nat := ftb.span - ftb.elapsed

/-- Reference cycles pass (R6 to R9). Where they go beyond the span of the substitution timer, the timer fires at its span, and
the rest pass after that start. At the span itself the timer is due and has not fired: an edge of that same instant may yet be
taken first (R7, R8). `fuel` bounds the starts made. -/
def State.elapseBy : Nat → Nat → State → State
  | 0, _, s => s
  | fuel + 1, cycles, s =>
    if cycles ≤ s.ftb.toDue then s.pass cycles
    else State.elapseBy fuel (cycles - s.ftb.toDue) (s.pass s.ftb.toDue).timerFires.settle

/-- Reference cycles pass. A start at once and then one for each nominal period are all that can fall due. -/
def State.elapse (s : State) (cycles : Nat) : State := State.elapseBy (cycles / s.ftb.rate.period + 2) cycles s

/-- FRAME_START_EDGE (R6): an edge, `cycles` after the elapsed count was last brought up to date. -/
def execFrameStartEdge (cycles : Nat) (s : State) : Result := s.act (fun s => (s.elapse cycles).edge)

/-- The substitution timer fires when it is due; before its span it does not (R6 to R9, log entry 16). -/
def State.fireIfDue (s : State) : State := if s.ftb.timerDue then s.timerFires else s

/-- SUBSTITUTION_TIMER (R6): the timer fires, if the elapsed count has reached its span. -/
def execSubstitutionTimer (s : State) : Result := s.act State.fireIfDue

/-! ## Requests -/

/-- The trigger stays armed under a rate and drop-frame setting (R23). -/
def Trigger.keeps (t : Trigger) (r : Rate) (drop : Bool) : Bool :=
  decide (t.time.frames < r.nominal) && !t.time.isDropped r drop

/-- FTB's part of FRAME_CONFIG (R23). -/
def Ftb.reconfigure (ftb : Ftb) (r : Rate) (drop : Bool) : Ftb :=
  { ftb with
    rate := r
    dropFrame := drop
    history := ftb.history.map (fun e => { e with valid := false })
    measurement := 0
    generator := ftb.generator.fit r drop
    preset := ftb.preset.map (Timecode.fit r drop)
    trigger := ftb.trigger.filter (fun t => t.keeps r drop) }

/-- FRAME_CONFIG (R23). -/
def reqFrameConfig (p : List Byte) (s : State) : State × Answer :=
  match rateAt p 0, flagAt p 1 with
  | some r, some drop =>
    if drop && !r.dropAllowed then refuse s .badValue
    else if s.rcd.state != .standing then refuse s .badState
    else
      let disarmed := s.ftb.trigger.isSome && (s.ftb.reconfigure r drop).trigger.isNone
      let s := { s with
        ftb := s.ftb.reconfigure r drop
        bfm := s.bfm.clearAll
        aud := s.aud.restart }
      let body := u8 r.code ++ flagByte drop ++ s.ftb.generator.bytes ++ optional 4 Timecode.bytes s.ftb.preset ++
        flagByte disarmed
      answerOk s.fireIfDue body
  | _, _ => refuse s .badValue

/-- TC_PRESET (R17). -/
def reqTcPreset (p : List Byte) (s : State) : State × Answer :=
  let t := timecodeAt p 0
  if !t.inRange s.ftb.rate then refuse s .badValue
  else
    let moved := t.moveForward s.ftb.rate s.ftb.dropFrame
    answerOk { s with ftb := { s.ftb with preset := some moved } } (moved.bytes ++ flagByte (moved != t))

/-- TC_MODE (R16). -/
def reqTcMode (p : List Byte) (s : State) : State × Answer :=
  match tcModeAt p 0 with
  | none => refuse s .badValue
  | some m =>
    if m == .recRun && s.ftb.mode != .recRun && (decide (0 < s.bfm.depth) || s.ftb.trigger.isSome) then refuse s .badState
    else answerOk { s with ftb := { s.ftb with mode := m } } (u8 m.code)

/-- TC_USERBITS (R18). -/
def reqTcUserbits (p : List Byte) (s : State) : State × Answer :=
  answerOk { s with ftb := { s.ftb with userBits := serialAt p 0 } } []

/-- The trigger action of a code (R194). -/
def triggerActionOf : Nat → Option TriggerAction
  | 1 => some .start
  | 2 => some .stop
  | 3 => some .noticeOnly
  | _ => none

/-- TC_TRIGGER (R19). -/
def reqTcTrigger (p : List Byte) (s : State) : State × Answer :=
  if num p 4 1 = 0 then answerOk { s with ftb := { s.ftb with trigger := none } } []
  else if s.ftb.mode == .recRun then refuse s .badState
  else
    let t := timecodeAt p 0
    match triggerActionOf (num p 4 1) with
    | none => refuse s .badValue
    | some action =>
      if !t.inRange s.ftb.rate || t.isDropped s.ftb.rate s.ftb.dropFrame then refuse s .badValue
      else answerOk { s with ftb := { s.ftb with trigger := some { time := t, action := action } } } []

/-- The interval settings as reply bytes. -/
def Interval.bytes (iv : Interval) : List Byte := u8 iv.burst ++ u16 iv.period

/-- The settings that INTERVAL_CONFIG asks for (R21): none for a bad value, some none for off. -/
def intervalAsked (p : List Byte) : Option (Option Interval) :=
  match flagAt p 0 with
  | none => none
  | some false => some none
  | some true =>
    match rangeAt p 1 1 1 60, rangeAt p 2 2 2 65535 with
    | some burst, some period => if burst < period then some (some { burst := burst, period := period }) else none
    | _, _ => none

/-- INTERVAL_CONFIG (R21). -/
def reqIntervalConfig (p : List Byte) (s : State) : State × Answer :=
  match intervalAsked p with
  | none => refuse s .badValue
  | some iv =>
    if s.rcd.state != .standing then refuse s .badState
    else answerOk { s with ftb := { s.ftb with interval := iv, counter := 0 } } (optional 3 Interval.bytes iv)

/-- The code of a timebase state, in the order of R6. -/
def TimebaseState.code : TimebaseState → Nat
  | .acquire => 0
  | .locked => 1
  | .holdover => 2
  | .standby => 3

/-- A trigger as reply bytes. -/
def Trigger.bytes (t : Trigger) : List Byte := t.time.bytes ++ u8 t.action.code

/-- The label and substituted flag of a frame as reply bytes. Before the first frame start one presence flag stands before both
(DESIGN CHOICE, log entry 15). -/
def HistoryEntry.reply (e : HistoryEntry) : List Byte := e.label.time.bytes ++ flagByte e.substituted

/-- The TIME_QUERY reply (R24). -/
def Ftb.queryReply (ftb : Ftb) : List Byte :=
  serialBytes ftb.serial ++ optional 5 HistoryEntry.reply ftb.history.getLast? ++ ftb.generator.bytes ++
    optional 4 Timecode.bytes ftb.preset ++ u8 ftb.rate.code ++ flagByte ftb.dropFrame ++ u8 ftb.mode.code ++
    u32 ftb.userBits.toNat ++ u8 ftb.state.code ++ u32 ftb.measurement ++ u16 ftb.runts ++ u16 ftb.substituted ++
    optional 5 Trigger.bytes ftb.trigger ++ optional 3 Interval.bytes ftb.interval ++ u16 ftb.counter

/-- TIME_QUERY (R24). -/
def reqTimeQuery (p : List Byte) (s : State) : State × Answer :=
  match clearFlag p with
  | none => refuse s .badValue
  | some clear =>
    let body := s.ftb.queryReply
    answerOk (if clear then { s with ftb := { s.ftb with runts := 0, substituted := 0 } } else s) body

end Sys2Proof.Machine
end

