-- ==== Sys2Proof/Machine/Lens.lean ====
section
/-! DEFINITION. The Lens Controller: the report window and misses (R26 to R28), the lens record (R29), the axes at a frame start
(R30, R31, R33, R34, R41, R42), the endings of moves (R35), manual override (R39), and its requests (R32, R34, R36 to R38,
R40, R42 to R44). -/

namespace Sys2Proof.Machine

/-- The two axes with soft limits and a mode. -/
inductive Drive where
  | zoom
  | focus
deriving DecidableEq, Repr

/-- The axis of a drive. -/
def Drive.axis : Drive → Axis
  | .zoom => .zoom
  | .focus => .focus

/-- The servo of a drive. -/
def Lnc.servo (l : Lnc) : Drive → Servo
  | .zoom => l.zoom
  | .focus => l.focus

/-- Changes the servo of a drive. -/
def Lnc.modifyServo (l : Lnc) (d : Drive) (f : Servo → Servo) : Lnc :=
  match d with
  | .zoom => { l with zoom := f l.zoom }
  | .focus => { l with focus := f l.focus }

/-- Changes LNC's record. -/
def State.modifyLnc (s : State) (f : Lnc → Lnc) : State := { s with lnc := f s.lnc }

/-- The code of an axis (R195). -/
def axisCode : Axis → Nat
  | .zoom => 0
  | .focus => 1
  | .iris => 2

/-- A position clamped to the soft limits (R30). -/
def Servo.clampTo (s : Servo) (x : Nat) : Nat := clampNat s.least s.greatest x

/-- The reported position of an axis (R39). -/
def Lnc.reportedAt (l : Lnc) (d : Drive) : Nat := l.latest.position d.axis

/-- The lens record's stale flag (R29). -/
def State.lensStale (s : State) : Bool := !s.pwc.enables.lnc || s.lnc.lens != .present

/-- The lens record as it stands (R29). -/
def State.lensRecord (s : State) : LensRecord :=
  { report := s.lnc.latest, previousZoom := s.lnc.previous.zoom, focal := s.lnc.focal, focalSerial := s.lnc.focalSerial,
    stale := s.lensStale }

/-! ## Endings of moves -/

/-- The code of an ending's status, in the order of R35. -/
def MoveStatus.code : MoveStatus → Nat
  | .arrived => 0
  | .late => 1
  | .interrupted => 2
  | .overridden => 3
  | .lost => 4
  | .halted => 5

/-- The code of a move's origin (R195). -/
def Origin.code : Origin → Nat
  | .goto => 0
  | .recall _ => 1

/-- The preset byte of LENS_MOVE_DONE; a LENS_GOTO has none (log entry 1). -/
def Origin.presetByte : Origin → List (Option Byte)
  | .goto => [none]
  | .recall n => (u8 n).map some

/-- The move of an axis, if it carries one. -/
def Lnc.moveOf (l : Lnc) : Axis → Option Move
  | .zoom => match l.zoom.mode with | .move m => some m | .idle => none | .rate _ => none
  | .focus => match l.focus.mode with | .move m => some m | .idle => none | .rate _ => none
  | .iris => l.iris.move

/-- The demand of an axis. -/
def Lnc.demandOf (l : Lnc) : Axis → Nat
  | .zoom => l.zoom.demand
  | .focus => l.focus.demand
  | .iris => l.iris.demand

/-- The final position of an ending (R35). -/
def Lnc.finalPosition (l : Lnc) (axis : Axis) : Nat :=
  if l.reported then l.latest.position axis else l.demandOf axis

/-- The move record of an axis is removed, and its last-ending entry is recorded (R35). -/
def Lnc.finish (l : Lnc) (axis : Axis) (e : Ending) : Lnc :=
  match axis with
  | .zoom => { l with zoom := { l.zoom with mode := .idle, lastEnding := some e } }
  | .focus => { l with focus := { l.focus with mode := .idle, lastEnding := some e } }
  | .iris => { l with iris := { l.iris with move := none, lastEnding := some e } }

/-- A move in progress on an axis ends with a status (R35); without one, nothing ends. -/
def State.endMove (s : State) (axis : Axis) (status : MoveStatus) : State :=
  match s.lnc.moveOf axis with
  | none => s
  | some m =>
    let e : Ending := { status := status, origin := m.origin, position := s.lnc.finalPosition axis, serial := s.ftb.serial }
    (s.modifyLnc (fun l => l.finish axis e)).notify .lensMoveDone
      ((u8 (axisCode axis) ++ u8 status.code ++ u16 e.position ++ u8 m.origin.code).map some ++ m.origin.presetByte)

/-- Every move in progress ends with a status, zoom first, then focus, then iris (DESIGN CHOICE, log entry 39). -/
def State.endMoves (s : State) (status : MoveStatus) : State :=
  ((s.endMove .zoom status).endMove .focus status).endMove .iris status

/-- Zoom or focus becomes IDLE, holding its demand. -/
def Servo.idle (s : Servo) : Servo := { s with mode := .idle }

/-! ## Misses -/

/-- The lens becomes LOST (R28). -/
def State.lensLost (s : State) : State :=
  let s := (s.modifyLnc (fun l => { l with lens := .lost })).report .lensLost
    (serialBytes s.ftb.serial ++ serialBytes s.lnc.lastGood)
  (s.endMoves .lost).modifyLnc (fun l => { l with zoom := l.zoom.idle, focus := l.focus.idle })

/-- The window closes without a good report: a miss (R28). -/
def State.missReport (s : State) : State :=
  let s := s.modifyLnc (fun l =>
    { l with window := none, misses := bump 255 l.misses 1, totalMisses := bump16 l.totalMisses })
  if s.lnc.misses == 3 && s.lnc.lens != .lost then s.lensLost else s

/-- The window's length has elapsed (R28). With no window open, nothing expires. -/
def State.windowExpires (s : State) : State := if s.lnc.window.isSome then s.missReport else s

/-- REPORT_WINDOW_EXPIRY (R28). -/
def execReportWindowExpiry (s : State) : Result := s.act State.windowExpires

/-! ## Reports -/

/-- An axis's override flag. -/
def LensReport.overrideOf (r : LensReport) (axis : Axis) : Bool := r.override.get axis

/-- LENS_OVERRIDE (R39, R195). -/
def State.reportOverride (s : State) (axis : Axis) : State :=
  s.report .lensOverride (u8 (axisCode axis) ++ u16 (s.lnc.latest.position axis))

/-- The axis becomes released (R39, rising edge). -/
def Lnc.release (l : Lnc) : Axis → Lnc
  | .zoom => { l with zoom := { l.zoom with mode := .idle, released := true } }
  | .focus => { l with focus := { l.focus with mode := .idle, released := true } }
  | .iris => { l with iris := { l.iris with released := true } }

/-- The axis's demand follows the reported position (R39, set in both). In a run the axis is released then (log entry 13). -/
def Lnc.followHand (l : Lnc) : Axis → Lnc
  | .zoom => { l with zoom := { l.zoom with demand := l.zoom.clampTo l.latest.zoom } }
  | .focus => { l with focus := { l.focus with demand := l.focus.clampTo l.latest.focus } }
  | .iris => { l with iris := { l.iris with demand := l.latest.iris } }

/-- The release ends (R39, falling edge): the axis is IDLE at the reported position, whatever it was doing. In a run it was
released, since an enabled LNC starts without a flag (log entry 13). -/
def Lnc.engage (l : Lnc) : Axis → Lnc
  | .zoom =>
    { l with zoom := { l.zoom with mode := .idle, released := false, demand := l.zoom.clampTo l.latest.zoom } }
  | .focus =>
    { l with focus := { l.focus with mode := .idle, released := false, demand := l.focus.clampTo l.latest.focus } }
  | .iris => { l with iris := { l.iris with released := false, demand := l.latest.iris } }

/-- The override flag of one axis is judged against the report replaced (R39). -/
def State.judgeOverride (s : State) (replaced : LensReport) (axis : Axis) : State :=
  match replaced.overrideOf axis, s.lnc.latest.overrideOf axis with
  | false, true => ((s.endMove axis .overridden).modifyLnc (fun l => l.release axis)).reportOverride axis
  | true, true => s.modifyLnc (fun l => l.followHand axis)
  | true, false => s.modifyLnc (fun l => l.engage axis)
  | false, false => s

/-- An axis whose move has ended becomes IDLE with demand p1 (R34); a MANUAL iris keeps it. -/
def Lnc.setDemand (l : Lnc) (axis : Axis) (x : Nat) : Lnc :=
  match axis with
  | .zoom => { l with zoom := { l.zoom with demand := x } }
  | .focus => { l with focus := { l.focus with demand := x } }
  | .iris => { l with iris := { l.iris with demand := x } }

/-- The arrival test of one axis (R34). -/
def State.judgeArrival (s : State) (axis : Axis) : State :=
  match s.lnc.moveOf axis with
  | none => s
  | some m =>
    if m.waiting && nearTarget m (s.lnc.latest.position axis) then
      (s.endMove axis .arrived).modifyLnc (fun l => l.setDemand axis m.p1)
    else s

/-- A good report (R27). The axes are judged in the order zoom, focus, iris (DESIGN CHOICE, log entry 39). -/
def State.goodReport (s : State) (w : ReportWindow) (r : LensReport) : State :=
  let replaced := s.lnc.latest
  let s := s.modifyLnc (fun l =>
    { l with window := none, latest := r, previous := l.latest, misses := 0, lens := .present, reported := true,
             lastGood := w.serial })
  let s := ((s.judgeOverride replaced .zoom).judgeOverride replaced .focus).judgeOverride replaced .iris
  ((s.judgeArrival .zoom).judgeArrival .focus).judgeArrival .iris

/-- A report arrives (R27). -/
def State.lensReport (s : State) (bytes : List Byte) : State :=
  match s.lnc.window with
  | none => s
  | some w =>
    match parseReport bytes with
    | some r => s.goodReport w r
    | none => s.missReport

/-- LENS_REPORT (R27). -/
def execLensReport (bytes : List Byte) (s : State) : Result := s.act (fun s => s.lensReport bytes)

/-! ## The frame start -/

/-- A move's frame start on zoom or focus (R34): the demand moves, and the move advances. A move that ends LATE is left to
`State.driveFrame`. -/
def Servo.moveOn (s : Servo) (m : Move) : Servo :=
  match m.frame with
  | (some m', demand) => { s with mode := .move m', demand := demand }
  | (none, demand) => { s with demand := demand }

/-- Zoom or focus at a frame start, before the clamp (R31 steps 1 to 4). -/
def State.driveFrame (s : State) (d : Drive) : State :=
  let v := s.lnc.servo d
  if v.released then s.modifyLnc (fun l => l.modifyServo d (fun v => { v with demand := l.reportedAt d }))
  else match v.mode with
  | .idle => s
  | .rate r => s.modifyLnc (fun l => l.modifyServo d (fun v => { v with demand := rateDemand v r }))
  | .move m =>
    let s := s.modifyLnc (fun l => l.modifyServo d (fun v => v.moveOn m))
    if m.frame.1.isNone then s.endMove d.axis .late else s

/-- The demand is clamped to the soft limits (R30). -/
def Servo.clamp (v : Servo) : Servo := { v with demand := v.clampTo v.demand }

/-- The automatic iris at the frame start of serial `n` (R41). -/
def Lnc.autoFrame (l : Lnc) (n : Serial) : Lnc :=
  match l.tileMean with
  | some (m, luma) =>
    if m == n - 1 && l.lens != .lost then { l with iris := { l.iris with demand := autoIris l.iris luma } } else l
  | none => l

/-- The iris at the frame start of serial `n` (R40, R41, R34). -/
def State.irisFrame (s : State) (n : Serial) : State :=
  if s.lnc.iris.released then s
  else if s.lnc.iris.auto then s.modifyLnc (fun l => l.autoFrame n)
  else match s.lnc.iris.move with
  | none => s
  | some m =>
    let s := s.modifyLnc (fun l =>
      { l with iris := { l.iris with demand := m.frame.2, move := some (m.frame.1.getD m) } })
    if m.frame.1.isNone then s.endMove .iris .late else s

/-- One axis's part of the demand record (R26). -/
def demandFor (released : Bool) (x : Nat) : Demand := if released then .hold else .position x

/-- The demand record is sent, and opens the report window of half a nominal period; the focal length is computed (R26,
R42). -/
def Lnc.sendDemand (l : Lnc) (n : Serial) (period : Nat) : Lnc :=
  { l with
    focal := focalLength l.curve l.latest
    focalSerial := n
    sent := some (n, { zoom := demandFor l.zoom.released l.zoom.demand, focus := demandFor l.focus.released l.focus.demand,
                       iris := demandFor l.iris.released l.iris.demand })
    window := some { serial := n, twiceLength := period } }

/-- LNC works on a frame start: it is enabled and the part is in RUN (R26). -/
def State.lncActs (s : State) (f : FrameStart) : Bool := f.inRun && s.pwc.inRun && s.pwc.enables.lnc

/-- The lens record is left with a frame start that a block has yet to act on (R29). -/
def FrameStart.leave (n : Serial) (r : LensRecord) (f : FrameStart) : FrameStart :=
  if f.serial == n then { f with lens := some r } else f

/-- LNC leaves the lens record of frame start `n` for the blocks that read it: STB, BFM and VOG (R29). -/
def State.leaveRecord (s : State) (n : Serial) : State :=
  let leave := FrameStart.leave n s.lensRecord
  { s with due := { s.due with stb := s.due.stb.map leave, bfm := s.due.bfm.map leave, vog := s.due.vog.map leave } }

/-- LNC acts on a frame start (R31). -/
def State.lncFrame (s : State) (f : FrameStart) : State :=
  if s.lncActs f then
    let s := s.windowExpires
    let s := ((s.driveFrame .zoom).driveFrame .focus).irisFrame f.serial
    (s.modifyLnc (fun l =>
      ({ l with zoom := l.zoom.clamp, focus := l.focus.clamp }).sendDemand f.serial s.ftb.rate.period)).leaveRecord f.serial
  else s

/-- LNC takes the oldest frame start it has yet to act on. -/
def State.lncStep (s : State) : State :=
  match s.due.lnc with
  | [] => s
  | f :: rest => ({ s with due := { s.due with lnc := rest } }).lncFrame f

/-- LNC_FRAME_START (R31). -/
def execLncFrameStart (s : State) : Result := s.act State.lncStep

/-- The lens record that the other blocks read at frame start `f` (R29). While LNC is disabled it is the one that LNC keeps, with
the stale flag set (R46, R158, R190), even where LNC acted on `f` before (DEDUCED, log entry 31). Otherwise it is the one that
LNC's action on `f` left with it; where LNC has yet to act on it, the one that LNC's action as things stand would leave (DEDUCED,
log entry 31); and where LNC does not act on it, the record as it stands. -/
def State.lensRecordFor (s : State) (f : FrameStart) : LensRecord :=
  if !s.pwc.enables.lnc then s.lensRecord
  else match f.lens with
  | some r => r
  | none => ((s.due.lnc.filter (fun g => olderOrSame g.serial f.serial)).foldl State.lncFrame s).lensRecord

/-! ## Rate and moves -/

/-- ZOOM_RATE and FOCUS_RATE (R32). -/
def State.takeRate (s : State) (d : Drive) (p : List Byte) : State × Answer :=
  match signedRangeAt p 0 1 (-127) 127 with
  | none => refuse s .badValue
  | some v =>
    if !s.pwc.inRun || (s.lnc.servo d).released || (v != 0 && s.lnc.lens == .lost) then refuse s .badState
    else
      let mode : ServoMode := if v == 0 then .idle else .rate v
      answerOk ((s.endMove d.axis .interrupted).modifyLnc (fun l => l.modifyServo d (fun x => { x with mode := mode }))) []

/-- ZOOM_RATE (R32). -/
def reqZoomRate (p : List Byte) (s : State) : State × Answer := s.takeRate .zoom p

/-- FOCUS_RATE (R32). -/
def reqFocusRate (p : List Byte) (s : State) : State × Answer := s.takeRate .focus p

/-- The frames that a drive's target needs at its top speed (R34 step 2). -/
def Servo.needs (v : Servo) (target : Nat) : Nat :=
  framesNeeded (distance v.demand (v.clampTo target)) (v.speeds[8]?.getD 0)

/-- A drive enters MOVE toward a target (R34 steps 1, 3 and 4). -/
def State.moveDrive (s : State) (d : Drive) (target duration : Nat) (origin : Origin) : State :=
  (s.endMove d.axis .interrupted).modifyLnc (fun l => l.modifyServo d (fun v =>
    let m : Move := { p0 := v.demand, p1 := v.clampTo target, duration := duration, phase := .ramp 0, origin := origin }
    { v with mode := .move m }))

/-- A target as reply bytes: the position used and whether it was clamped (R34). -/
def Servo.targetReply (v : Servo) (target : Nat) : List Byte := u16 (v.clampTo target) ++ flagByte (v.clampTo target != target)

/-- The axis set of LENS_GOTO: zoom in bit 0, focus in bit 1 (log entry 14). -/
def gotoAxes (p : List Byte) : Option (Bool × Bool) :=
  match num p 0 1 with
  | 1 => some (true, false)
  | 2 => some (false, true)
  | 3 => some (true, true)
  | _ => none

/-- LENS_GOTO (R34). The target field of an axis that is not named is not judged (DESIGN CHOICE, log entry 15). -/
def reqLensGoto (p : List Byte) (s : State) : State × Answer :=
  let zt := num p 1 2
  let ft := num p 3 2
  match gotoAxes p, rangeAt p 5 2 1 600 with
  | some (z, f), some t =>
    let l := s.lnc
    if (z && decide (4095 < zt)) || (f && decide (4095 < ft)) then refuse s .badValue
    else if !s.pwc.inRun || (z && l.zoom.released) || (f && l.focus.released) || l.lens == .lost then refuse s .badState
    else
      let used := max t (max (if z then l.zoom.needs zt else 0) (if f then l.focus.needs ft else 0))
      let s := if z then s.moveDrive .zoom zt used .goto else s
      let s := if f then s.moveDrive .focus ft used .goto else s
      answerOk s (presence 3 (if z then some (l.zoom.targetReply zt) else none) ++
        presence 3 (if f then some (l.focus.targetReply ft) else none) ++ u16 used ++ flagByte (used != t))
  | _, _ => refuse s .badValue

/-- LENS_STOP for zoom or focus (R38). -/
def State.stopDrive (s : State) (d : Drive) : State :=
  if (s.lnc.servo d).released then s
  else (s.endMove d.axis .interrupted).modifyLnc (fun l => l.modifyServo d (fun v =>
    { v with mode := .idle, demand := if l.reported then v.clampTo (l.reportedAt d) else v.demand }))

/-- LENS_STOP (R38). -/
def reqLensStop (_p : List Byte) (s : State) : State × Answer :=
  answerOk (((s.stopDrive .zoom).stopDrive .focus).endMove .iris .interrupted) []

/-! ## Presets -/

/-- The content of a stored preset as reply bytes. -/
def Preset.bytes (x : Preset) : List Byte := u16 x.zoom ++ u16 x.focus ++ optional 1 u8 x.iris

/-- A preset is stored (R37). -/
def State.storePreset (s : State) (i : Nat) (x : Preset) : State × Answer :=
  answerOk (s.modifyLnc (fun l => { l with presets := l.presets.set i (some x) })) x.bytes

/-- PRESET_STORE (R37). The explicit fields of a store from the report are not judged (DESIGN CHOICE, log entry 15). -/
def reqPresetStore (p : List Byte) (s : State) : State × Answer :=
  match rangeAt p 0 1 0 7, num p 1 1, flagAt p 2 with
  | some i, 0, some irisToo =>
    if s.lnc.lens != .present then refuse s .badState
    else
      s.storePreset i { zoom := s.lnc.latest.zoom, focus := s.lnc.latest.focus,
                        iris := if irisToo then some s.lnc.latest.iris else none }
  | some i, 1, some irisToo =>
    match rangeAt p 3 2 0 4095, rangeAt p 5 2 0 4095 with
    | some zoom, some focus =>
      s.storePreset i { zoom := zoom, focus := focus, iris := if irisToo then some (num p 7 1) else none }
    | _, _ => refuse s .badValue
  | _, _, _ => refuse s .badValue

/-- The iris starts the timed move of a recall (R36). -/
def State.moveIris (s : State) (target duration : Nat) (origin : Origin) : State :=
  (s.endMove .iris .interrupted).modifyLnc (fun l =>
    let m : Move := { p0 := l.iris.demand, p1 := target, duration := duration, phase := .ramp 0, origin := origin }
    { l with iris := { l.iris with auto := false, move := some m } })

/-- A valid preset is recalled (R36). -/
def State.recall (s : State) (i : Nat) (x : Preset) (t : Nat) : State × Answer :=
  let l := s.lnc
  let used := max t (max (l.zoom.needs x.zoom) (l.focus.needs x.focus))
  let s := (s.moveDrive .zoom x.zoom used (.recall i)).moveDrive .focus x.focus used (.recall i)
  let s := match x.iris with
    | some iris => s.moveIris iris used (.recall i)
    | none => s
  answerOk s (l.zoom.targetReply x.zoom ++ l.focus.targetReply x.focus ++ optional 1 u8 x.iris ++ u16 used ++
    flagByte (used != t))

/-- PRESET_RECALL (R36). -/
def reqPresetRecall (p : List Byte) (s : State) : State × Answer :=
  match rangeAt p 0 1 0 7, rangeAt p 1 2 1 600 with
  | some i, some t =>
    match (s.lnc.presets[i]?).join with
    | none => refuse s .badValue
    | some x =>
      if !s.pwc.inRun || s.lnc.lens == .lost || s.lnc.zoom.released || s.lnc.focus.released ||
          (x.iris.isSome && s.lnc.iris.released) then refuse s .badState
      else s.recall i x t
  | _, _ => refuse s .badValue

/-! ## Iris, curve and configuration -/

/-- The reply of IRIS_SET and IRIS_AUTO (R40). -/
def Iris.reply (i : Iris) : List Byte := flagByte i.auto ++ u8 i.demand

/-- The iris takes a new mode (R40). -/
def State.takeIris (s : State) (f : Iris → Iris) : State × Answer :=
  if !s.pwc.inRun || s.lnc.iris.released then refuse s .badState
  else
    let s := (s.endMove .iris .interrupted).modifyLnc (fun l => { l with iris := f l.iris })
    answerOk s s.lnc.iris.reply

/-- IRIS_SET (R40). -/
def reqIrisSet (p : List Byte) (s : State) : State × Answer :=
  s.takeIris (fun i => { i with auto := false, demand := num p 0 1 })

/-- IRIS_AUTO (R40). -/
def reqIrisAuto (p : List Byte) (s : State) : State × Answer :=
  match rangeAt p 1 1 0 16 with
  | none => refuse s .badValue
  | some deadband => s.takeIris (fun i => { i with auto := true, target := num p 0 1, deadband := deadband })

/-- ZOOM_CURVE_LOAD (R42). -/
def reqZoomCurveLoad (p : List Byte) (s : State) : State × Answer :=
  let knots := (List.range 17).map (fun i => num p (2 * i) 2)
  if knots.all (fun k => decide (100 ≤ k) && decide (k ≤ 32767)) then
    answerOk (s.modifyLnc (fun l => { l with curve := knots })) []
  else refuse s .badValue

/-- A speed table that decreases nowhere. -/
def neverFalls : List Nat → Bool
  | [] => true
  | [_] => true
  | x :: y :: rest => decide (x ≤ y) && neverFalls (y :: rest)

/-- The limits and the speed table of one drive in LENS_CONFIG (R43). -/
def configAt (p : List Byte) (first : Nat) : Option (Nat × Nat × List Nat) :=
  let least := num p first 2
  let greatest := num p (first + 2) 2
  let speeds := (List.range 9).map (fun i => num p (first + 4 + i) 1)
  if decide (greatest ≤ 4095) && decide (least < greatest) && neverFalls speeds && speeds[8]?.getD 0 != 0 then
    some (least, greatest, speeds)
  else none

/-- Zoom or focus takes its configuration (R43). -/
def Servo.configure (v : Servo) (c : Nat × Nat × List Nat) : Servo :=
  { v with least := c.1, greatest := c.2.1, speeds := c.2.2 }

/-- LENS_CONFIG (R43). -/
def reqLensConfig (p : List Byte) (s : State) : State × Answer :=
  match configAt p 0, configAt p 13 with
  | some z, some f => answerOk (s.modifyLnc (fun l => { l with zoom := l.zoom.configure z, focus := l.focus.configure f })) []
  | _, _ => refuse s .badValue

/-! ## Query -/

/-- The code of a lens state, in the order of R29. -/
def LensState.code : LensState → Nat
  | .unknown => 0
  | .present => 1
  | .lost => 2

/-- The mode and rate of zoom or focus as reply bytes (R44). -/
def ServoMode.bytes : ServoMode → List Byte
  | .idle => u8 0 ++ u8 0
  | .rate v => u8 1 ++ signedBytes 1 v
  | .move _ => u8 2 ++ u8 0

/-- Zoom or focus as reply bytes (R44). -/
def Servo.reply (v : Servo) : List Byte :=
  v.mode.bytes ++ flagByte v.released ++ u16 v.demand ++ u16 v.least ++ u16 v.greatest

/-- A move as reply bytes: p0, p1, T, k, phase and wait count (R44). An iris move's p0 and p1 take two bytes as the other axes' do
(DESIGN CHOICE, log entry 15). -/
def Move.reply (m : Move) : List Byte :=
  u16 m.p0 ++ u16 m.p1 ++ u16 m.duration ++
    (match m.phase with
     | .ramp k => u16 k ++ u8 0 ++ u8 0
     | .wait w => u16 m.duration ++ u8 1 ++ u8 w)

/-- The preset number of an origin, if it has one. -/
def Origin.preset : Origin → Option Nat
  | .goto => none
  | .recall n => some n

/-- A last-ending entry as reply bytes (R44). The iris's position takes two bytes as the other axes' do (DESIGN CHOICE, log entry
15). -/
def Ending.reply (e : Ending) : List Byte :=
  u8 e.status.code ++ u8 e.origin.code ++ optional 1 u8 e.origin.preset ++ u16 e.position ++ serialBytes e.serial

/-- The lens record as reply bytes (R44). -/
def LensRecord.reply (r : LensRecord) : List Byte :=
  u16 r.report.zoom ++ u16 r.report.focus ++ u8 r.report.iris ++ flagByte r.report.extender ++
    flagByte r.report.override.zoom ++ flagByte r.report.override.focus ++ flagByte r.report.override.iris ++
    u16 r.previousZoom ++ u16 r.focal ++ flagByte r.stale

/-- The tile mean record as reply bytes. -/
def tileMeanReply (x : Serial × Nat) : List Byte := serialBytes x.1 ++ u8 x.2

/-- The LENS_QUERY reply (R44). -/
def State.lensReply (s : State) : List Byte :=
  let l := s.lnc
  u8 l.lens.code ++ u8 l.misses ++ u16 l.totalMisses ++ s.lensRecord.reply ++ l.zoom.reply ++ l.focus.reply ++
    flagByte l.iris.auto ++ flagByte l.iris.released ++ u8 l.iris.demand ++ u8 l.iris.target ++ u8 l.iris.deadband ++
    optional 10 Move.reply (l.moveOf .zoom) ++ optional 10 Move.reply (l.moveOf .focus) ++
    optional 10 Move.reply (l.moveOf .iris) ++ optional 10 Ending.reply l.zoom.lastEnding ++
    optional 10 Ending.reply l.focus.lastEnding ++ optional 10 Ending.reply l.iris.lastEnding ++
    (l.presets.map (fun x => flagByte x.isSome)).flatten ++ optional 5 tileMeanReply l.tileMean

/-- LENS_QUERY (R44). -/
def reqLensQuery (p : List Byte) (s : State) : State × Answer :=
  match clearFlag p with
  | none => refuse s .badValue
  | some clear =>
    answerOk (if clear then s.modifyLnc (fun l => { l with totalMisses := 0 }) else s) s.lensReply

/-! ## Standby -/

/-- LNC's part of the entry into STANDBY (R45). -/
def State.haltLens (s : State) : State :=
  (s.endMoves .halted).modifyLnc (fun l => { l with zoom := l.zoom.idle, focus := l.focus.idle, window := none })

end Sys2Proof.Machine
end

