-- ==== Sys2Proof/Machine/Stabiliser.lean ====
section
/-! DEFINITION. The Stabiliser: the gyro port (R47 to R49), tile sets and the correlator (R50 to R53), the eight stages (R54 to
R59), the states (R60 to R62), the window record (R65), and its requests (R63, R64, R66, R67). -/

namespace Sys2Proof.Machine

/-- Changes STB's record. -/
def State.modifyStb (s : State) (f : Stb → Stb) : State := { s with stb := f s.stb }

/-- STB works: it is enabled and the part is in RUN. -/
def State.stbRuns (s : State) : Bool := s.pwc.inRun && s.pwc.enables.stb

/-- Changes both axes. -/
def Stb.mapAxes (b : Stb) (f : StabAxis → StabAxis) : Stb := { b with x := f b.x, y := f b.y }

/-! ## The gyro port -/

/-- A value joins an axis's running sum (R48). -/
def StabAxis.addSample (a : StabAxis) (x : Int) : StabAxis := { a with sum := sat32 (a.sum + x) }

/-- A raw sample joins both running sums, less the biases (R48). -/
def Stb.addSample (b : Stb) (yaw pitch : Int) : Stb :=
  { b with
    x := b.x.addSample (yaw - b.settings.biasX)
    y := b.y.addSample (pitch - b.settings.biasY)
    samples := b.samples + 1 }

/-- A good sample (R48, R49). -/
def Stb.goodSample (b : Stb) (yaw pitch : Int) : Stb :=
  let b := { b.addSample yaw pitch with lastGood := some (yaw, pitch), badRun := 0, goodRun := b.goodRun + 1 }
  if b.gyroFault && decide (100 ≤ b.goodRun) then { b with gyroFault := false } else b

/-- A bad sample joins the sums as the last good one, if there is one (R48). -/
def Stb.repeatSample (b : Stb) : Stb :=
  match b.lastGood with
  | some (yaw, pitch) => b.addSample yaw pitch
  | none => b

/-- A bad sample (R47 to R49); `status` is its status byte when it was answered. -/
def State.badSample (s : State) (status : Option Byte) : State :=
  let s := s.modifyStb (fun b =>
    { b.repeatSample with badSamples := bump16 b.badSamples, goodRun := 0, badRun := b.badRun + 1 })
  if !s.stb.gyroFault && decide (10 ≤ s.stb.badRun) then
    (s.modifyStb (fun b => { b with gyroFault := true, goodRun := 0 })).notify .gyroFault
      ((serialBytes s.ftb.serial).map some ++ [status] ++ (flagByte status.isSome).map some)
  else s

/-- A read falls due (R47): one still unanswered is a bad sample, and a new read starts. -/
def State.gyroDue (s : State) : State :=
  if s.stbRuns then
    let s := if s.stb.reading then s.badSample none else s
    s.modifyStb (fun b => { b with reading := true })
  else s

/-- GYRO_READ_DUE (R47). -/
def execGyroReadDue (s : State) : Result := s.act State.gyroDue

/-- An answer arrives (R47); one to no read in progress is discarded. -/
def State.gyroAnswered (s : State) (yaw pitch : Int) (status : Byte) : State :=
  if s.stbRuns && s.stb.reading then
    let s := s.modifyStb (fun b => { b with reading := false })
    if status == 0 then s.modifyStb (fun b => b.goodSample yaw pitch) else s.badSample (some status)
  else s

/-- GYRO_ANSWER (R48). -/
def execGyroAnswer (yaw pitch : BitVec 16) (status : Byte) (s : State) : Result :=
  s.act (fun s => s.gyroAnswered yaw.toInt pitch.toInt status)

/-! ## Tile sets -/

/-- An accepted set is placed with the correlator idle (R51). -/
def Stb.place (b : Stb) (t : TileSet) : Stb :=
  let pair := match b.newer with
    | some o => o.serial + 1 == t.serial
    | none => false
  { b with older := b.newer, newer := some t, correlating := pair }

/-- An accepted set is placed (R51). -/
def Stb.takeSet (b : Stb) (t : TileSet) : Stb :=
  if !b.correlating then b.place t
  else match b.waiting with
  | none => { b with waiting := some t }
  | some _ => { b with waiting := some t, droppedSets := bump16 b.droppedSets }

/-- The set that a new one must be newer than (R50): the waiting set alone when there is one (DESIGN CHOICE, log entry 49). -/
def Stb.lastSet (b : Stb) : Option TileSet :=
  match b.waiting with
  | some t => some t
  | none => b.newer

/-- A set is accepted (R50). -/
def State.acceptsSet (s : State) (t : TileSet) : Bool :=
  t.pixels.length == 9216 && !newer t.serial s.ftb.serial &&
    (match s.stb.lastSet with
     | some o => newer t.serial o.serial
     | none => true)

/-- LNC notes the mean luma of an accepted set (R41). -/
def State.noteMean (s : State) (t : TileSet) : State :=
  if s.pwc.enables.lnc then s.modifyLnc (fun l => { l with tileMean := some (t.serial, tileMeanOf t.pixels) }) else s

/-- A tile set's delivery completes (R50). -/
def State.tileSet (s : State) (t : TileSet) : State :=
  if !s.stbRuns then s
  else if s.acceptsSet t then (s.modifyStb (fun b => b.takeSet t)).noteMean t
  else s.modifyStb (fun b => { b with rejectedSets := bump16 b.rejectedSets })

/-- TILE_SET_COMPLETE (R50). -/
def execTileSetComplete (serial : Serial) (pixels : List Byte) (s : State) : Result :=
  s.act (fun s => s.tileSet { serial := serial, pixels := pixels })

/-! ## The correlator -/

/-- The rows of a tile set. -/
def tileRows (pixels : List Byte) : List (List Byte) :=
  (List.range 72).map (fun y => (pixels.drop (128 * y)).take 128)

/-- The sum of absolute differences along two rows. -/
def rowSad : List Byte → List Byte → Nat
  | x :: xs, y :: ys => distance x.toNat y.toNat + rowSad xs ys
  | _, _ => 0

/-- SAD(dx, dy) over the interior pixels; `i` is dx + 7 and `j` is dy + 4 (R52). -/
def sadAt (rowsA rowsB : List (List Byte)) (i j : Nat) : Nat :=
  (((rowsA.drop 4).take 64).zipWith (fun ra rb => rowSad ((ra.drop 7).take 114) ((rb.drop i).take 114))
    ((rowsB.drop j).take 64)).sum

/-- The 135 candidates in scan order (R52). -/
def candidatesOf (a b : List Byte) : List Candidate :=
  let rowsA := tileRows a
  let rowsB := tileRows b
  ((List.range 9).map (fun (j : Nat) => (List.range 15).map (fun (i : Nat) =>
    ({ dx := (i : Int) - 7, dy := (j : Int) - 4, sad := sadAt rowsA rowsB i j } : Candidate)))).flatten

/-- A candidate goes into an ascending list, before those of equal SAD that stand later in scan order. -/
def insertCandidate (c : Candidate) : List Candidate → List Candidate
  | [] => [c]
  | x :: rest => if c.sad ≤ x.sad then c :: x :: rest else x :: insertCandidate c rest

/-- Candidates in ascending SAD order, equal ones in scan order (R52). -/
def bySad (cs : List Candidate) : List Candidate := cs.foldr insertCandidate []

/-- The SAD of a candidate offset, absent outside the search range (R52). -/
def sadOf (cs : List Candidate) (dx dy : Int) : Option Nat :=
  (cs.find? (fun c => c.dx == dx && c.dy == dy)).map Candidate.sad

/-- The result record of a pair (R52). -/
def correlate (a b : TileSet) : CorrResult :=
  let cs := candidatesOf a.pixels b.pixels
  let best := (bySad cs).take 4
  let dx := (best.head?.map Candidate.dx).getD 0
  let dy := (best.head?.map Candidate.dy).getD 0
  { older := a.serial, newer := b.serial, best := best, mean := (cs.map Candidate.sad).sum / 135,
    left := sadOf cs (dx - 1) dy, right := sadOf cs (dx + 1) dy, up := sadOf cs dx (dy - 1), down := sadOf cs dx (dy + 1),
    used := false }

/-- The record held has not been taken by a frame start. -/
def Stb.unusedResult (b : Stb) : Bool :=
  match b.result with
  | some r => !r.used
  | none => false

/-- A correlation ends (R53), and a waiting set is placed (R51). With the correlator idle, none ends. -/
def Stb.correlated (b : Stb) : Stb :=
  match b.correlating, b.older, b.newer with
  | true, some o, some n =>
    let dropped := if b.unusedResult then bump16 b.droppedResults else b.droppedResults
    let b := { b with result := some (correlate o n), correlating := false, droppedResults := dropped }
    (match b.waiting with
     | some t => { b with waiting := none }.place t
     | none => b)
  | _, _, _ => b

/-- CORRELATION_COMPLETE (R53). -/
def execCorrelationComplete (s : State) : Result := s.act (fun s => s.modifyStb Stb.correlated)

/-! ## The stages -/

/-- The result available to frame start `f`, with the record marked (R54). An unused record of a pair newer than `f` gives no result
and stays unused, as one of `f` itself does (DESIGN CHOICE, log entry 50). -/
def Stb.takeResult (b : Stb) (f : Serial) : Option CorrResult × Stb :=
  match b.result with
  | none => (none, b)
  | some r =>
    if r.used then (none, b)
    else if r.newer == f - 1 || r.newer == f - 2 then (some r, { b with result := some { r with used := true } })
    else if Sys2Proof.Machine.older r.newer (f - 2) then
      (none, { b with result := some { r with used := true }, droppedResults := bump16 b.droppedResults })
    else (none, b)

/-- Stage 2: the gain K (R55). -/
def gainOf (focal pitch : Nat) : Nat := (roundDiv ((focal : Int) * 51472) (720 * pitch)).toNat

/-- Stage 1: the gyro angle (R54). -/
def StabAxis.angleOf (a : StabAxis) (invert : Bool) : Int := sat32 (if invert then -a.sum else a.sum)

/-- Stage 3: the gyro shift (R56). -/
def gyroShiftOf (angle : Int) (gain : Nat) : Int := sat32 (roundDiv (angle * gain) 16384)

/-- The sub-tile fraction of stage 4 (R57): 0 at the edge of the search range, where a neighbour is absent. -/
def fraction (best : Nat) (before after : Option Nat) : Int :=
  match before, after with
  | some p, some n =>
    let denom : Int := (p : Int) - 2 * best + n
    if denom ≤ 0 then 0 else saturate (-8) 8 (roundDiv (8 * ((p : Int) - n)) denom)
  | _, _ => 0

/-- Stage 4: the correlator vectors on x and y (R57); 0 without a result. -/
def vectorsOf (r : Option CorrResult) (decimation : Nat) : Int × Int :=
  match r with
  | none => (0, 0)
  | some r =>
    match r.best with
    | [] => (0, 0)
    | b :: _ =>
      ((16 * b.dx + fraction b.sad r.left r.right) * decimation, (16 * b.dy + fraction b.sad r.up r.down) * decimation)

/-- Test 5 of the trust test: the second candidate is a neighbour of the best, or clearly worse (R58). -/
def CorrResult.distinct (r : CorrResult) : Bool :=
  match r.best with
  | b :: c :: _ =>
    (decide ((c.dx - b.dx).natAbs ≤ 1) && decide ((c.dy - b.dy).natAbs ≤ 1)) || decide (b.sad + b.sad / 8 ≤ c.sad)
  | _ => true

/-- Stage 5: the trust test (R58): none when the result is trusted. -/
def distrustOf (r : Option CorrResult) (lens : LensRecord) : Option Distrust :=
  match r with
  | none => some .noResult
  | some r =>
    let best := (r.best.head?.map Candidate.sad).getD 0
    if 32 < distance lens.report.zoom lens.previousZoom then some .zoomMoving
    else if r.mean = 0 then some .flat
    else if 3 * r.mean < 4 * best then some .weak
    else if !r.distinct then some .ambiguous
    else none

/-- Stage 6: the measured shift (R58). -/
def blend (fault trusted : Bool) (g v : Int) : Int :=
  match fault, trusted with
  | false, true => sat32 (g + roundDiv (v - g) 4)
  | false, false => sat32 g
  | true, true => sat32 v
  | true, false => 0

/-- Stages 1 to 6 on one axis; a new running sum begins (R48). -/
def StabAxis.measure (a : StabAxis) (invert : Bool) (gain : Nat) (v : Int) (fault trusted : Bool) : StabAxis :=
  let angle := a.angleOf invert
  let g := gyroShiftOf angle gain
  { a with sum := 0, angle := angle, gyroShift := g, vector := v, measured := blend fault trusted g v }

/-- Stages 1 to 6 of frame start `f` (R54 to R58). -/
def Stb.measure (b : Stb) (f : Serial) (lens : LensRecord) : Stb :=
  let taken := b.takeResult f
  let b := taken.2
  let v := vectorsOf taken.1 b.settings.decimation
  let distrust := distrustOf taken.1 lens
  let gain := gainOf lens.focal b.settings.pitch
  { b with
    x := b.x.measure b.settings.invertX gain v.1 b.gyroFault distrust.isNone
    y := b.y.measure b.settings.invertY gain v.2 b.gyroFault distrust.isNone
    samples := 0, gain := gain, focal := lens.focal, distrust := distrust }

/-- Stage 7: the crop offset before clamping, with leak factor `leak` (R59). -/
def StabAxis.accumulated (a : StabAxis) (leak : Int) : Int := a.c - roundDiv (a.c * leak) 256 + a.measured

/-- Stage 8 saturates the axis (R59). -/
def StabAxis.clamps (a : StabAxis) (leak : Int) (margin : Nat) : Bool :=
  decide (16 * (margin : Int) < (a.accumulated leak).natAbs)

/-- Stages 7 and 8 on one axis (R59). -/
def StabAxis.move (a : StabAxis) (leak : Int) (margin : Nat) : StabAxis :=
  { a with c := saturate (-(16 * (margin : Int))) (16 * margin) (a.accumulated leak), clampedLast := a.clamps leak margin }

/-- STAB_EDGE for an axis clamped afresh, with the sign of the clamp, which is that of the offset before it (R59). -/
def State.reportEdge (s : State) (before after : StabAxis) (leak : Int) (axis : Nat) (serial : Serial) : State :=
  if after.clampedLast && !before.clampedLast then
    s.report .stabEdge (u8 axis ++ u8 (if before.accumulated leak < 0 then 1 else 0) ++ serialBytes serial)
  else s

/-- Stages 7 and 8 on both axes (R59). -/
def State.moveCrop (s : State) (leak : Int) (serial : Serial) : State :=
  let b := s.stb
  let x := b.x.move leak b.settings.marginX
  let y := b.y.move leak b.settings.marginY
  ((s.modifyStb (fun b => { b with x := x, y := y })).reportEdge b.x x leak 0 serial).reportEdge b.y y leak 1 serial

/-! ## The states -/

/-- The pan counters start afresh (R60). -/
def Stb.freshPan (b : Stb) : Stb := { b.mapAxes (fun a => { a with swing := 0, clampCount := 0 }) with quiet := 0 }

/-- The pan counters of one axis after stage 8 in ACTIVE (R61). -/
def StabAxis.countPan (a : StabAxis) (threshold : Nat) : StabAxis :=
  let positive := decide (0 ≤ a.measured)
  let a :=
    if threshold ≤ a.measured.natAbs then
      if positive == a.swingPositive then { a with swing := a.swing + 1 } else { a with swing := 1, swingPositive := positive }
    else { a with swing := 0 }
  { a with clampCount := if a.clampedLast then a.clampCount + 1 else 0 }

/-- An axis's counters have reached the pan entry (R61). -/
def StabAxis.pans (a : StabAxis) : Bool := decide (8 ≤ a.swing) || decide (4 ≤ a.clampCount)

/-- The end of a frame in ACTIVE (R61). -/
def Stb.judgePan (b : Stb) : Stb :=
  let b := b.mapAxes (fun a => a.countPan b.settings.panThreshold)
  if b.x.pans || b.y.pans then { b.freshPan with state := .panning } else b

/-- The measured shift is below half the threshold (R61). -/
def StabAxis.isQuiet (a : StabAxis) (threshold : Nat) : Bool := decide (2 * a.measured.natAbs < threshold)

/-- The end of a frame in PANNING (R61). -/
def Stb.judgeQuiet (b : Stb) : Stb :=
  let t := b.settings.panThreshold
  let quiet := if b.x.isQuiet t && b.y.isQuiet t then b.quiet + 1 else 0
  if 16 ≤ quiet then { b.freshPan with state := .active } else { b with quiet := quiet }

/-- No axis was clamped in this frame (R59). -/
def Stb.unclamped (b : Stb) : Stb := b.mapAxes (fun a => { a with clampedLast := false })

/-- SETTLING is entered (R60). -/
def Stb.settleIn (b : Stb) : Stb := { b with state := .settling, settle := 8 }

/-- A frame start in SETTLING (R60). -/
def Stb.settleFrame (b : Stb) : Stb :=
  let b := { b with settle := b.settle - 1 }
  if b.settle = 0 then { b.freshPan with state := .active } else b

/-- The decay of RETURNING on one axis (R62). -/
def StabAxis.decay (a : StabAxis) : StabAxis := { a with c := a.c - roundDiv (a.c * 64) 256 }

/-- A frame start in RETURNING (R62). -/
def Stb.returnFrame (b : Stb) : Stb :=
  let b := b.mapAxes StabAxis.decay
  if b.x.c.natAbs < 16 && b.y.c.natAbs < 16 then
    let b := b.mapAxes (fun a => { a with c := 0 })
    if b.followSettling then b.settleIn else { b with state := .off }
  else b

/-- The crop offset and the state move on, after stage 6 (R59 to R62). -/
def State.stabMoves (s : State) (serial : Serial) : State :=
  match s.stb.state with
  | .off => s.modifyStb Stb.unclamped
  | .settling => s.modifyStb (fun b => b.unclamped.settleFrame)
  | .returning => s.modifyStb (fun b => b.unclamped.returnFrame)
  | .active => (s.moveCrop 2 serial).modifyStb Stb.judgePan
  | .panning => (s.moveCrop 32 serial).modifyStb Stb.judgeQuiet

/-! ## The window record -/

/-- The window record of an enabled STB (R65). -/
def Stb.windowRecord (b : Stb) (serial : Serial) : WindowRecord :=
  { serial := serial, cx := b.x.c, cy := b.y.c, state := b.state, trusted := b.distrust.isNone, gyroFault := b.gyroFault,
    clampedX := b.x.clampedLast, clampedY := b.y.clampedLast, noMeasure := b.gyroFault && b.distrust.isSome }

/-- The window record of a disabled STB (R65). -/
def WindowRecord.disabled (serial : Serial) : WindowRecord :=
  { serial := serial, cx := 0, cy := 0, state := .off, trusted := false, gyroFault := false, clampedX := false,
    clampedY := false, noMeasure := false }

/-- The window record is sent to the image side and handed to BFM (R91) and to VOG (R158). -/
def State.sendWindow (s : State) (w : WindowRecord) : State :=
  { s with
    stb := { s.stb with sent := some w }
    bfm := s.bfm.modifyEntry w.serial (fun e => { e with window := some w })
    vog := if s.pwc.enables.vog then { s.vog with window := some w } else s.vog }

/-- An outstanding frame start that an enable of STB finds: STB does no work at it (R190), and sends the window record of a disabled
block (R65). -/
def FrameStart.beforeStb (f : FrameStart) : FrameStart := { f with stbOff := true }

/-- STB acts on a frame start (R54, R65). At one that was outstanding when STB was enabled it sends what a disabled STB sends, the
zero record, and does nothing else (DEDUCED, log entry 33). -/
def State.stbFrame (s : State) (f : FrameStart) : State :=
  if !(f.inRun && s.pwc.inRun) then s
  else if !s.pwc.enables.stb || f.stbOff then s.sendWindow (.disabled f.serial)
  else
    let lens := s.lensRecordFor f
    let s := (s.modifyStb (fun b => b.measure f.serial lens)).stabMoves f.serial
    s.sendWindow (s.stb.windowRecord f.serial)

/-- STB takes the oldest frame start it has yet to act on. -/
def State.stbStep (s : State) : State :=
  match s.due.stb with
  | [] => s
  | f :: rest => ({ s with due := { s.due with stb := rest } }).stbFrame f

/-- STB_FRAME_START (R54). -/
def execStbFrameStart (s : State) : Result := s.act State.stbStep

/-! ## Requests -/

/-- The settings that STAB_CONFIG gives, or none for a bad value (R66). -/
def stabSettingsAt (p : List Byte) : Option StabSettings :=
  match rangeAt p 2 2 100 1000, rangeAt p 4 1 8 32, flagAt p 9, flagAt p 10, rangeAt p 11 2 16 4095 with
  | some pitch, some decimation, some invertX, some invertY, some threshold =>
    some { marginX := num p 0 1, marginY := num p 1 1, pitch := pitch, decimation := decimation, biasX := signedNum p 5 2,
           biasY := signedNum p 7 2, invertX := invertX, invertY := invertY, panThreshold := threshold }
  | _, _, _, _, _ => none

/-- STAB_CONFIG (R66). -/
def reqStabConfig (p : List Byte) (s : State) : State × Answer :=
  match stabSettingsAt p with
  | none => refuse s .badValue
  | some x =>
    if !s.pwc.inRun || s.stb.state != .off then refuse s .badState
    else answerOk (s.modifyStb (fun b => { b with settings := x })) []

/-- STAB_MODE on (R63). -/
def Stb.switchOn (b : Stb) : Stb :=
  match b.state with
  | .off => (b.mapAxes (fun a => { a with c := 0 })).settleIn
  | .settling => b
  | .active => b
  | .panning => b
  | .returning => b.settleIn

/-- RETURNING is entered with a follow-on state, or goes on with it (R63, R64). -/
def Stb.returnTo (b : Stb) (settling : Bool) : Stb := { b with state := .returning, followSettling := settling }

/-- STAB_MODE off (R63). -/
def Stb.switchOff (b : Stb) : Stb :=
  match b.state with
  | .off => b
  | .settling => b.returnTo false
  | .active => b.returnTo false
  | .panning => b.returnTo false
  | .returning => b.returnTo false

/-- STAB_MODE (R63). Its value is read as a flag: 1 on, 0 off (DESIGN CHOICE, log entry 15). -/
def reqStabMode (p : List Byte) (s : State) : State × Answer :=
  match flagAt p 0 with
  | none => refuse s .badValue
  | some on =>
    if !s.pwc.inRun then refuse s .badState
    else
      let s := s.modifyStb (fun b => if on then b.switchOn else b.switchOff)
      answerOk s (u8 s.stb.state.code)

/-- STAB_RECENTRE (R64). -/
def reqStabRecentre (_p : List Byte) (s : State) : State × Answer :=
  if !s.pwc.inRun || s.stb.state == .off then refuse s .badState
  else
    let s := s.modifyStb (fun b => b.returnTo true)
    answerOk s (u8 s.stb.state.code)

/-- A signed quantity of the 32-bit range as reply bytes. -/
def wide (x : Int) : List Byte := signedBytes 4 x

/-- A crop offset, within ±4,080, or a correlator vector, within ±3,840, as reply bytes (R57, R62, R194). -/
def narrow (x : Int) : List Byte := signedBytes 2 x

/-- One axis as reply bytes (R67). The sign of the swing count is a byte, 1 for negative (DESIGN CHOICE, log entry 15). -/
def StabAxis.reply (a : StabAxis) : List Byte :=
  narrow a.c ++ wide a.measured ++ wide a.gyroShift ++ narrow a.vector ++ wide a.angle ++ flagByte a.clampedLast ++ u8 a.swing ++
    flagByte (!a.swingPositive) ++ u8 a.clampCount

/-- The code of a distrust reason, in the order of R58. -/
def Distrust.code : Distrust → Nat
  | .noResult => 0
  | .zoomMoving => 1
  | .flat => 2
  | .weak => 3
  | .ambiguous => 4

/-- A candidate of a result record as reply bytes. R52 names a candidate's SAD and its (dx, dy); the order dx, dy, SAD inside an
entry is the MODEL's choice (DESIGN CHOICE, log entry 15). -/
def Candidate.reply (c : Candidate) : List Byte := signedBytes 1 c.dx ++ signedBytes 1 c.dy ++ u32 c.sad

/-- The result record as reply bytes (R67). -/
def CorrResult.reply (r : CorrResult) : List Byte :=
  serialBytes r.older ++ serialBytes r.newer ++ (r.best.map Candidate.reply).flatten ++ u32 r.mean ++ optional 4 u32 r.left ++
    optional 4 u32 r.right ++ optional 4 u32 r.up ++ optional 4 u32 r.down ++ flagByte r.used

/-- The settings as reply bytes, in the order of R66. -/
def StabSettings.reply (x : StabSettings) : List Byte :=
  u8 x.marginX ++ u8 x.marginY ++ u16 x.pitch ++ u8 x.decimation ++ signedBytes 2 x.biasX ++ signedBytes 2 x.biasY ++
    flagByte x.invertX ++ flagByte x.invertY ++ u16 x.panThreshold

/-- The serial of a held set as reply bytes. -/
def setReply (t : Option TileSet) : List Byte := optional 4 (fun t => serialBytes t.serial) t

/-- A raw sample as reply bytes. -/
def sampleReply (x : Int × Int) : List Byte := signedBytes 2 x.1 ++ signedBytes 2 x.2

/-- The STAB_QUERY reply (R67). The trust decision is a flag byte, 1 for trusted and 0 for untrusted, and the two sample counts
take four bytes each (DESIGN CHOICE, log entry 15). -/
def Stb.queryReply (b : Stb) : List Byte :=
  u8 b.state.code ++ u8 b.settle ++ u8 (if b.followSettling then 1 else 0) ++ b.x.reply ++ b.y.reply ++ u8 b.quiet ++
    u16 b.gain ++ u16 b.focal ++ flagByte b.distrust.isNone ++ optional 1 (fun d => u8 d.code) b.distrust ++
    optional 57 CorrResult.reply b.result ++ setReply b.older ++ setReply b.newer ++ setReply b.waiting ++
    flagByte b.correlating ++ flagByte b.gyroFault ++ u32 b.badRun ++ u32 b.goodRun ++ optional 4 sampleReply b.lastGood ++
    u32 b.samples ++ u32 b.samples ++ u16 b.badSamples ++ u16 b.rejectedSets ++ u16 b.droppedSets ++
    u16 b.droppedResults ++ b.settings.reply

/-- STAB_QUERY (R67). -/
def reqStabQuery (p : List Byte) (s : State) : State × Answer :=
  match clearFlag p with
  | none => refuse s .badValue
  | some clear =>
    let body := s.stb.queryReply
    answerOk (if clear then
        s.modifyStb (fun b => { b with badSamples := 0, rejectedSets := 0, droppedSets := 0, droppedResults := 0 })
      else s) body

/-! ## Standby -/

/-- STB's part of the entry into STANDBY (R68). -/
def Stb.halt (b : Stb) : Stb :=
  { b.mapAxes (fun a => { a with sum := 0 }) with
    reading := false, correlating := false, older := none, newer := none, waiting := none, samples := 0
    result := b.result.map (fun r => { r with used := true }) }

/-- STB's part of the return to RUN (R68). -/
def Stb.wake (b : Stb) : Stb :=
  match b.state with
  | .off => b
  | .returning => b
  | .settling => b.settleIn
  | .active => b.settleIn
  | .panning => b.settleIn

end Sys2Proof.Machine
end

