-- ==== Sys2Proof/Machine/BufferManager.lean ====
section
/-! DEFINITION. The Buffer Manager's frame start (R90), the essence port (R93, R94), and its requests (R98, R99, R102, R104,
R105, R107, R109) with the Recorder's part of HOLD_RETAIN (R124). -/

namespace Sys2Proof.Machine

/-- Changes BFM's record. -/
def State.modifyBfm (s : State) (f : Bfm → Bfm) : State := { s with bfm := f s.bfm }

/-! ## The frame start -/

/-- The sound of a new entry: AWAITED while AUD is enabled, ABSENT otherwise (R90). -/
def State.newSound (s : State) : Sound := if s.pwc.enables.aud then .awaited else .absent .off

/-- The attachment queued for a serial. -/
def Bfm.attachmentFor (b : Bfm) (n : Serial) : Option (List Byte) := (b.attachments.find? (fun a => a.1 == n)).map Prod.snd

/-- The entry that a frame start creates (R90 step 2). -/
def State.newEntry (s : State) (f : FrameStart) : Entry :=
  { serial := f.serial, label := s.ftb.lookup f.serial, lens := s.lensRecordFor f, window := none, picture := .none,
    sound := { a := s.newSound, b := s.newSound }, attachment := s.bfm.attachmentFor f.serial, mark := s.bfm.nextMark,
    settings := { rate := s.ftb.rate, dropFrame := s.ftb.dropFrame, mode := s.ftb.mode } }

/-- The entry joins the table and takes its attachment and mark with it (R90 step 2). -/
def Bfm.addEntry (b : Bfm) (e : Entry) : Bfm :=
  { b with
    entries := b.entries ++ [e]
    attachments := b.attachments.filter (fun a => a.1 != e.serial)
    nextMark := none }

/-- Attachments whose serial has passed are discarded (R90 step 3). -/
def Bfm.discardPassed (b : Bfm) (n : Serial) : Bfm :=
  let passed := b.attachments.filter (fun a => older a.1 n)
  { b with
    attachments := b.attachments.filter (fun a => !older a.1 n)
    counts := { b.counts with auxLost := bump 65535 b.counts.auxLost passed.length } }

/-- A full table loses its oldest entry (R90 step 1). -/
def State.ageOldest (s : State) : State :=
  match s.bfm.entries with
  | [] => s
  | e :: rest => if 15 ≤ rest.length then s.abandon e .aged else s

/-- BFM acts on a frame start (R90). -/
def State.bfmFrame (s : State) (f : FrameStart) : State :=
  let s := s.modifyBfm (fun b => { b with taken := f.serial })
  if f.inRun && s.pwc.inRun then
    let s := s.ageOldest
    (s.modifyBfm (fun b => (b.addEntry (s.newEntry f)).discardPassed f.serial)).review
  else s.modifyBfm (fun b => { b.discardPassed f.serial with nextMark := none })

/-- BFM takes the oldest frame start it has yet to act on. -/
def State.bfmStep (s : State) : State :=
  match s.due.bfm with
  | [] => s
  | f :: rest => ({ s with due := { s.due with bfm := rest } }).bfmFrame f

/-- BFM_FRAME_START (R90). -/
def execBfmFrameStart (s : State) : Result := s.act State.bfmStep

/-! ## The essence port -/

/-- The port skips an access unit. -/
def State.skipPicture (s : State) (length : Nat) : State := s.modifyBfm (fun b => { b with port := .skip length })

/-- An entry has no picture yet. -/
def Entry.hasNoPicture (e : Entry) : Bool :=
  match e.picture with
  | .none => true
  | .arriving _ => false
  | .present _ => false

/-- An entry's picture is PRESENT. -/
def Entry.hasPicture (e : Entry) : Bool :=
  match e.picture with
  | .present _ => true
  | .none => false
  | .arriving _ => false

/-- R93 step 4: every older entry that has no picture is abandoned, the oldest first (DESIGN CHOICE, log entry 41). -/
def State.skipOlder (s : State) (serial : Serial) : State :=
  (s.bfm.entries.filter (fun e => older e.serial serial && e.hasNoPicture)).foldl (fun s e => s.abandon e .skipped) s

/-- R93 steps 5 and 6. -/
def State.beginPicture (s : State) (e : Entry) (length : Nat) (key : Bool) : State :=
  if 2097152 < length then (s.abandon e .tooLarge).skipPicture length
  else
    let (pages, b) := s.bfm.allocate (pagesOf length)
    let s := { s with bfm := b }
    match pages with
    | none => (s.abandon e .overflow).skipPicture length
    | some pages =>
      s.modifyBfm (fun b =>
        { b.modifyEntry e.serial (fun e => { e with picture := .arriving { key := key, length := length, pages := pages } })
          with port := .data e.serial 0 length })

/-- A header arrives at the essence port (R93). In DATA and SKIP no header is judged. -/
def State.essenceHeader (s : State) (serial : Serial) (length : Nat) (key : Bool) : State :=
  match s.bfm.port with
  | .data _ _ _ => s
  | .skip _ => s
  | .header =>
    let c := s.bfm.counts
    if newer serial s.bfm.taken then
      (s.modifyBfm (fun b => { b with counts := { c with future := bump16 c.future } })).skipPicture length
    else match s.bfm.entry serial with
    | none => (s.modifyBfm (fun b => { b with counts := { c with late := bump16 c.late } })).skipPicture length
    | some e =>
      if e.hasPicture then
        (s.modifyBfm (fun b => { b with counts := { c with duplicate := bump16 c.duplicate } })).skipPicture length
      else ((s.skipOlder serial).beginPicture e length key).review

/-- ESSENCE_HEADER (R93). -/
def execEssenceHeader (serial : Serial) (lengthLessOne : BitVec 24) (key : Bool) (s : State) : Result :=
  s.act (fun s => s.essenceHeader serial (lengthLessOne.toNat + 1) key)

/-- The picture has arrived whole. -/
def Picture.arrived : Picture → Picture
  | .arriving p => .present p
  | .present p => .present p
  | .none => .none

/-- The pages of an entry's picture. -/
def Bfm.picturePages (b : Bfm) (serial : Serial) : List Nat :=
  match b.entry serial with
  | some e => e.picture.pages
  | none => []

/-- Bytes fill the picture of an entry (R94). -/
def State.fillPicture (s : State) (serial : Serial) (placed remaining : Nat) (bytes : List Byte) : State :=
  let data := bytes.take remaining
  let s := { s with mem := s.mem.place (s.bfm.picturePages serial) placed data }
  if data.length < remaining then
    s.modifyBfm (fun b => { b with port := .data serial (placed + data.length) (remaining - data.length) })
  else
    ((s.modifyBfm (fun b =>
      { b.modifyEntry serial (fun e => { e with picture := e.picture.arrived }) with port := .header })).checkComplete
        serial).review

/-- Bytes arrive at the essence port (R94). In HEADER, bytes belong to no access unit. -/
def State.essenceData (s : State) (bytes : List Byte) : State :=
  match s.bfm.port with
  | .header => s
  | .data serial placed remaining => s.fillPicture serial placed remaining bytes
  | .skip remaining =>
    s.modifyBfm (fun b =>
      { b with port := if bytes.length < remaining then .skip (remaining - bytes.length) else .header })

/-- ESSENCE_DATA (R94). -/
def execEssenceData (bytes : List Byte) (s : State) : Result := s.act (fun s => s.essenceData bytes)

/-! ## Attachments, marks and depth -/

/-- An attachment goes to its serial's place (R98). -/
def insertAttachment (n : Serial) (data : List Byte) : List (Serial × List Byte) → List (Serial × List Byte)
  | [] => [(n, data)]
  | x :: rest => if older n x.1 then (n, data) :: x :: rest else x :: insertAttachment n data rest

/-- AUX_ATTACH (R98). The reply says first whether data were replaced and then how many attachments are queued (log entry
15). -/
def reqAuxAttach (p : List Byte) (s : State) : State × Answer :=
  let n := serialAt p 0
  let data := p.drop 4
  let queued := s.bfm.attachments
  let held := queued.any (fun a => a.1 == n)
  if data.isEmpty || !newer n s.ftb.serial then refuse s .badValue
  else if !held && decide (8 ≤ queued.length) then refuse s .full
  else
    let attachments := insertAttachment n data (queued.filter (fun a => a.1 != n))
    answerOk (s.modifyBfm (fun b => { b with attachments := attachments })) (flagByte held ++ u8 attachments.length)

/-- MARK_FRAME (R99). -/
def reqMarkFrame (p : List Byte) (s : State) : State × Answer :=
  let code := BitVec.ofNat 8 (num p 0 1)
  match flagAt p 1 with
  | none => refuse s .badValue
  | some true =>
    answerOk (s.modifyBfm (fun b => { b with nextMark := some code })) (presence 4 none ++ flagByte s.bfm.nextMark.isSome)
  | some false =>
    let n := serialAt p 2
    match s.bfm.entry n with
    | none => refuse s .badValue
    | some e =>
      answerOk (s.modifyBfm (fun b => b.modifyEntry n (fun e => { e with mark := some code })))
        (presence 4 (some (serialBytes n)) ++ flagByte e.mark.isSome)

/-- PREREC_CONFIG (R102). -/
def reqPrerecConfig (p : List Byte) (s : State) : State × Answer :=
  match rangeAt p 0 2 0 900 with
  | none => refuse s .badValue
  | some d =>
    if s.rcd.state != .standing || (decide (0 < d) && s.ftb.mode == .recRun) then refuse s .badState
    else
      let b := ({ s.bfm with depth := d }).ringRule
      answerOk { s with bfm := b } (u16 d ++ u16 (s.bfm.queue.length - b.queue.length))

/-! ## Hold windows -/

/-- The pages of some units. -/
def pagesIn (units : List RecUnit) : Nat := (units.map (fun u => u.pages.length)).sum

/-- The ring units with serials from `first` through `last` (R104): not older than `first` and not newer than `last`, so that a
serial exactly 2^31 from one of them counts as inside on that side (DESIGN CHOICE, log entry 45). -/
def RecUnit.ringIn (u : RecUnit) (first last : Serial) : Bool :=
  u.membership == .ring && !older u.serial first && !newer u.serial last

/-- A hold mark is placed, the marks ascending. -/
def RecUnit.addHold (u : RecUnit) (w : Nat) : RecUnit :=
  { u with holds := (List.range 4).filter (fun i => i == w || u.holds.contains i) }

/-- A hold mark is removed. -/
def RecUnit.dropHold (u : RecUnit) (w : Nat) : RecUnit := { u with holds := u.holds.filter (fun i => i != w) }

/-- The lowest-numbered invalid window (R104). -/
def Bfm.freeWindow (b : Bfm) : Option Nat := (List.range 4).find? (fun w => (b.windows[w]?).join.isNone)

/-- HOLD_SET's BAD_VALUE cases (R104). -/
def Bfm.holdBad (b : Bfm) (first last : Serial) : Bool :=
  match b.queue.getLast? with
  | none => true
  | some tail => newer first last || newer last tail.serial || !b.queue.any (fun u => u.ringIn first last)

/-- HOLD_SET is taken (R104). -/
def Bfm.holdSet (b : Bfm) (w : Nat) (first last : Serial) : Bfm :=
  { b.modifyUnits (fun u => u.ringIn first last) (fun u => u.addHold w) with
    windows := b.windows.set w (some { first := first, last := last }) }

/-- HOLD_SET (R104). -/
def reqHoldSet (p : List Byte) (s : State) : State × Answer :=
  let first := serialAt p 0
  let last := serialAt p 4
  let units := s.bfm.queue.filter (fun u => u.ringIn first last)
  if s.bfm.holdBad first last then refuse s .badValue
  else match s.bfm.freeWindow with
  | none => refuse s .full
  | some w =>
    if 12288 < s.bfm.heldPages + pagesIn (units.filter RecUnit.unheldRing) then refuse s .full
    else
      let b := s.bfm.holdSet w first last
      answerOk { s with bfm := b } (u8 w ++ u16 units.length ++ u16 (pagesIn units) ++ u16 b.heldPages)

/-- The units that carry a window's mark. -/
def Bfm.heldBy (b : Bfm) (w : Nat) : List RecUnit := b.queue.filter (fun u => u.holds.contains w)

/-- A window is cleared (R105). -/
def Bfm.clearWindow (b : Bfm) (w : Nat) : Bfm :=
  { b.modifyUnits (fun _ => true) (fun u => u.dropHold w) with windows := b.windows.set w none }

/-- HOLD_CLEAR (R105). -/
def reqHoldClear (p : List Byte) (s : State) : State × Answer :=
  match rangeAt p 0 1 0 3 with
  | none => refuse s .badValue
  | some w =>
    if (s.bfm.heldBy w).any (fun u => u.membership == .retain) then refuse s .busy
    else if (s.bfm.windows[w]?).join.isNone then answerOk s (flagByte true ++ u16 s.bfm.heldPages)
    else
      let b := s.bfm.clearWindow w
      answerOk { s with bfm := b } (flagByte false ++ u16 b.heldPages)

/-- The units of a window become the retained clip's (R107): the ones before the head lose the mark, the others become RETAIN,
owed on the primary slot. -/
def RecUnit.retainFrom (u : RecUnit) (w : Nat) (head : Serial) (primary : Side) : RecUnit :=
  if older u.serial head then u.dropHold w
  else { u with membership := .retain, progress := ({ a := .none, b := .none } : Two Progress).set primary .owed }

/-- BFM's part of a retention that is taken (R107). -/
def Bfm.retain (b : Bfm) (w : Nat) (head : Serial) (primary : Side) : Bfm :=
  (b.modifyUnits (fun u => u.holds.contains w) (fun u => u.retainFrom w head primary)).judgeWindows

/-- HOLD_RETAIN is taken (R124, R107, R125). -/
def State.takeRetain (s : State) (w : Nat) (window : HoldWindow) (head : Serial) : State :=
  let primary := s.rcd.primary
  let s := (s.beginClip .retained .retaining none).openFor primary
    { continuation := false, retained := true, mirrored := false } none
  let b := s.bfm.retain w head primary
  let kept := b.heldBy w
  let s := { s with bfm := b }
  let s := s.modifyClip (fun clip => { clip with head := some head, last := some window.last, claimed := kept.length })
  let s := s.reportRec .retainStarted 0 0
  s.closeCopy primary (match kept.getLast? with
    | some u => .unit u.serial
    | none => .nothing)

/-- The reply of HOLD_RETAIN (R124). -/
def State.retainReply (s : State) (head : Serial) : List Byte :=
  match s.rcd.clip with
  | some clip =>
    u16 clip.sequence ++ u16 (clip.copyNumber clip.primary) ++ serialBytes head ++
      u16 (s.bfm.queue.filter (fun u => u.membership == .retain)).length
  | none => []

/-- HOLD_RETAIN (R107, R124). -/
def reqHoldRetain (p : List Byte) (s : State) : State × Answer :=
  match rangeAt p 0 1 0 3 with
  | none => refuse s .badValue
  | some w =>
    match (s.bfm.windows[w]?).join, (s.bfm.heldBy w).find? (fun u => u.picture.key) with
    | some window, some head =>
      if s.rcd.state != .standing then refuse s .busy
      else match (s.slot s.rcd.primary).state with
      | .ready =>
        let s := s.takeRetain w window head.serial
        answerOk s (s.retainReply head.serial)
      | .full => refuse s .full
      | _ => refuse s .noCard
    | _, _ => refuse s .badValue

/-! ## Query -/

/-- The code of the essence port's state, in the order of R93. -/
def EssencePort.code : EssencePort → Nat
  | .header => 0
  | .data _ _ _ => 1
  | .skip _ => 2

/-- The first and the last of some serials as reply bytes, or the mark that there are none (R109): one presence flag before both
(DESIGN CHOICE, log entry 15). -/
def spanReply (serials : List Serial) : List Byte :=
  match serials.head?, serials.getLast? with
  | some x, some y => presence 8 (some (serialBytes x ++ serialBytes y))
  | _, _ => presence 8 none

/-- The count and the pages of some units as reply bytes. -/
def unitsReply (units : List RecUnit) : List Byte := u16 units.length ++ u16 (pagesIn units)

/-- The serials of a window as reply bytes. -/
def HoldWindow.bytes (w : HoldWindow) : List Byte := serialBytes w.first ++ serialBytes w.last

/-- A window as reply bytes: valid, first, last, units and pages (R109). An invalid window keeps no serials and shows zero bytes for
them (DESIGN CHOICE, log entry 15). -/
def Bfm.windowReply (b : Bfm) (w : Nat) : List Byte :=
  optional 8 HoldWindow.bytes (b.windows[w]?).join ++ unitsReply (b.heldBy w)

/-- The counts as reply bytes, in the order of R109. -/
def BfmCounts.reply (c : BfmCounts) : List Byte :=
  u16 c.future ++ u16 c.late ++ u16 c.duplicate ++ u16 c.tooLarge ++ u16 c.skipped ++ u16 c.aged ++ u16 c.overflow ++
    u16 c.depth ++ u16 c.shortage ++ u16 c.queueLimit ++ u16 c.start ++ u16 c.aborted ++ u16 c.cleared ++ u16 c.auxLost

/-- A unit belongs to a clip. -/
def RecUnit.isClip (u : RecUnit) : Bool := u.ofClip && u.membership != .retain

/-- The BUFFER_QUERY reply (R109). The four windows are a series of fixed length and stand without a count; the attachments are a
list and have one (DESIGN CHOICE, log entry 15). -/
def Bfm.queryReply (b : Bfm) : List Byte :=
  u16 b.free.count ++ u16 b.heldPages ++ u16 b.entryPages ++ u16 b.unitPages ++ u16 b.queue.length ++
    unitsReply (b.queue.filter (fun u => u.membership == .ring)) ++ unitsReply (b.queue.filter RecUnit.isClip) ++
    unitsReply (b.queue.filter (fun u => u.membership == .retain)) ++ u16 (b.queue.filter RecUnit.unheldRing).length ++
    spanReply (b.queue.map RecUnit.serial) ++ u8 b.entries.length ++ spanReply (b.entries.map Entry.serial) ++
    u8 b.port.code ++ u16 b.depth ++ flagByte b.gapPending ++ ((List.range 4).map b.windowReply).flatten ++
    counted (b.attachments.map (fun a => serialBytes a.1)) ++ optional 1 (fun (m : Byte) => [m]) b.nextMark ++ b.counts.reply

/-- BUFFER_QUERY (R109). -/
def reqBufferQuery (p : List Byte) (s : State) : State × Answer :=
  match clearFlag p with
  | none => refuse s .badValue
  | some clear =>
    answerOk (if clear then s.modifyBfm (fun b => { b with counts := .zero }) else s) s.bfm.queryReply

end Sys2Proof.Machine
end

