-- ==== Sys2Proof/Machine/Cards.lean ====
section
/-! DEFINITION. The card writers: the completion and the failure of commands and reads (R139, R140, R143, R144), the taking of
units (R126, R146), card insertion, removal and write protection (R138), and the requests of the slots (R149 to R154). -/

namespace Sys2Proof.Machine

/-! ## Completions -/

/-- A unit becomes WRITTEN on a slot (R143). -/
def RecUnit.written (u : RecUnit) (side : Side) : RecUnit :=
  if u.progress.get side == .owed then { u with progress := u.progress.set side .written } else u

/-- A card byte size joins the remaining-time list (R150). -/
def CardSlot.addSize (c : CardSlot) (size : Nat) : CardSlot :=
  let sizes := c.sizes ++ [size]
  { c with sizes := sizes.drop (sizes.length - 64) }

/-- A unit's last byte has been written on a slot (R143, R113). The copy's counts saturate at 4,294,967,295 (DESIGN CHOICE, log
entry 37). The report of a unit that has turned RING since this copy took it still counts among the units written (DESIGN CHOICE,
log entry 44). -/
def State.unitWritten (s : State) (side : Side) (serial : Serial) (size : Nat) : State :=
  let first := !s.bfm.queue.any (fun u => u.serial == serial && u.writtenSomewhere)
  let s := s.modifySlot side (fun c =>
    { c.addSize size with copy := c.copy.map (fun copy => { copy with written := bump32 copy.written }) })
  let s := s.modifyClip (fun clip =>
    { clip.modifyCopy side (fun copy => { copy with written := bump32 copy.written }) with
      written := if first then bump32 clip.written else clip.written })
  s.modifyUnits (fun u => u.serial == serial && u.ofClip) (fun u => u.written side)

/-- A progress command for a clip's entry is owed, or queued and not issued (R143). -/
def CardSlot.progressWaits (c : CardSlot) (clip : Nat) : Bool :=
  c.owed.contains (.progress clip) ||
    c.queue.any (fun x => x.kind == .catalogue (.progress clip) && c.inFlight != some x.id)

/-- An extent index block has been written (R143): the OPEN entry takes the counts of the completed blocks, and a progress
command is owed. -/
def CardSlot.indexWritten (c : CardSlot) (block : IndexBlock) : CardSlot :=
  match c.copy with
  | none => c
  | some copy =>
    let copy := { copy with
      doneUnits := copy.doneUnits + block.entries.length
      doneBlocks := copy.doneBlocks + 1
      doneEnd := (block.entries.getLast?.map (fun e => e.offset + e.size)).getD 0 }
    let c := { c with copy := some copy }
    let c := c.modifySummary (fun sum => sum.modifyEntry copy.clip (fun e =>
      if e.state == .opened then
        { e with frames := copy.doneUnits
                 extents := copy.doneBlocks + (if essenceBytes < copy.doneEnd then 1 else 0) }
      else e))
    if c.progressWaits copy.clip then c else { c with owed := c.owed ++ [.progress copy.clip] }

/-- The closing command of a copy has been written: the copy is CLOSED, and a RELAY clip forgets it (R143, R148, R113).
A retained clip keeps it, whatever the slot mode it began with (DEDUCED, log entry 23). -/
def State.copyClosed (s : State) (side : Side) : State :=
  let s := s.modifySlot side (fun c => { c with copy := none })
  s.modifyClip (fun clip =>
    if clip.mode == .relay && clip.kind == .normal then { clip with copies := clip.copies.set side none }
    else clip.modifyCopy side (fun copy => { copy with state := .closed }))

/-- The last write of a format has completed (R151). -/
def State.formatEnds (s : State) (side : Side) : State :=
  let s := s.modifySlot side (fun c =>
    { c with state := .ready
             summary := c.lastHeader.map (fun h => { header := h, entries := [], nextFree := 1 }) })
  (s.reportDone side 1 0).judgeNearFull side

/-- What the completion of a command does by its kind (R143). The count of entries recovered saturates at 65,535 (DESIGN CHOICE,
log entry 37). -/
def State.completed (s : State) (side : Side) (kind : CardCmdKind) : State :=
  match kind with
  | .essence _ ends => ends.foldl (fun s e => s.unitWritten side e.1 e.2) s
  | .index block => s.modifySlot side (fun c => c.indexWritten block)
  | .catalogue (.closing _) => s.copyClosed side
  | .catalogue (.rebuilt _) =>
    (s.modifySlot side (fun c => { c with rebuilt := c.rebuilt + 1, recovered := bump16 c.recovered })).recoverNext side
  | .catalogue .newHeader => s.formatEnds side
  | .catalogue (.opening _) => s
  | .catalogue (.progress _) => s
  | .catalogue .blankHeader => s
  | .catalogue (.freeSector _) => s

/-! ## Failures -/

/-- The causes of a failure (R144). -/
inductive FailCause where
  | error
  | timeout
deriving DecidableEq, Repr

/-- The kind of a failed command in CARD_FAULT (R195). -/
def CardCmdKind.faultCode : CardCmdKind → Nat
  | .essence _ _ => 1
  | .index _ => 2
  | .catalogue _ => 3

/-- The first sector of a read; a size read has none (log entry 1). -/
def CardRead.sector : CardRead → Option Nat
  | .size => none
  | .header => some 0
  | .entries sector => some sector
  | .index extent => some (extentSectors * extent)

/-- A slot in FAULT (R144 steps 1, 2 and 5): nothing is queued, in flight or read any longer. The summary is kept. -/
def CardSlot.faulted (c : CardSlot) (cause : FailCause) : CardSlot :=
  { c with
    state := .fault, queue := [], inFlight := none, owed := [], copy := none, reading := none, recovery := none, mounted := []
    errors := if cause == .error then bump16 c.errors else c.errors
    timeouts := if cause == .timeout then bump16 c.timeouts else c.timeouts }

/-- A command or a read fails (R144). -/
def State.cardFails (s : State) (side : Side) (kind : Nat) (sector : Option Nat) (cause : FailCause) : State :=
  let s := (s.modifySlot side (fun c => c.faulted cause)).slotLost side
  s.notify .cardFault
    ((u8 side.code ++ u8 kind ++ u8 (if cause == .error then 0 else 1)).map some ++
      (match sector with
       | some n => (u32 n).map some
       | none => [none, none, none, none]))

/-- The card answers the command in flight (R143, R144). Without one, the answer is ignored. -/
def State.commandAnswered (s : State) (side : Side) (status : CardStatus) : State :=
  match (s.slot side).flying, status with
  | none, _ => s
  | some cmd, .error => s.cardFails side cmd.kind.faultCode (some cmd.first) .error
  | some cmd, .ok =>
    let s := s.modifySlot side (fun c =>
      { c with queue := c.queue.filter (fun x => x.id != cmd.id), inFlight := none, completed := bump32 c.completed })
    ((s.completed side cmd.kind).runWriter side).review

/-- COMMAND_COMPLETE (R143). -/
def execCommandComplete (slot : Side) (status : CardStatus) (s : State) : Result :=
  s.act (fun s => s.commandAnswered slot status)

/-- The card answers the read of a mount or a recovery (R139, R140, R144). Without one, the answer is ignored. -/
def State.readAnswered (s : State) (side : Side) (answer : ReadAnswer) : State :=
  match (s.slot side).reading, answer with
  | none, _ => s
  | some read, .error => s.cardFails side 0 read.sector .error
  | some read, .done size bytes => s.cardRead side read size bytes

/-- CARD_READ_COMPLETE (R139). -/
def execCardReadComplete (slot : Side) (answer : ReadAnswer) (s : State) : Result :=
  s.act (fun s => s.readAnswered slot answer)

/-- No answer has come within 2 s (R144). Without a command in flight or a read, nothing was waited for. -/
def State.cardTimesOut (s : State) (side : Side) : State :=
  match (s.slot side).flying, (s.slot side).reading with
  | some cmd, _ => s.cardFails side cmd.kind.faultCode (some cmd.first) .timeout
  | none, some read => s.cardFails side 0 read.sector .timeout
  | none, none => s

/-- CARD_TIMEOUT (R144). -/
def execCardTimeout (slot : Side) (s : State) : Result := s.act (fun s => s.cardTimesOut slot)

/-! ## Taking units -/

/-- The Recorder's record of a copy follows the taking of a unit (R113, R126). The copy's count saturates at 4,294,967,295 (DESIGN
CHOICE, log entry 37). -/
def State.recordTaken (s : State) (side : Side) (serial : Serial) : State :=
  s.modifyClip (fun clip =>
    { clip.modifyCopy side (fun copy =>
        { copy with
          placed := bump32 copy.placed
          firstSerial := match copy.firstSerial with
            | some x => some x
            | none => some serial }) with
      newestPlaced := match clip.newestPlaced with
        | some x => some (if newer serial x then serial else x)
        | none => some serial })

/-- A writer takes the next unit of its copy, or finds its card at its end (R126, R146). -/
def State.takeNext (s : State) (side : Side) : State :=
  if !(s.slot side).takes then s
  else match s.nextUnit side with
  | none => s
  | some u =>
    if u.cardSize ≤ (s.slot side).capacity then ((s.takeUnit side u).recordTaken side u.serial).review
    else s.endOfCard side u.serial

/-- UNIT_TAKE (R146). -/
def execUnitTake (slot : Side) (s : State) : Result := s.act (fun s => s.takeNext slot)

/-! ## The card-detect and write-protect lines -/

/-- CARD_CHANGE (R138, R195). -/
def State.reportChange (s : State) (side : Side) (change : Nat) : State :=
  s.report .cardChange (u8 side.code ++ u8 change)

/-- A mount begins in RUN, and is deferred in STANDBY (R138, R155). A leftover command does not hold it up (DEDUCED, log entry
43). -/
def State.mountOrDefer (s : State) (side : Side) : State :=
  if s.pwc.inRun then s.modifySlot side CardSlot.beginMount
  else s.modifySlot side (fun c => { c with deferred := true })

/-- A debounced change of the card-detect line (R138). -/
def State.detectChanged (s : State) (side : Side) (present : Bool) : State :=
  let c := s.slot side
  if c.present == present then s
  else if c.state == .off then s.setSlot side { c with present := present }
  else if present then
    let s := s.setSlot side { c with present := true }
    if c.state == .absent then (s.mountOrDefer side).reportChange side 0 else s
  else ((s.setSlot side c.removed).slotLost side).reportChange side 1

/-- CARD_DETECT_CHANGE (R138). -/
def execCardDetectChange (slot : Side) (present : Bool) (s : State) : Result :=
  s.act (fun s => s.detectChanged slot present)

/-- A debounced change of the write-protect line (R138). -/
def State.protectChanged (s : State) (side : Side) (on : Bool) : State :=
  let c := s.slot side
  if c.protectOn == on then s
  else
    let s := s.setSlot side { c with protectOn := on }
    if on then
      if (c.state == .ready || c.state == .full) && !s.isTarget side then
        (s.modifySlot side (fun c => { c with state := .writeProtected })).reportChange side 2
      else s
    else if c.state == .writeProtected then (s.mountOrDefer side).reportChange side 3
    else s

/-- PROTECT_CHANGE (R138). -/
def execProtectChange (slot : Side) (on : Bool) (s : State) : Result :=
  s.act (fun s => s.protectChanged slot on)

/-! ## Requests -/

/-- The format number of a new header (R151). -/
def CardSlot.nextFormat (c : CardSlot) : Nat :=
  match c.lastHeader with
  | some h => if h.formatNumber < 4294967295 then h.formatNumber + 1 else 1
  | none => 1

/-- What a format writes, in order (R151). -/
def formatPlan : List CatPurpose :=
  .blankHeader :: (List.range 250).map (fun i => .freeSector (i + 1)) ++ [.newHeader]

/-- A format begins (R151). -/
def CardSlot.beginFormat (c : CardSlot) (label : List Byte) : CardSlot :=
  { c with
    state := .formatting
    summary := none
    nearFull := false
    lastHeader := some { label := label, extents := min 65535 (c.cardSectors / extentSectors), formatNumber := c.nextFormat }
    owed := c.owed ++ formatPlan }

/-- What becomes of CARD_FORMAT by the slot's state (R151). -/
inductive FormatJudgement where
  | taken
  | refused (status : Status)
deriving DecidableEq, Repr

/-- CARD_FORMAT is judged by the slot's state (R151). -/
def State.judgeFormat (s : State) (side : Side) : FormatJudgement :=
  let room := if (s.slot side).cardSectors / extentSectors < 2 then FormatJudgement.refused .badState else .taken
  if !s.pwc.inRun then .refused .badState
  else match (s.slot side).state with
  | .ready => if s.isTarget side then .refused .busy else room
  | .full => if s.isTarget side then .refused .busy else room
  | .unformatted => room
  | .mounting => .refused .busy
  | .recovering => .refused .busy
  | .formatting => .refused .busy
  | .writeProtected => .refused .badState
  | .fault => .refused .badState
  | .absent => .refused .noCard
  | .ejected => .refused .noCard
  | .off => .refused .blockOff

/-- CARD_FORMAT (R151). -/
def reqCardFormat (p : List Byte) (s : State) : State × Answer :=
  match sideAt p 0 with
  | none => refuse s .badValue
  | some side =>
    let label := field p 1 16
    if !label.all isCardChar then refuse s .badValue
    else match s.judgeFormat side with
    | .refused status => refuse s status
    | .taken => ((s.modifySlot side (fun c => c.beginFormat label)).runWriter side, { status := .accepted, body := [] })

/-- An ejected slot (R152): the summary goes, the queue is still written out. -/
def CardSlot.eject (c : CardSlot) : CardSlot :=
  { c with state := .ejected, summary := none, deferred := false, owed := [] }

/-- CARD_EJECT (R152). -/
def reqCardEject (p : List Byte) (s : State) : State × Answer :=
  match sideAt p 0 with
  | none => refuse s .badValue
  | some side =>
    if s.isTarget side then refuse s .busy
    else match (s.slot side).state with
    | .ready => answerOk (s.modifySlot side CardSlot.eject) []
    | .full => answerOk (s.modifySlot side CardSlot.eject) []
    | .writeProtected => answerOk (s.modifySlot side CardSlot.eject) []
    | .unformatted => answerOk (s.modifySlot side CardSlot.eject) []
    | .fault => answerOk (s.modifySlot side CardSlot.eject) []
    | .mounting => refuse s .busy
    | .recovering => refuse s .busy
    | .formatting => refuse s .busy
    | .absent => refuse s .noCard
    | .ejected => answerOk s []
    | .off => refuse s .blockOff

/-- The on-card flag of an entry: no CATALOGUE command for its sector waits (R137, R143). In FAULT the queue has been discarded, so
every entry shows it set (DEDUCED, log entry 47). -/
def CardSlot.onCard (c : CardSlot) (clip : Nat) : Bool :=
  !c.queue.any (fun x =>
    match x.kind with
    | .catalogue p => p.sector == entrySector clip
    | .essence _ _ => false
    | .index _ => false)

/-- The continues-from reference as reply bytes. -/
def CopyRef.bytes (r : CopyRef) : List Byte := r.label ++ u16 r.clip

/-- One entry of a CATALOGUE_READ reply (R153, R135). A valid flag stands before the first label and its user bits, whose bytes are
shown as the entry holds them, valid or not (DESIGN CHOICE, log entry 15). -/
def CardSlot.entryReply (c : CardSlot) (sum : Summary) (clip : Nat) : List Byte :=
  (match sum.entry clip with
   | some e =>
     u16 clip ++ u8 e.state.code ++ flagByte e.continuation ++ flagByte e.retained ++ flagByte e.mirrored ++ u16 e.start ++
       u16 e.extents ++ u32 e.frames ++ flagByte e.labelValid ++ e.label.bytes ++ u8 e.rateCode ++ flagByte e.dropFrame ++
       optional 18 CopyRef.bytes e.continues
   | none => u16 clip ++ List.replicate 42 0) ++
  flagByte (c.onCard clip)

/-- The CATALOGUE_READ reply (R153). -/
def CardSlot.catalogueReply (c : CardSlot) (sum : Summary) (first count : Nat) : List Byte :=
  sum.header.label ++ u16 sum.header.extents ++ u32 sum.header.formatNumber ++ u16 sum.nextFree ++ u16 sum.entries.length ++
    counted ((List.range count).map (fun i => c.entryReply sum (first + i)))

/-- CATALOGUE_READ (R153). -/
def reqCatalogueRead (p : List Byte) (s : State) : State × Answer :=
  match sideAt p 0, rangeAt p 1 2 1 999, rangeAt p 3 1 1 8 with
  | some side, some first, some count =>
    if 999 < first + count - 1 then refuse s .badValue
    else
      let c := s.slot side
      let answer := match c.summary with
        | some sum => answerOk s (c.catalogueReply sum first count)
        | none => refuse s .badState
      match c.state with
      | .ready => answer
      | .full => answer
      | .writeProtected => answer
      | .recovering => answer
      | .fault => answer
      | .mounting => refuse s .busy
      | .formatting => refuse s .busy
      | .absent => refuse s .noCard
      | .ejected => refuse s .noCard
      | .unformatted => refuse s .badState
      | .off => refuse s .blockOff
  | _, _, _ => refuse s .badValue

/-- CARD_CONFIG (R149). -/
def reqCardConfig (p : List Byte) (s : State) : State × Answer :=
  match sideAt p 0, rangeAt p 1 2 0 4096 with
  | some side, some threshold =>
    let s := (s.modifySlot side (fun c => { c with threshold := threshold })).judgeNearFull side
    let c := s.slot side
    answerOk s (u16 threshold ++ optional 2 (fun sum => u16 sum.freeExtents) c.summary ++ flagByte c.nearFull)
  | _, _ => refuse s .badValue

/-- The code of a copy state, in the order of R113. -/
def CopyState.code : CopyState → Nat
  | .writing => 0
  | .closing => 1
  | .closed => 2
  | .lost => 3

/-- The last unit of a copy as it is reported, or none (R154). -/
def LastUnit.serial : LastUnit → Option Serial
  | .unit x => some x
  | .unnamed => none
  | .nothing => none

/-- The copy is CLOSING once its last unit has been named (R148). -/
def WriterCopy.state (copy : WriterCopy) : CopyState :=
  if copy.last == .unnamed then .writing else .closing

/-- The current extent as reply bytes: extent, chunk and fill (R154), as they stand between two pieces of the writer's work
(DESIGN CHOICE, log entry 42). -/
def CurrentExtent.reply (cur : CurrentExtent) : List Byte :=
  u16 cur.chunk.extent ++ u8 cur.chunk.chunk ++ u32 cur.chunk.bytes.length

/-- The copy as reply bytes (R154). One presence flag stands before the current extent, its chunk and its fill (DESIGN CHOICE, log
entry 15). -/
def WriterCopy.reply (copy : WriterCopy) : List Byte :=
  u16 copy.clip ++ u8 copy.state.code ++ u16 copy.start ++ u16 copy.consumed ++
    optional 7 CurrentExtent.reply copy.current ++ u32 copy.placed ++ u32 copy.written ++
    optional 4 serialBytes copy.last.serial

/-- The code of a command's kind, in the order of R141. -/
def CardCmdKind.code : CardCmdKind → Nat
  | .essence _ _ => 0
  | .index _ => 1
  | .catalogue _ => 2

/-- A queued command as reply bytes (R154). -/
def CardSlot.commandReply (c : CardSlot) (x : CardCmd) : List Byte :=
  u8 x.kind.code ++ u32 x.first ++ u16 x.sectors ++ u8 x.kind.priority ++ u8 (x.depends.filter c.queued).length ++
    flagByte (c.inFlight == some x.id)

/-- The card summary as reply bytes (R154). -/
def Summary.reply (sum : Summary) : List Byte :=
  sum.header.label ++ u16 sum.header.extents ++ u32 sum.header.formatNumber ++ u16 sum.nextFree ++ u16 sum.freeExtents ++
    u16 sum.entries.length

/-- The CARD_QUERY reply (R154). One presence flag stands before the whole summary, and one before the whole copy (DESIGN CHOICE, log
entry 15). -/
def CardSlot.queryReply (c : CardSlot) (nominal : Nat) : List Byte :=
  u8 c.state.code ++ flagByte c.deferred ++ flagByte c.present ++ flagByte c.protectOn ++ optional 28 Summary.reply c.summary ++
    u16 c.threshold ++ flagByte c.nearFull ++ c.remainingBytes nominal ++ optional 28 WriterCopy.reply c.copy ++
    counted (c.queue.map c.commandReply) ++ u32 c.completed ++ u16 c.errors ++ u16 c.timeouts ++ u16 c.recovered

/-- CARD_QUERY (R154). -/
def reqCardQuery (p : List Byte) (s : State) : State × Answer :=
  match sideAt p 0, flagAt p 1 with
  | some side, some clear =>
    let c := s.slot side
    let s' := if clear then
        s.setSlot side { c with completed := 0, errors := 0, timeouts := 0, recovered := 0 }
      else s
    answerOk s' (c.queryReply s.ftb.rate.nominal)
  | _, _ => refuse s .badValue

end Sys2Proof.Machine
end

