-- ==== Sys2Proof/Machine/Clip.lean ====
section
/-! DEFINITION. The Recorder's own steps: its frame start (R112) and its requests SLOT_MODE (R114), REC_START (R117), REC_STOP
(R121) and REC_QUERY (R132). -/

namespace Sys2Proof.Machine

/-- The Recorder notes the serial of the oldest frame start it has yet to act on (R112). -/
def State.rcdStep (s : State) : State :=
  match s.due.rcd with
  | [] => s
  | f :: rest => { s with due := { s.due with rcd := rest }, rcd := { s.rcd with noted := f.serial } }

/-- RCD_FRAME_START (R112). -/
def execRcdFrameStart (s : State) : Result := s.act State.rcdStep

/-- The code of a slot mode, in the order of R114. -/
def SlotMode.code : SlotMode → Nat
  | .single => 0
  | .relay => 1
  | .mirror => 2

/-- SLOT_MODE (R114). -/
def reqSlotMode (p : List Byte) (s : State) : State × Answer :=
  match slotModeAt p 0, sideAt p 1 with
  | some mode, some primary =>
    if s.rcd.state != .standing then refuse s .badState
    else answerOk { s with rcd := { s.rcd with mode := mode, primary := primary } } (u8 mode.code ++ u8 primary.code)
  | _, _ => refuse s .badValue

/-- The clip number of a copy as reply bytes, or the mark that there is none. -/
def Clip.numberReply (clip : Clip) (side : Side) : List Byte :=
  optional 2 (fun (c : Copy) => u16 c.clip) (clip.copies.get side)

/-- The reply of REC_START (R117). -/
def Clip.startReply (clip : Clip) : List Byte :=
  u16 clip.sequence ++ clip.numberReply .a ++ clip.numberReply .b ++ optional 4 serialBytes clip.head

/-- REC_START (R117, R118). In RECORDING the OK reply carries the fields of R117 for the open clip (DESIGN CHOICE, log entry 15). -/
def reqRecStart (_p : List Byte) (s : State) : State × Answer :=
  let (s, status) := s.start .host s.rcd.noted
  if status == .ok then answerOk s ((s.rcd.clip.map Clip.startReply).getD []) else refuse s status

/-- REC_STOP (R121). E is given, behind a presence flag, when a stop fixed it now; in every other state it is absent, also where the
clip record holds an E (DESIGN CHOICE, log entry 15). -/
def reqRecStop (_p : List Byte) (s : State) : State × Answer :=
  let e := if s.rcd.state == .recording then some s.rcd.noted else none
  answerOk (s.stop s.rcd.noted) (optional 4 serialBytes e)

/-- The code of a start's source, in the order of R115. -/
def StartSource.code : StartSource → Nat
  | .host => 0
  | .line => 1
  | .trigger => 2
  | .latch => 3

/-- The code of a clip's kind, in the order of R113. -/
def ClipKind.code : ClipKind → Nat
  | .normal => 0
  | .retained => 1

/-- The code of an ending reason, in the order of R113 with none as 0. -/
def endReasonCode : Option EndReason → Nat
  | none => 0
  | some .stopped => 1
  | some .cardFull => 2
  | some .aborted => 3
  | some .retained => 4

/-- The last-start entry as reply bytes. -/
def LastStart.reply (l : LastStart) : List Byte := u8 l.source.code ++ u8 l.status.code ++ serialBytes l.serial

/-- The clip record as reply bytes (R132). The period number -1 as burst head, which a unit of the start serial itself gives, is shown
as 0 (DESIGN CHOICE, log entry 15). -/
def Clip.reply (clip : Clip) : List Byte :=
  u16 clip.sequence ++ u8 clip.kind.code ++ optional 4 serialBytes clip.start ++ optional 4 serialBytes clip.head ++
    optional 4 serialBytes clip.last ++ u8 (endReasonCode clip.reason) ++
    optional 4 (fun (h : Int) => u32 h.toNat) clip.burstHead ++ u32 clip.switches ++ u32 clip.claimed ++ u32 clip.written

/-- A copy as reply bytes (R132). -/
def Copy.reply (c : Copy) : List Byte :=
  u16 c.clip ++ c.label ++ u8 c.state.code ++ optional 4 serialBytes c.firstSerial ++ u32 c.placed ++ u32 c.written ++
    optional 18 CopyRef.bytes c.continues

/-- The ending counts as reply bytes. -/
def EndCounts.reply (c : EndCounts) : List Byte := u16 c.stopped ++ u16 c.cardFull ++ u16 c.aborted ++ u16 c.retained

/-- One copy of the clip record, if there is one. -/
def Rcd.copy (r : Rcd) (side : Side) : Option Copy := r.clip.bind (fun clip => clip.copies.get side)

/-- The REC_QUERY reply (R132). -/
def Rcd.queryReply (r : Rcd) : List Byte :=
  u8 r.state.code ++ u8 r.mode.code ++ u8 r.primary.code ++ flagByte r.latch ++ optional 6 LastStart.reply r.lastStart ++
    optional 36 Clip.reply r.clip ++ optional 51 Copy.reply (r.copy .a) ++ optional 51 Copy.reply (r.copy .b) ++
    u16 r.begun ++ r.endings.reply

/-- REC_QUERY (R132). -/
def reqRecQuery (p : List Byte) (s : State) : State × Answer :=
  match clearFlag p with
  | none => refuse s .badValue
  | some clear =>
    answerOk (if clear then { s with rcd := { s.rcd with endings := .zero } } else s) s.rcd.queryReply

end Sys2Proof.Machine
end

