-- ==== Sys2Proof/Machine/Viewfinder.lean ====
section
/-! DEFINITION. The Viewfinder Overlay Generator: the content of the items (R157, R158, R168), the choice of items (R164), the
overlay record and its link (R163, R165, R199), and its requests (R159 to R162). -/

namespace Sys2Proof.Machine

/-! ## Items -/

/-- The content of the timecode item (R158 slot 0). -/
def State.timecodeItem (s : State) (f : FrameStart) : List Byte :=
  (match s.ftb.lookup f.serial with
   | some h => h.label.time.bytes ++ flagByte h.valid ++ flagByte h.substituted
   | none => List.replicate 6 0) ++
  u8 s.ftb.mode.code ++ flagByte s.ftb.dropFrame

/-- The content of a card item (R158 slots 1 and 2). -/
def State.cardItem (s : State) (side : Side) : List Byte :=
  u8 (s.slot side).state.code ++ flagByte (s.isTarget side) ++ (s.slot side).remainingBytes s.ftb.rate.nominal

/-- The content of a meter item (R158 slots 3 to 6). -/
def State.meterItem (s : State) (pair : Side) (w : Which) : Option (List Byte) :=
  let p := s.aud.pairs.get pair
  let c := p.channel w
  if p.state == .off then none else some (u8 c.meter ++ u8 c.hold ++ flagByte (decide (0 < c.reduction)))

/-- The content of the zoom bar (R158 slot 7). -/
def State.zoomItem (s : State) (r : LensRecord) : List Byte :=
  u16 r.report.zoom ++ u16 s.lnc.zoom.least ++ u16 s.lnc.zoom.greatest ++ u16 r.focal ++ flagByte r.report.extender ++
    flagByte s.lnc.zoom.released ++ flagByte r.stale

/-- The content of the focus bar (R158 slot 8). -/
def State.focusItem (s : State) (r : LensRecord) : List Byte :=
  u16 r.report.focus ++ u16 s.lnc.focus.least ++ u16 s.lnc.focus.greatest ++ flagByte s.lnc.focus.released ++
    flagByte r.stale

/-- The content of the iris value (R158 slot 9). -/
def State.irisItem (s : State) (r : LensRecord) : List Byte :=
  u8 r.report.iris ++ flagByte s.lnc.iris.auto ++ flagByte s.lnc.iris.released ++ flagByte r.stale

/-- The content of the stabiliser marker (R158 slot 10). Its flags are five bytes in the order of R65 (DESIGN CHOICE, log entry
48). -/
def Vog.markerItem (v : Vog) : Option (List Byte) :=
  if !v.marker then none
  else
    let w := v.window.getD (.disabled 0)
    some (narrow w.cx ++ narrow w.cy ++ u8 w.state.code ++ flagByte w.trusted ++ flagByte w.gyroFault ++
      flagByte w.clampedX ++ flagByte w.clampedY ++ flagByte w.noMeasure)

/-- The content of the record state (R158 slot 11). The slots that are targets are two flag bytes, slot A's and slot B's (DESIGN
CHOICE, log entry 48). -/
def State.recordItem (s : State) : List Byte :=
  u8 s.rcd.state.code ++ u8 s.rcd.mode.code ++ u8 s.rcd.primary.code ++ flagByte (s.isTarget .a) ++
    flagByte (s.isTarget .b) ++ flagByte s.rcd.latch ++ u32 ((s.rcd.clip.map Clip.claimed).getD 0)

/-- The content of the alert line (R168). -/
def State.alertItem (s : State) : Option (List Byte) :=
  match s.vog.shown with
  | none => none
  | some src =>
    let st := s.lnk.source src
    let rotation := s.lnk.rotation
    let visible := st.level != 3 || s.vog.phaseOn
    some (u8 src.number ++ u8 st.level ++ u8 st.count ++ u8 (rotation.idxOf src + 1) ++ u8 rotation.length ++
      flagByte visible)

/-- The content of the interval indicator (R158 slot 15). -/
def State.intervalItem (s : State) (f : FrameStart) : Option (List Byte) :=
  match s.ftb.interval with
  | none => none
  | some iv =>
    let burst := (s.ftb.lookup f.serial).map HistoryEntry.burst
    some (iv.bytes ++ flagByte (burst.getD false) ++ u16 s.ftb.counter)

/-- The content of a system slot, where it is present (R158). -/
def State.systemItem (s : State) (f : FrameStart) (r : LensRecord) : Nat → Option (List Byte)
  | 0 => some (s.timecodeItem f)
  | 1 => some (s.cardItem .a)
  | 2 => some (s.cardItem .b)
  | 3 => s.meterItem .a .first
  | 4 => s.meterItem .a .second
  | 5 => s.meterItem .b .first
  | 6 => s.meterItem .b .second
  | 7 => some (s.zoomItem r)
  | 8 => some (s.focusItem r)
  | 9 => some (s.irisItem r)
  | 10 => s.vog.markerItem
  | 11 => some s.recordItem
  | 12 => s.alertItem
  | 13 => some []
  | 14 => some []
  | 15 => s.intervalItem f
  | _ => none

/-- The content of a host slot, where it is present (R157, R199). -/
def ItemSlot.hostItem (x : ItemSlot) : Option (List Byte) :=
  if x.text.isEmpty then none else some (u8 x.row ++ u8 x.column ++ u8 x.text.length ++ x.text)

/-- The item of a slot, if the slot is a candidate (R157). -/
def State.candidate (s : State) (f : FrameStart) (r : LensRecord) (i : Nat) : Option OverlayItem :=
  match s.vog.slots[i]? with
  | none => none
  | some x =>
    if !x.enabled then none
    else
      let content := if i < 16 then s.systemItem f r i else x.hostItem
      content.map (fun c => { slot := i, priority := x.priority, content := c })

/-- The candidate that is removed first among some: the lowest priority, then the highest slot number (R164). -/
def worst : List OverlayItem → Option OverlayItem
  | [] => none
  | x :: rest =>
    match worst rest with
    | none => some x
    | some y => if x.priority < y.priority then some x else some y

/-- Candidates in ascending slot order are reduced to 24 (R164). -/
def chooseItems : Nat → List OverlayItem → List OverlayItem
  | 0, items => items
  | fuel + 1, items =>
    if items.length ≤ 24 then items
    else match worst items with
    | some x => chooseItems fuel (items.filter (fun y => y.slot != x.slot))
    | none => items

/-- The overlay record of a frame start (R163 steps 3 and 4). -/
def State.overlay (s : State) (f : FrameStart) : Overlay :=
  let r := s.lensRecordFor f
  { serial := f.serial, zebra := s.vog.zebra, peaking := s.vog.peaking, blinkOn := s.vog.phaseOn,
    items := chooseItems 32 ((List.range 32).filterMap (fun i => s.candidate f r i)) }

/-- An item as bytes (R199). -/
def OverlayItem.bytes (x : OverlayItem) : List Byte := u8 x.slot ++ u8 x.priority ++ u8 x.content.length ++ x.content

/-- The overlay record as bytes (R199). -/
def Overlay.bytes (o : Overlay) : List Byte :=
  serialBytes o.serial ++ u8 o.zebra ++ u8 o.peaking ++ u8 (if o.blinkOn then 0 else 1) ++ u8 o.items.length ++
    (o.items.map OverlayItem.bytes).flatten

/-! ## The link -/

/-- A record is handed to the viewfinder link (R165). -/
def Vog.hand (v : Vog) (o : Overlay) : Vog :=
  match v.inFlight, v.waiting with
  | none, _ => { v with inFlight := some o }
  | some _, none => { v with waiting := some o }
  | some _, some _ => { v with waiting := some o, droppedRecords := bump16 v.droppedRecords }

/-- The record in flight has been sent to its last byte (R165). -/
def Vog.recordSent (v : Vog) : Vog :=
  match v.inFlight with
  | none => v
  | some _ => { v with inFlight := v.waiting, waiting := none }

/-- OVERLAY_SENT (R165). -/
def execOverlaySent (s : State) : Result := s.act (fun s => { s with vog := s.vog.recordSent })

/-- The blink counter advances (R163 step 1). -/
def Vog.advanceBlink (v : Vog) : Vog := { v with blink := if v.blink < 31 then v.blink + 1 else 0 }

/-- VOG acts on a frame start (R163). -/
def State.vogFrame (s : State) (f : FrameStart) : State :=
  if f.inRun && s.vogRuns then
    let s := { s with vog := s.vog.advanceBlink.moveAlert s.lnk.rotation (2 * s.ftb.rate.nominal) }
    { s with vog := s.vog.hand (s.overlay f) }
  else s

/-- VOG takes the oldest frame start it has yet to act on. -/
def State.vogStep (s : State) : State :=
  match s.due.vog with
  | [] => s
  | f :: rest => ({ s with due := { s.due with vog := rest } }).vogFrame f

/-- VOG_FRAME_START (R163). -/
def execVogFrameStart (s : State) : Result := s.act State.vogStep

/-! ## Requests -/

/-- Changes one item slot. -/
def State.setItem (s : State) (i : Nat) (x : ItemSlot) : State := { s with vog := { s.vog with slots := s.vog.slots.set i x } }

/-- An item slot. -/
def State.item (s : State) (i : Nat) : ItemSlot := s.vog.slots[i]?.getD (.afterReset i)

/-- VF_ITEM_SET (R160). -/
def reqVfItemSet (p : List Byte) (s : State) : State × Answer :=
  match rangeAt p 0 1 0 31, flagAt p 1, rangeAt p 2 1 0 7 with
  | some i, some enabled, some priority =>
    if !s.pwc.inRun then refuse s .badState
    else
      answerOk (s.setItem i { s.item i with enabled := enabled, priority := priority }) (flagByte enabled ++ u8 priority)
  | _, _, _ => refuse s .badValue

/-- Slots return to their reset values (R161). -/
def State.resetItems (s : State) (which : List Nat) : State :=
  which.foldl (fun s i => s.setItem i (.afterReset i)) s

/-- VF_ITEM_CLEAR (R161). -/
def reqVfItemClear (p : List Byte) (s : State) : State × Answer :=
  let x := num p 0 1
  if 31 < x && x != 255 then refuse s .badValue
  else if !s.pwc.inRun then refuse s .badState
  else
    let which := if x = 255 then (List.range 16).map (· + 16) else [x]
    answerOk (s.resetItems which) (u8 which.length)

/-- VF_TEXT (R159). -/
def reqVfText (p : List Byte) (s : State) : State × Answer :=
  let text := p.drop 3
  match rangeAt p 0 1 16 31, rangeAt p 1 1 0 15, rangeAt p 2 1 0 47 with
  | some i, some row, some column =>
    if !text.all isCardChar || decide (24 < text.length) || decide (48 < column + text.length) then refuse s .badValue
    else if !s.pwc.inRun then refuse s .badState
    else
      let x := { s.item i with row := row, column := column, text := text }
      answerOk (s.setItem i x)
        (u8 i ++ u8 row ++ u8 column ++ u8 text.length ++ flagByte x.enabled ++ u8 x.priority)
  | _, _, _ => refuse s .badValue

/-- A zebra level in range (R162). -/
def zebraOk (z : Nat) : Bool := z == 0 || (decide (50 ≤ z) && decide (z ≤ 109))

/-- VF_CONFIG (R162). -/
def reqVfConfig (p : List Byte) (s : State) : State × Answer :=
  let zebra := num p 0 1
  match rangeAt p 1 1 0 7, flagAt p 2 with
  | some peaking, some marker =>
    if !zebraOk zebra then refuse s .badValue
    else if !s.pwc.inRun then refuse s .badState
    else
      answerOk { s with vog := { s.vog with zebra := zebra, peaking := peaking, marker := marker } }
        (u8 zebra ++ u8 peaking ++ flagByte marker)
  | _, _ => refuse s .badValue

end Sys2Proof.Machine
end

