-- ==== Sys2Proof/Machine/Power.lean ====
section
/-! DEFINITION. The Power Controller: STANDBY and RUN (R186 to R188), block enables (R189, R190), resets (R191), the part status
(R192), and a press on the REC line (R115). -/

namespace Sys2Proof.Machine

/-- Changes PWC's record. -/
def State.modifyPwc (s : State) (f : Pwc → Pwc) : State := { s with pwc := f s.pwc }

/-- The code of a cause of a run-state change (R195). -/
def RunCause.code : RunCause → Nat
  | .request => 0
  | .recLine => 1

/-- The part status (R192). -/
def State.partStatus (s : State) : List Byte :=
  let e := s.pwc.enables
  u8 (if s.pwc.inRun then 0 else 1) ++ flagByte e.lnc ++ flagByte e.stb ++ flagByte e.aud ++ flagByte e.vog ++
    flagByte e.slots.a ++ flagByte e.slots.b ++ u8 s.pwc.lastReset.code ++ u8 s.pwc.lastRunChange.code ++
    u16 s.vog.droppedRecords

/-- POWER_STATE (R186, R188, R195). -/
def State.reportPower (s : State) : State :=
  s.report .powerState
    (u8 (if s.pwc.inRun then 0 else 1) ++ u8 s.pwc.lastRunChange.code ++ serialBytes s.ftb.serial)

/-! ## STANDBY and RUN -/

/-- A slot lets the part enter STANDBY: nothing queued or in flight, no mount, recovery or format (R186). -/
def CardSlot.isQuiet (c : CardSlot) : Bool :=
  c.queue.isEmpty && c.inFlight.isNone && c.state != .mounting && c.state != .recovering && c.state != .formatting

/-- The conditions of POWER_STANDBY (R186). -/
def State.mayStandBy (s : State) : Bool := s.rcd.state == .standing && s.slots.a.isQuiet && s.slots.b.isQuiet

/-- A frame start that a block has yet to act on finds the part in STANDBY. -/
def FrameStart.inStandby (f : FrameStart) : FrameStart := { f with inRun := false }

/-- Every outstanding frame start finds the part in STANDBY. -/
def Due.inStandby (d : Due) : Due :=
  { lnc := d.lnc.map .inStandby, stb := d.stb.map .inStandby, aud := d.aud.map .inStandby, bfm := d.bfm.map .inStandby,
    rcd := d.rcd.map .inStandby, vog := d.vog.map .inStandby }

/-- The part enters STANDBY (R186): every block acts as its chapter gives (R9, R45, R68, R85, R110, R155, R170). Where e already
reaches N at the entry, R9 does not say when the substituted start that is then due is made: none is made in this step, and the
timer stands due, so that the next cycle that passes, or SUBSTITUTION_TIMER, makes it (DESIGN CHOICE, log entry 53). R9 counts e from
the most recent frame start, and an edge absorbed in HOLDOVER since then has restarted it (R8): e goes on as it stands, from that
edge (DESIGN CHOICE, log entry 56). -/
def State.enterStandby (s : State) : State :=
  let s := s.modifyPwc (fun w => { w with inRun := false, lastRunChange := .request })
  let s := (s.setTimebase .standby).haltLens
  ({ s with
    stb := s.stb.halt
    bfm := s.bfm.clearAll
    vog := { s.vog with waiting := none }
    due := s.due.inStandby }).reportPower

/-- A deferred mount begins at the return to RUN (R155). -/
def CardSlot.wake (c : CardSlot) : CardSlot := if c.deferred then c.beginMount else c

/-- The part returns to RUN (R188): every block acts as its chapter gives (R9, R68, R85, R155). -/
def State.returnToRun (s : State) (cause : RunCause) : State :=
  let s := s.modifyPwc (fun w => { w with inRun := true, lastRunChange := cause })
  ({ s.setTimebase .acquire with
    stb := s.stb.wake
    aud := s.aud.restart
    slots := { a := s.slots.a.wake, b := s.slots.b.wake } }).reportPower

/-- POWER_STANDBY (R186). -/
def reqPowerStandby (_p : List Byte) (s : State) : State × Answer :=
  if !s.pwc.inRun then answerOk s s.partStatus
  else if !s.mayStandBy then refuse s .badState
  else
    let s := s.enterStandby
    answerOk s s.partStatus

/-- POWER_RUN (R188). -/
def reqPowerRun (_p : List Byte) (s : State) : State × Answer :=
  let s := if s.pwc.inRun then s else s.returnToRun .request
  answerOk s s.partStatus

/-- A press on the REC line (R115, R118, R188). -/
def State.press (s : State) : State :=
  if !s.pwc.inRun then s.returnToRun .recLine
  else match s.rcd.state with
  | .standing => s.startReported .line s.rcd.noted
  | .recording => s.stop s.rcd.noted
  | .closing => { s with rcd := { s.rcd with latch := true } }
  | .retaining => { s with rcd := { s.rcd with latch := true } }

/-- REC_LINE_PRESS (R115). -/
def execRecLinePress (s : State) : Result := s.act State.press

/-! ## Block enables -/

/-- The flags that BLOCK_ENABLE gives, or none for a bad value (R189). -/
def enablesAt (p : List Byte) : Option Enables :=
  match flagAt p 0, flagAt p 1, flagAt p 2, flagAt p 3, flagAt p 4, flagAt p 5 with
  | some lnc, some stb, some aud, some vog, some a, some b =>
    some { lnc := lnc, stb := stb, aud := aud, vog := vog, slots := { a := a, b := b } }
  | _, _, _, _, _, _ => none

/-- LNC is disabled, keeping its two reports, or enabled, from its power-on values (R46, R190; DEDUCED, log entry 13). -/
def State.switchLnc (s : State) (on : Bool) : State :=
  if on == s.pwc.enables.lnc then s
  else
    let s := s.modifyPwc (fun w => { w with enables := { w.enables with lnc := on } })
    { s with
      lnc := if on then .afterReset else .resetKeeping s.lnc.latest s.lnc.previous s.lnc.reported
      due := if on then { s.due with lnc := [] } else s.due }

/-- STB is disabled or enabled (R69). It begins its work at the next frame start (R190): those outstanding at an enable get the window
record of a disabled block (R65; DEDUCED, log entry 33). -/
def State.switchStb (s : State) (on : Bool) : State :=
  if on == s.pwc.enables.stb then s
  else
    let s := s.modifyPwc (fun w => { w with enables := { w.enables with stb := on } })
    { s with stb := .afterReset, due := if on then { s.due with stb := s.due.stb.map .beforeStb } else s.due }

/-- AUD is disabled, after its absence marks have been handed over, or enabled (R81, R86). In STANDBY nothing is handed
over. -/
def State.switchAud (s : State) (on : Bool) : State :=
  if on == s.pwc.enables.aud then s
  else
    let s := if !on && s.pwc.inRun then s.handOverOff else s
    let s := s.modifyPwc (fun w => { w with enables := { w.enables with aud := on } })
    { s with aud := .afterReset, due := if on then { s.due with aud := [] } else s.due }

/-- VOG is disabled or enabled (R170). -/
def State.switchVog (s : State) (on : Bool) : State :=
  if on == s.pwc.enables.vog then s
  else
    let s := s.modifyPwc (fun w => { w with enables := { w.enables with vog := on } })
    { s with vog := .afterReset, due := if on then { s.due with vog := [] } else s.due }

/-- A card writer at its power-on values, with the lines' debounced levels (R156, R138). -/
def CardSlot.enabled (c : CardSlot) : CardSlot :=
  { CardSlot.afterReset with present := c.present, protectOn := c.protectOn }

/-- A card writer is disabled or enabled (R156); a card present at an enable is mounted, or deferred in STANDBY. -/
def State.switchSlot (s : State) (side : Side) (on : Bool) : State :=
  if on == s.pwc.enables.slots.get side then s
  else
    let s := s.modifyPwc (fun w => { w with enables := { w.enables with slots := w.enables.slots.set side on } })
    if on then
      let s := s.modifySlot side CardSlot.enabled
      if (s.slot side).present then s.mountOrDefer side else s
    else s.modifySlot side CardSlot.disabled

/-- BLOCK_ENABLE (R189). The slots are switched first, so that a clip which AUD's last hand-overs end finds them as the request
leaves them (log entry 29). -/
def reqBlockEnable (p : List Byte) (s : State) : State × Answer :=
  match enablesAt p with
  | none => refuse s .badValue
  | some e =>
    if (!e.slots.a && s.isTarget .a) || (!e.slots.b && s.isTarget .b) then refuse s .badState
    else
      let s := (s.switchSlot .a e.slots.a).switchSlot .b e.slots.b
      let s := (((s.switchLnc e.lnc).switchStb e.stb).switchVog e.vog).switchAud e.aud
      answerOk s s.partStatus

/-! ## Resets -/

/-- The part while a reset lasts (R191): every block at its power-on values, nothing driven, nothing pending. -/
def State.hold (s : State) (cause : ResetCause) : State :=
  { State.started s.mem s.lnk.drawn cause 0 false false with
    pending := s.pending
    lnk := .held s.lnk.drawn
    pwc := { Pwc.afterReset cause with resetting := some cause } }

/-- PART_RESET is taken (R176, R191): LNK dispatches no further request, and the reset begins when the reply has been sent. -/
def reqPartReset (_p : List Byte) (s : State) : State × Answer :=
  answerOk { s with lnk := { s.lnk with resetTaken := true } } []

/-- POWER_ON_RESET (R191): the pin's reset is taken whatever the part is doing. -/
def execPowerOnReset (s : State) : Result := .next (s.hold .powerOn)

/-- The end of a reset (R191). -/
def State.endReset (s : State) (cause : ResetCause) (baud : Nat) (detectA detectB : Bool) : State :=
  { State.started s.mem s.lnk.drawn cause baud detectA detectB with pending := s.pending }

/-- The baud code of the strap table (R171). -/
def strapCode (strap1 strap0 : Bool) : Nat := packFlags [strap0, strap1]

/-- RESET_END (R191). With no reset in progress, none ends. -/
def execResetEnd (strap1 strap0 detectA detectB : Bool) (s : State) : Result :=
  match s.pwc.resetting with
  | none => .next s
  | some cause => .next (s.endReset cause (strapCode strap1 strap0) detectA detectB)

end Sys2Proof.Machine
end

