-- ==== Sys2Proof/Machine/NoticeRequests.lean ====
section
/-! DEFINITION. The requests that LNK owns: NOTICE_CONFIG (R181), NOTICE_MASK (R182), NOTICE_CLEAR (R183), NOTICE_QUERY (R184). -/

namespace Sys2Proof.Machine

/-- Changes LNK's record. -/
def State.modifyLnk (s : State) (f : Lnk → Lnk) : State := { s with lnk := f s.lnk }

/-- A set of routes as a number (R194). -/
def Routes.code (r : Routes) : Nat := packFlags [r.host, r.vf, r.tally]

/-- The routes of a number, 0 to 7 (R194). -/
def routesOf (x : Nat) : Routes := { host := inSet x 0, vf := inSet x 1, tally := inSet x 2 }

/-- NOTICE_CONFIG (R181). -/
def reqNoticeConfig (p : List Byte) (s : State) : State × Answer :=
  match allSources[num p 0 1]?, flagAt p 1, rangeAt p 2 1 0 3, rangeAt p 3 1 0 7 with
  | some src, some enabled, some level, some routes =>
    let s := s.modifyLnk (fun lnk => lnk.modifySource src (fun st =>
      { st with enabled := enabled, level := level, routes := routesOf routes }))
    answerOk s (flagByte enabled ++ u8 level ++ u8 routes ++ flagByte (s.lnk.source src).pending)
  | _, _, _, _ => refuse s .badValue

/-- NOTICE_MASK (R182). -/
def reqNoticeMask (p : List Byte) (s : State) : State × Answer :=
  match rangeAt p 0 1 0 3 with
  | none => refuse s .badValue
  | some mask =>
    let s := s.modifyLnk (fun lnk => { lnk with mask := mask })
    answerOk s (u8 mask ++ u8 (allSources.filter s.lnk.qualifies).length)

/-- A set of sources as a number (R194). -/
def sourceSet (srcs : List Source) : Nat := (srcs.map (fun src => 2 ^ src.number)).sum

/-- The sources named are cleared (R183). -/
def Lnk.clearAll (lnk : Lnk) (srcs : List Source) : Lnk :=
  srcs.foldl (fun lnk src => lnk.modifySource src SourceState.clear) lnk

/-- NOTICE_CLEAR (R183). -/
def reqNoticeClear (p : List Byte) (s : State) : State × Answer :=
  let set := num p 0 4
  if 2 ^ 20 ≤ set then refuse s .badValue
  else
    let named := allSources.filter (fun src => inSet set src.number)
    let cleared := named.filter (fun src => (s.lnk.source src).pending)
    answerOk (s.modifyLnk (fun lnk => lnk.clearAll cleared)) (u32 (sourceSet cleared))

/-- A first-occurrence record as reply bytes: the detail, as its length and 16 bytes with zero bytes after it, and the serial
(R184). -/
def Occurrence.reply (r : Occurrence) : List Byte :=
  u8 r.detail.length ++ r.detail ++ List.replicate (16 - r.detail.length) 0 ++ serialBytes r.serial

/-- A source as reply bytes (R184). -/
def Lnk.sourceReply (lnk : Lnk) (src : Source) : List Byte :=
  let st := lnk.source src
  u8 src.number ++ flagByte st.enabled ++ u8 st.level ++ u8 st.routes.code ++ flagByte st.pending ++ u8 st.count ++
    flagByte st.sent ++ optional 21 Occurrence.reply st.record

/-- The link counts as reply bytes, in the order of R174. -/
def LinkCounts.reply (c : LinkCounts) : List Byte :=
  u16 c.badLength ++ u16 c.badCrc ++ u16 c.framing ++ u16 c.timeout ++ u16 c.badKind ++ u16 c.overrun

/-- The NOTICE_QUERY reply (R184). The baud rate is the one-byte strap code that R195 gives for PART_STARTED (DESIGN CHOICE, log
entry 15). -/
def Lnk.queryReply (lnk : Lnk) : List Byte :=
  (allSources.map lnk.sourceReply).flatten ++ u8 lnk.mask ++ flagByte lnk.attn ++ lnk.counts.reply ++
    u8 lnk.inbound.length ++ u8 lnk.replyPlaces ++ u8 lnk.noticePlaces ++ u8 lnk.baud

/-- NOTICE_QUERY (R184). -/
def reqNoticeQuery (p : List Byte) (s : State) : State × Answer :=
  match clearFlag p with
  | none => refuse s .badValue
  | some clear =>
    answerOk (if clear then s.modifyLnk (fun lnk => { lnk with counts := .zero }) else s) s.lnk.queryReply

end Sys2Proof.Machine
end

