-- ==== Sys2Proof/Machine/Link.lean ====
section
/-! DEFINITION. The Link Interface at work: the judging and dispatch of requests (R175, R176), the receiver with its
re-examination of kept bytes (R173, R174), and the end of a message (R177, R191). -/

namespace Sys2Proof.Machine

/-! ## Dispatch -/

/-- The owning block takes a request (R176 step 4). -/
def takeRequest : Req → List Byte → State → State × Answer
  | .frameConfig => reqFrameConfig
  | .tcPreset => reqTcPreset
  | .tcMode => reqTcMode
  | .tcUserbits => reqTcUserbits
  | .tcTrigger => reqTcTrigger
  | .intervalConfig => reqIntervalConfig
  | .timeQuery => reqTimeQuery
  | .zoomRate => reqZoomRate
  | .focusRate => reqFocusRate
  | .lensGoto => reqLensGoto
  | .lensStop => reqLensStop
  | .presetStore => reqPresetStore
  | .presetRecall => reqPresetRecall
  | .irisSet => reqIrisSet
  | .irisAuto => reqIrisAuto
  | .zoomCurveLoad => reqZoomCurveLoad
  | .lensConfig => reqLensConfig
  | .lensQuery => reqLensQuery
  | .stabConfig => reqStabConfig
  | .stabMode => reqStabMode
  | .stabRecentre => reqStabRecentre
  | .stabQuery => reqStabQuery
  | .audioRoute => reqAudioRoute
  | .audioGain => reqAudioGain
  | .audioLimiter => reqAudioLimiter
  | .audioQuery => reqAudioQuery
  | .auxAttach => reqAuxAttach
  | .markFrame => reqMarkFrame
  | .prerecConfig => reqPrerecConfig
  | .holdSet => reqHoldSet
  | .holdClear => reqHoldClear
  | .holdRetain => reqHoldRetain
  | .bufferQuery => reqBufferQuery
  | .slotMode => reqSlotMode
  | .recStart => reqRecStart
  | .recStop => reqRecStop
  | .recQuery => reqRecQuery
  | .cardFormat => reqCardFormat
  | .cardEject => reqCardEject
  | .catalogueRead => reqCatalogueRead
  | .cardConfig => reqCardConfig
  | .cardQuery => reqCardQuery
  | .vfItemSet => reqVfItemSet
  | .vfItemClear => reqVfItemClear
  | .vfText => reqVfText
  | .vfConfig => reqVfConfig
  | .noticeConfig => reqNoticeConfig
  | .noticeMask => reqNoticeMask
  | .noticeClear => reqNoticeClear
  | .noticeQuery => reqNoticeQuery
  | .powerStandby => reqPowerStandby
  | .powerRun => reqPowerRun
  | .blockEnable => reqBlockEnable
  | .partReset => reqPartReset

/-- BLOCK_OFF of a disabled block, none of an enabled one. -/
def offUnless (enabled : Bool) : Option Status := if enabled then none else some .blockOff

/-- R176 step 3: the status of a request whose owning block is disabled, or whose slot field names no slot. -/
def State.judgeBlock (s : State) (owner : Owner) (payload : List Byte) : Option Status :=
  match owner with
  | .lnc => offUnless s.pwc.enables.lnc
  | .stb => offUnless s.pwc.enables.stb
  | .aud => offUnless s.pwc.enables.aud
  | .vog => offUnless s.pwc.enables.vog
  | .card =>
    (match sideAt payload 0 with
     | none => some .badValue
     | some side => offUnless (s.pwc.enables.slots.get side))
  | .ftb => none
  | .bfm => none
  | .rcd => none
  | .lnk => none
  | .pwc => none

/-- A request of the code table is judged by LNK and then by its block (R176 steps 2 to 4). -/
def State.judgeRow (s : State) (row : ReqRow) (payload : List Byte) : State × Answer :=
  if payload.length < row.least || decide (row.greatest < payload.length) then refuse s .badLength
  else match s.judgeBlock row.owner payload with
  | some status => refuse s status
  | none => takeRequest row.req payload s

/-- A dispatched request is judged (R176). -/
def State.judgeRequest (s : State) (r : Request) : State × Answer :=
  match reqOfCode r.code with
  | none => refuse s .unknown
  | some row => s.judgeRow row r.payload

/-- The request is judged, its reply joins the outbound queue, and LNK follows what it changed (R175, R176). -/
def State.serve (s : State) (r : Request) : State :=
  let (s, answer) := s.judgeRequest r
  (s.modifyLnk (fun lnk => lnk.pushReply r answer)).settle

/-- Requests are dispatched one at a time while a place is free and no PART_RESET has been taken (R175). The inbound queue holds
four, so four turns suffice. -/
def State.dispatch : Nat → State → State
  | 0, s => s
  | fuel + 1, s =>
    match s.lnk.inbound with
    | [] => s
    | r :: rest =>
      if s.lnk.hasPlace && !s.lnk.resetTaken then
        State.dispatch fuel ((s.modifyLnk (fun lnk => { lnk with inbound := rest })).serve r)
      else s

/-! ## Drops -/

/-- The code of a drop's cause, in the order of R174. -/
def DropCause.code : DropCause → Nat
  | .badLength => 0
  | .badCrc => 1
  | .framing => 2
  | .timeout => 3
  | .badKind => 4
  | .overrun => 5

/-- The count of a cause goes up by one (R174). -/
def LinkCounts.add (c : LinkCounts) : DropCause → LinkCounts
  | .badLength => { c with badLength := bump16 c.badLength }
  | .badCrc => { c with badCrc := bump16 c.badCrc }
  | .framing => { c with framing := bump16 c.framing }
  | .timeout => { c with timeout := bump16 c.timeout }
  | .badKind => { c with badKind := bump16 c.badKind }
  | .overrun => { c with overrun := bump16 c.overrun }

/-- A frame is dropped: its count, and LINK_ERROR (R174), which the table's readers follow at once, before any request found in the
bytes taken again (R178, R180). -/
def State.dropFrame (s : State) (cause : DropCause) : State :=
  ((s.modifyLnk (fun lnk => { lnk with counts := lnk.counts.add cause })).report .linkError
    (u8 cause.code ++ serialBytes s.ftb.serial)).settle

/-- A well-formed request is offered to the inbound queue, and dispatched as places allow (R175). -/
def State.offer (s : State) (r : Request) : State :=
  if s.lnk.inbound.length < 4 then
    State.dispatch 4 (s.modifyLnk (fun lnk => { lnk with inbound := lnk.inbound ++ [r] }))
  else s.dropFrame .overrun

/-- What every request's meaning is: the well-formed frame with this code has reached the inbound queue's door. -/
def State.receive (s : State) (code tag : Byte) (payload : List Byte) : Result :=
  s.act (fun s => s.offer { code := code, tag := tag, payload := payload })

/-! ## The receiver -/

/-- What the receiver finds when it has kept a byte (R173). -/
inductive Found where
  | more
  | drop (cause : DropCause)
  | whole (cause : DropCause)
  | request (r : Request)
deriving DecidableEq, Repr

/-- The kept bytes are judged (R173): a length of 3 bytes at once, a whole frame at its second CRC byte. -/
def judgeKept (kept : List Byte) : Found :=
  let length := num kept 1 2
  if kept.length < 3 then .more
  else if 1024 < length then .drop .badLength
  else if kept.length < length + 8 then .more
  else
    let body := field kept 3 (length + 3)
    if field kept (length + 6) 2 != crcBytes body then .drop .badCrc
    else if kept[3]?.getD 0 != 0x01 then .whole .badKind
    else .request { code := kept[4]?.getD 0, tag := kept[5]?.getD 0, payload := field kept 6 length }

/-- The receiver keeps a byte, or discards it in HUNT (R173). -/
def Lnk.keep (lnk : Lnk) (b : Byte) : Lnk :=
  if lnk.kept.isEmpty && b != 0xC3 then lnk else { lnk with kept := lnk.kept ++ [b] }

/-- The receiver returns to HUNT with nothing kept. -/
def State.hunt (s : State) : State := s.modifyLnk (fun lnk => { lnk with kept := [] })

/-- The receiver takes bytes in order. A drop that found a damaged frame makes it take again, before the others, the bytes kept
after that frame's sync (R174). `fuel` bounds the bytes taken. -/
def State.takeBytes : Nat → List Byte → State → State
  | 0, _, s => s
  | _ + 1, [], s => s
  | fuel + 1, b :: rest, s =>
    let s := s.modifyLnk (fun lnk => lnk.keep b)
    match judgeKept s.lnk.kept with
    | .more => State.takeBytes fuel rest s
    | .drop cause => State.takeBytes fuel (s.lnk.kept.drop 1 ++ rest) (s.hunt.dropFrame cause)
    | .whole cause => State.takeBytes fuel rest (s.hunt.dropFrame cause)
    | .request r => State.takeBytes fuel rest (s.hunt.offer r)

/-- Bytes enough for any re-examination of `n` bytes: each drop takes a byte away for good, and at most all the others are taken
again after it. -/
def enough (n : Nat) : Nat := (n + 1) * (n + 1)

/-- The receiver takes bytes, with what they may make it take again. -/
def State.receiveBytes (s : State) (bytes : List Byte) : State :=
  State.takeBytes (enough (s.lnk.kept.length + bytes.length)) bytes s

/-- BYTE_ARRIVAL (R173). -/
def execByteArrival (byte : Byte) (s : State) : Result := s.act (fun s => s.receiveBytes [byte])

/-- A frame in HEADER or BODY is dropped with the line as its cause, and its bytes after the sync are taken again (R174). -/
def State.dropKept (s : State) (cause : DropCause) : State :=
  let again := s.lnk.kept.drop 1
  (s.hunt.dropFrame cause).receiveBytes again

/-- A byte with a line framing error (R171, R174). In HUNT it is counted and is no drop (R173). -/
def State.framingError (s : State) : State :=
  if s.lnk.kept.isEmpty then s.modifyLnk (fun lnk => { lnk with counts := lnk.counts.add .framing })
  else s.dropKept .framing

/-- LINE_FRAMING_ERROR (R171). -/
def execLineFramingError (s : State) : Result := s.act State.framingError

/-- The gap timer reaches 10 ms (R174). In HUNT it does not run. -/
def State.gapExpires (s : State) : State := if s.lnk.kept.isEmpty then s else s.dropKept .timeout

/-- GAP_TIMEOUT (R174). -/
def execGapTimeout (s : State) : Result := s.act State.gapExpires

/-! ## Messages sent -/

/-- The reply with which PART_RESET was taken (R176). -/
def OutMsg.takesReset : OutMsg → Bool
  | .reply code _ payload => code == Req.partReset.code && payload == u8 Status.ok.code
  | .notice _ => false

/-- A message has been sent to its last byte (R177): its place is free, the arbiter chooses again, and held requests are
dispatched. After the PART_RESET reply the reset begins (R191). -/
def State.messageSent (s : State) : State :=
  match s.lnk.sending with
  | none => s
  | some m =>
    let s := s.modifyLnk (fun lnk => { lnk with sending := none })
    if s.lnk.resetTaken && m.msg.takesReset then s.hold .partReset
    else State.dispatch 4 (s.modifyLnk Lnk.transmit)

/-- MESSAGE_SENT (R177). With the line idle, no message ends. -/
def execMessageSent (s : State) : Result := s.act State.messageSent

/-! ## The requests as commands -/

/-- UNKNOWN_REQUEST (R176). -/
def execUnknownRequest (code tag : Byte) (payload : List Byte) (s : State) : Result := s.receive code tag payload

/-- FRAME_CONFIG (R23). -/
def execFrameConfig (tag : Byte) (payload : List Byte) (s : State) : Result := s.receive Req.frameConfig.code tag payload

/-- TC_PRESET (R17). -/
def execTcPreset (tag : Byte) (payload : List Byte) (s : State) : Result := s.receive Req.tcPreset.code tag payload

/-- TC_MODE (R16). -/
def execTcMode (tag : Byte) (payload : List Byte) (s : State) : Result := s.receive Req.tcMode.code tag payload

/-- TC_USERBITS (R18). -/
def execTcUserbits (tag : Byte) (payload : List Byte) (s : State) : Result := s.receive Req.tcUserbits.code tag payload

/-- TC_TRIGGER (R19). -/
def execTcTrigger (tag : Byte) (payload : List Byte) (s : State) : Result := s.receive Req.tcTrigger.code tag payload

/-- INTERVAL_CONFIG (R21). -/
def execIntervalConfig (tag : Byte) (payload : List Byte) (s : State) : Result := s.receive Req.intervalConfig.code tag payload

/-- TIME_QUERY (R24). -/
def execTimeQuery (tag : Byte) (payload : List Byte) (s : State) : Result := s.receive Req.timeQuery.code tag payload

/-- ZOOM_RATE (R32). -/
def execZoomRate (tag : Byte) (payload : List Byte) (s : State) : Result := s.receive Req.zoomRate.code tag payload

/-- FOCUS_RATE (R32). -/
def execFocusRate (tag : Byte) (payload : List Byte) (s : State) : Result := s.receive Req.focusRate.code tag payload

/-- LENS_GOTO (R34). -/
def execLensGoto (tag : Byte) (payload : List Byte) (s : State) : Result := s.receive Req.lensGoto.code tag payload

/-- LENS_STOP (R38). -/
def execLensStop (tag : Byte) (payload : List Byte) (s : State) : Result := s.receive Req.lensStop.code tag payload

/-- PRESET_STORE (R37). -/
def execPresetStore (tag : Byte) (payload : List Byte) (s : State) : Result := s.receive Req.presetStore.code tag payload

/-- PRESET_RECALL (R36). -/
def execPresetRecall (tag : Byte) (payload : List Byte) (s : State) : Result := s.receive Req.presetRecall.code tag payload

/-- IRIS_SET (R40). -/
def execIrisSet (tag : Byte) (payload : List Byte) (s : State) : Result := s.receive Req.irisSet.code tag payload

/-- IRIS_AUTO (R40). -/
def execIrisAuto (tag : Byte) (payload : List Byte) (s : State) : Result := s.receive Req.irisAuto.code tag payload

/-- ZOOM_CURVE_LOAD (R42). -/
def execZoomCurveLoad (tag : Byte) (payload : List Byte) (s : State) : Result := s.receive Req.zoomCurveLoad.code tag payload

/-- LENS_CONFIG (R43). -/
def execLensConfig (tag : Byte) (payload : List Byte) (s : State) : Result := s.receive Req.lensConfig.code tag payload

/-- LENS_QUERY (R44). -/
def execLensQuery (tag : Byte) (payload : List Byte) (s : State) : Result := s.receive Req.lensQuery.code tag payload

/-- STAB_CONFIG (R66). -/
def execStabConfig (tag : Byte) (payload : List Byte) (s : State) : Result := s.receive Req.stabConfig.code tag payload

/-- STAB_MODE (R63). -/
def execStabMode (tag : Byte) (payload : List Byte) (s : State) : Result := s.receive Req.stabMode.code tag payload

/-- STAB_RECENTRE (R64). -/
def execStabRecentre (tag : Byte) (payload : List Byte) (s : State) : Result := s.receive Req.stabRecentre.code tag payload

/-- STAB_QUERY (R67). -/
def execStabQuery (tag : Byte) (payload : List Byte) (s : State) : Result := s.receive Req.stabQuery.code tag payload

/-- AUDIO_ROUTE (R71). -/
def execAudioRoute (tag : Byte) (payload : List Byte) (s : State) : Result := s.receive Req.audioRoute.code tag payload

/-- AUDIO_GAIN (R77). -/
def execAudioGain (tag : Byte) (payload : List Byte) (s : State) : Result := s.receive Req.audioGain.code tag payload

/-- AUDIO_LIMITER (R77). -/
def execAudioLimiter (tag : Byte) (payload : List Byte) (s : State) : Result := s.receive Req.audioLimiter.code tag payload

/-- AUDIO_QUERY (R84). -/
def execAudioQuery (tag : Byte) (payload : List Byte) (s : State) : Result := s.receive Req.audioQuery.code tag payload

/-- AUX_ATTACH (R98). -/
def execAuxAttach (tag : Byte) (payload : List Byte) (s : State) : Result := s.receive Req.auxAttach.code tag payload

/-- MARK_FRAME (R99). -/
def execMarkFrame (tag : Byte) (payload : List Byte) (s : State) : Result := s.receive Req.markFrame.code tag payload

/-- PREREC_CONFIG (R102). -/
def execPrerecConfig (tag : Byte) (payload : List Byte) (s : State) : Result := s.receive Req.prerecConfig.code tag payload

/-- HOLD_SET (R104). -/
def execHoldSet (tag : Byte) (payload : List Byte) (s : State) : Result := s.receive Req.holdSet.code tag payload

/-- HOLD_CLEAR (R105). -/
def execHoldClear (tag : Byte) (payload : List Byte) (s : State) : Result := s.receive Req.holdClear.code tag payload

/-- HOLD_RETAIN (R107, R124). -/
def execHoldRetain (tag : Byte) (payload : List Byte) (s : State) : Result := s.receive Req.holdRetain.code tag payload

/-- BUFFER_QUERY (R109). -/
def execBufferQuery (tag : Byte) (payload : List Byte) (s : State) : Result := s.receive Req.bufferQuery.code tag payload

/-- SLOT_MODE (R114). -/
def execSlotMode (tag : Byte) (payload : List Byte) (s : State) : Result := s.receive Req.slotMode.code tag payload

/-- REC_START (R117). -/
def execRecStart (tag : Byte) (payload : List Byte) (s : State) : Result := s.receive Req.recStart.code tag payload

/-- REC_STOP (R121). -/
def execRecStop (tag : Byte) (payload : List Byte) (s : State) : Result := s.receive Req.recStop.code tag payload

/-- REC_QUERY (R132). -/
def execRecQuery (tag : Byte) (payload : List Byte) (s : State) : Result := s.receive Req.recQuery.code tag payload

/-- CARD_FORMAT (R151). -/
def execCardFormat (tag : Byte) (payload : List Byte) (s : State) : Result := s.receive Req.cardFormat.code tag payload

/-- CARD_EJECT (R152). -/
def execCardEject (tag : Byte) (payload : List Byte) (s : State) : Result := s.receive Req.cardEject.code tag payload

/-- CATALOGUE_READ (R153). -/
def execCatalogueRead (tag : Byte) (payload : List Byte) (s : State) : Result := s.receive Req.catalogueRead.code tag payload

/-- CARD_CONFIG (R149). -/
def execCardConfig (tag : Byte) (payload : List Byte) (s : State) : Result := s.receive Req.cardConfig.code tag payload

/-- CARD_QUERY (R154). -/
def execCardQuery (tag : Byte) (payload : List Byte) (s : State) : Result := s.receive Req.cardQuery.code tag payload

/-- VF_ITEM_SET (R160). -/
def execVfItemSet (tag : Byte) (payload : List Byte) (s : State) : Result := s.receive Req.vfItemSet.code tag payload

/-- VF_ITEM_CLEAR (R161). -/
def execVfItemClear (tag : Byte) (payload : List Byte) (s : State) : Result := s.receive Req.vfItemClear.code tag payload

/-- VF_TEXT (R159). -/
def execVfText (tag : Byte) (payload : List Byte) (s : State) : Result := s.receive Req.vfText.code tag payload

/-- VF_CONFIG (R162). -/
def execVfConfig (tag : Byte) (payload : List Byte) (s : State) : Result := s.receive Req.vfConfig.code tag payload

/-- NOTICE_CONFIG (R181). -/
def execNoticeConfig (tag : Byte) (payload : List Byte) (s : State) : Result := s.receive Req.noticeConfig.code tag payload

/-- NOTICE_MASK (R182). -/
def execNoticeMask (tag : Byte) (payload : List Byte) (s : State) : Result := s.receive Req.noticeMask.code tag payload

/-- NOTICE_CLEAR (R183). -/
def execNoticeClear (tag : Byte) (payload : List Byte) (s : State) : Result := s.receive Req.noticeClear.code tag payload

/-- NOTICE_QUERY (R184). -/
def execNoticeQuery (tag : Byte) (payload : List Byte) (s : State) : Result := s.receive Req.noticeQuery.code tag payload

/-- POWER_STANDBY (R186). -/
def execPowerStandby (tag : Byte) (payload : List Byte) (s : State) : Result := s.receive Req.powerStandby.code tag payload

/-- POWER_RUN (R188). -/
def execPowerRun (tag : Byte) (payload : List Byte) (s : State) : Result := s.receive Req.powerRun.code tag payload

/-- BLOCK_ENABLE (R189). -/
def execBlockEnable (tag : Byte) (payload : List Byte) (s : State) : Result := s.receive Req.blockEnable.code tag payload

/-- PART_RESET (R191). -/
def execPartReset (tag : Byte) (payload : List Byte) (s : State) : Result := s.receive Req.partReset.code tag payload

end Sys2Proof.Machine
end

