-- ==== Sys2Proof/Machine/Dispatch.lean ====
section
/-! DEFINITION. The dispatch of commands to their meanings, one arm per constructor of Instr. -/

namespace Sys2Proof.Machine

/-- The effect of a command on everything but the queue. -/
def exec (i : Instr) (s : State) : Host.Outcome State Fault Refusal :=
  match i with
  | .frameStartEdge cycles => Sys2Proof.Machine.execFrameStartEdge cycles s
  | .substitutionTimer => Sys2Proof.Machine.execSubstitutionTimer s
  | .lncFrameStart => Sys2Proof.Machine.execLncFrameStart s
  | .lensReport bytes => Sys2Proof.Machine.execLensReport bytes s
  | .reportWindowExpiry => Sys2Proof.Machine.execReportWindowExpiry s
  | .gyroReadDue => Sys2Proof.Machine.execGyroReadDue s
  | .gyroAnswer yaw pitch status => Sys2Proof.Machine.execGyroAnswer yaw pitch status s
  | .tileSetComplete serial pixels => Sys2Proof.Machine.execTileSetComplete serial pixels s
  | .correlationComplete => Sys2Proof.Machine.execCorrelationComplete s
  | .stbFrameStart => Sys2Proof.Machine.execStbFrameStart s
  | .sampleFrame pair first second => Sys2Proof.Machine.execSampleFrame pair first second s
  | .audFrameStart => Sys2Proof.Machine.execAudFrameStart s
  | .bfmFrameStart => Sys2Proof.Machine.execBfmFrameStart s
  | .essenceHeader serial lengthLessOne key => Sys2Proof.Machine.execEssenceHeader serial lengthLessOne key s
  | .essenceData bytes => Sys2Proof.Machine.execEssenceData bytes s
  | .rcdFrameStart => Sys2Proof.Machine.execRcdFrameStart s
  | .vogFrameStart => Sys2Proof.Machine.execVogFrameStart s
  | .overlaySent => Sys2Proof.Machine.execOverlaySent s
  | .recLinePress => Sys2Proof.Machine.execRecLinePress s
  | .unitTake slot => Sys2Proof.Machine.execUnitTake slot s
  | .commandComplete slot status => Sys2Proof.Machine.execCommandComplete slot status s
  | .cardReadComplete slot answer => Sys2Proof.Machine.execCardReadComplete slot answer s
  | .cardTimeout slot => Sys2Proof.Machine.execCardTimeout slot s
  | .cardDetectChange slot present => Sys2Proof.Machine.execCardDetectChange slot present s
  | .protectChange slot on => Sys2Proof.Machine.execProtectChange slot on s
  | .byteArrival byte => Sys2Proof.Machine.execByteArrival byte s
  | .lineFramingError => Sys2Proof.Machine.execLineFramingError s
  | .gapTimeout => Sys2Proof.Machine.execGapTimeout s
  | .messageSent => Sys2Proof.Machine.execMessageSent s
  | .powerOnReset => Sys2Proof.Machine.execPowerOnReset s
  | .resetEnd strap1 strap0 detectA detectB => Sys2Proof.Machine.execResetEnd strap1 strap0 detectA detectB s
  | .unknownRequest code tag payload => Sys2Proof.Machine.execUnknownRequest code tag payload s
  | .frameConfig tag payload => Sys2Proof.Machine.execFrameConfig tag payload s
  | .tcPreset tag payload => Sys2Proof.Machine.execTcPreset tag payload s
  | .tcMode tag payload => Sys2Proof.Machine.execTcMode tag payload s
  | .tcUserbits tag payload => Sys2Proof.Machine.execTcUserbits tag payload s
  | .tcTrigger tag payload => Sys2Proof.Machine.execTcTrigger tag payload s
  | .intervalConfig tag payload => Sys2Proof.Machine.execIntervalConfig tag payload s
  | .timeQuery tag payload => Sys2Proof.Machine.execTimeQuery tag payload s
  | .zoomRate tag payload => Sys2Proof.Machine.execZoomRate tag payload s
  | .focusRate tag payload => Sys2Proof.Machine.execFocusRate tag payload s
  | .lensGoto tag payload => Sys2Proof.Machine.execLensGoto tag payload s
  | .lensStop tag payload => Sys2Proof.Machine.execLensStop tag payload s
  | .presetStore tag payload => Sys2Proof.Machine.execPresetStore tag payload s
  | .presetRecall tag payload => Sys2Proof.Machine.execPresetRecall tag payload s
  | .irisSet tag payload => Sys2Proof.Machine.execIrisSet tag payload s
  | .irisAuto tag payload => Sys2Proof.Machine.execIrisAuto tag payload s
  | .zoomCurveLoad tag payload => Sys2Proof.Machine.execZoomCurveLoad tag payload s
  | .lensConfig tag payload => Sys2Proof.Machine.execLensConfig tag payload s
  | .lensQuery tag payload => Sys2Proof.Machine.execLensQuery tag payload s
  | .stabConfig tag payload => Sys2Proof.Machine.execStabConfig tag payload s
  | .stabMode tag payload => Sys2Proof.Machine.execStabMode tag payload s
  | .stabRecentre tag payload => Sys2Proof.Machine.execStabRecentre tag payload s
  | .stabQuery tag payload => Sys2Proof.Machine.execStabQuery tag payload s
  | .audioRoute tag payload => Sys2Proof.Machine.execAudioRoute tag payload s
  | .audioGain tag payload => Sys2Proof.Machine.execAudioGain tag payload s
  | .audioLimiter tag payload => Sys2Proof.Machine.execAudioLimiter tag payload s
  | .audioQuery tag payload => Sys2Proof.Machine.execAudioQuery tag payload s
  | .auxAttach tag payload => Sys2Proof.Machine.execAuxAttach tag payload s
  | .markFrame tag payload => Sys2Proof.Machine.execMarkFrame tag payload s
  | .prerecConfig tag payload => Sys2Proof.Machine.execPrerecConfig tag payload s
  | .holdSet tag payload => Sys2Proof.Machine.execHoldSet tag payload s
  | .holdClear tag payload => Sys2Proof.Machine.execHoldClear tag payload s
  | .holdRetain tag payload => Sys2Proof.Machine.execHoldRetain tag payload s
  | .bufferQuery tag payload => Sys2Proof.Machine.execBufferQuery tag payload s
  | .slotMode tag payload => Sys2Proof.Machine.execSlotMode tag payload s
  | .recStart tag payload => Sys2Proof.Machine.execRecStart tag payload s
  | .recStop tag payload => Sys2Proof.Machine.execRecStop tag payload s
  | .recQuery tag payload => Sys2Proof.Machine.execRecQuery tag payload s
  | .cardFormat tag payload => Sys2Proof.Machine.execCardFormat tag payload s
  | .cardEject tag payload => Sys2Proof.Machine.execCardEject tag payload s
  | .catalogueRead tag payload => Sys2Proof.Machine.execCatalogueRead tag payload s
  | .cardConfig tag payload => Sys2Proof.Machine.execCardConfig tag payload s
  | .cardQuery tag payload => Sys2Proof.Machine.execCardQuery tag payload s
  | .vfItemSet tag payload => Sys2Proof.Machine.execVfItemSet tag payload s
  | .vfItemClear tag payload => Sys2Proof.Machine.execVfItemClear tag payload s
  | .vfText tag payload => Sys2Proof.Machine.execVfText tag payload s
  | .vfConfig tag payload => Sys2Proof.Machine.execVfConfig tag payload s
  | .noticeConfig tag payload => Sys2Proof.Machine.execNoticeConfig tag payload s
  | .noticeMask tag payload => Sys2Proof.Machine.execNoticeMask tag payload s
  | .noticeClear tag payload => Sys2Proof.Machine.execNoticeClear tag payload s
  | .noticeQuery tag payload => Sys2Proof.Machine.execNoticeQuery tag payload s
  | .powerStandby tag payload => Sys2Proof.Machine.execPowerStandby tag payload s
  | .powerRun tag payload => Sys2Proof.Machine.execPowerRun tag payload s
  | .blockEnable tag payload => Sys2Proof.Machine.execBlockEnable tag payload s
  | .partReset tag payload => Sys2Proof.Machine.execPartReset tag payload s

end Sys2Proof.Machine
end

