-- ==== Sys2Proof/Safety.lean ====
section
/-! DEFINITION. The terms in which the statements speak of runs: a step that answers a next state, a part that works, a part
that takes a request at once, what LNK and VOG do by themselves after a command, and the invariants of State. -/

namespace Sys2Proof

/-- The command of a request of the code table. -/
def Req.command (req : Req) (tag : Byte) (payload : List Byte) : Instr :=
  match req with
  | .frameConfig => .frameConfig tag payload
  | .tcPreset => .tcPreset tag payload
  | .tcMode => .tcMode tag payload
  | .tcUserbits => .tcUserbits tag payload
  | .tcTrigger => .tcTrigger tag payload
  | .intervalConfig => .intervalConfig tag payload
  | .timeQuery => .timeQuery tag payload
  | .zoomRate => .zoomRate tag payload
  | .focusRate => .focusRate tag payload
  | .lensGoto => .lensGoto tag payload
  | .lensStop => .lensStop tag payload
  | .presetStore => .presetStore tag payload
  | .presetRecall => .presetRecall tag payload
  | .irisSet => .irisSet tag payload
  | .irisAuto => .irisAuto tag payload
  | .zoomCurveLoad => .zoomCurveLoad tag payload
  | .lensConfig => .lensConfig tag payload
  | .lensQuery => .lensQuery tag payload
  | .stabConfig => .stabConfig tag payload
  | .stabMode => .stabMode tag payload
  | .stabRecentre => .stabRecentre tag payload
  | .stabQuery => .stabQuery tag payload
  | .audioRoute => .audioRoute tag payload
  | .audioGain => .audioGain tag payload
  | .audioLimiter => .audioLimiter tag payload
  | .audioQuery => .audioQuery tag payload
  | .auxAttach => .auxAttach tag payload
  | .markFrame => .markFrame tag payload
  | .prerecConfig => .prerecConfig tag payload
  | .holdSet => .holdSet tag payload
  | .holdClear => .holdClear tag payload
  | .holdRetain => .holdRetain tag payload
  | .bufferQuery => .bufferQuery tag payload
  | .slotMode => .slotMode tag payload
  | .recStart => .recStart tag payload
  | .recStop => .recStop tag payload
  | .recQuery => .recQuery tag payload
  | .cardFormat => .cardFormat tag payload
  | .cardEject => .cardEject tag payload
  | .catalogueRead => .catalogueRead tag payload
  | .cardConfig => .cardConfig tag payload
  | .cardQuery => .cardQuery tag payload
  | .vfItemSet => .vfItemSet tag payload
  | .vfItemClear => .vfItemClear tag payload
  | .vfText => .vfText tag payload
  | .vfConfig => .vfConfig tag payload
  | .noticeConfig => .noticeConfig tag payload
  | .noticeMask => .noticeMask tag payload
  | .noticeClear => .noticeClear tag payload
  | .noticeQuery => .noticeQuery tag payload
  | .powerStandby => .powerStandby tag payload
  | .powerRun => .powerRun tag payload
  | .blockEnable => .blockEnable tag payload
  | .partReset => .partReset tag payload

end Sys2Proof

namespace Sys2Proof.Machine

/-- A step that stops neither in a fault nor in a refusal. -/
def StepsOn (s : State) : Prop := ∃ t, step s = .next t

/-- No reset is in progress (R191). -/
def State.works (s : State) : Prop := s.pwc.resetting = none

/-- A well-formed request that reaches LNK is judged at once: no reset is in progress, none waits before it, no PART_RESET has
been taken, and the outbound queue has a place for its reply (R175). -/
def State.ready (s : State) : Prop :=
  s.works ∧ s.lnk.inbound = [] ∧ s.lnk.resetTaken = false ∧ s.lnk.places < 16

/-- LNK without what it does by itself with the notice table and the line: the messages in the outbound queue, the sent flags,
ATTN, and the model's counter of free bytes (R177, R179, R180). -/
def Lnk.unsent (lnk : Lnk) : Lnk :=
  { lnk with
    waiting := [], sending := none, attn := false, drawn := 0, table := lnk.table.map (fun st => { st with sent := false }) }

/-- VOG without the lines that follow the notice table by themselves: the alert shown and TALLY (R167, R169). -/
def Vog.plain (vog : Vog) : Vog := { vog with shown := none, dwell := 0, rotation := [], tally := .dark }

/-- A state without what LNK and VOG do by themselves. Everything else stands in it: every other register, queue, count and
setting, the queue of commands and the whole buffer memory. -/
def State.bare (s : State) : State := { s with lnk := s.lnk.unsent, vog := s.vog.plain }

/-- The replies in the outbound queue, the one being sent first (R177). -/
def Lnk.replies (lnk : Lnk) : List OutMsg :=
  (match lnk.sending with
   | some x => if x.msg.isNotice then [] else [x.msg]
   | none => []) ++ lnk.waiting.filter (fun m => !m.isNotice)

/-- `t` is `u` once LNK and VOG have followed it: nothing else differs, and the replies in the outbound queue are those of
`u`. -/
def Follows (u t : State) : Prop := t.bare = u.bare ∧ t.lnk.replies = u.lnk.replies

/-- The command completes: it answers a next state, which is `u` once LNK and VOG have followed it. -/
def Becomes (c : Instr) (s u : State) : Prop := ∃ t, exec c s = .next t ∧ Follows u t

/-- `u` with one more reply at the end of the outbound queue: the request's code and tag, the status, the reply fields (R176,
R194). -/
def State.withReply (u : State) (req : Req) (tag : Byte) (status : Status) (body : List Byte) : State :=
  { u with lnk := { u.lnk with waiting := u.lnk.waiting ++ [.reply req.code tag (u8 status.code ++ body)] } }

/-- A request completes: its effect on `s` is `u`, and it is answered. -/
def Answers (c : Instr) (req : Req) (tag : Byte) (s u : State) (status : Status) (body : List Byte) : Prop :=
  Becomes c s (u.withReply req tag status body)

/-! ## The notice table -/

/-- The message of a source stands in the outbound queue, waiting or being sent (R177). -/
def Lnk.holds (lnk : Lnk) (src : Source) : Prop :=
  OutMsg.notice src ∈ lnk.waiting ∨ lnk.sending.map Sending.msg = some (.notice src)

/-- A source is pending, enabled, routed to the host and above the mask (R179). -/
abbrev Lnk.calls (lnk : Lnk) (src : Source) : Prop :=
  (lnk.source src).pending = true ∧ (lnk.source src).enabled = true ∧ (lnk.source src).routes.host = true ∧
    lnk.mask < (lnk.source src).level

/-- A source is pending, enabled and routed to the viewfinder (R166). -/
abbrev Lnk.alarms (lnk : Lnk) (src : Source) : Prop :=
  (lnk.source src).pending = true ∧ (lnk.source src).enabled = true ∧ (lnk.source src).routes.vf = true

/-- How many frame starts after `base` a source's first occurrence lies. -/
def Lnk.age (lnk : Lnk) (base : Serial) (src : Source) : Nat := ((lnk.source src).firstSerial - base).toNat

/-- The keys of R166 and R177: level descending, first occurrence oldest first, source number ascending; first occurrences that
lie within half the range of serials from `base` on stand in the order of R3 (log entry 35). -/
def Lnk.precedes (lnk : Lnk) (base : Serial) (x y : Source) : Prop :=
  (lnk.source y).level < (lnk.source x).level ∨
    ((lnk.source y).level = (lnk.source x).level ∧
      (lnk.age base x < lnk.age base y ∨ (lnk.age base x = lnk.age base y ∧ x.number < y.number)))

/-- `l` lists the sources of which `p` holds, each once, by the keys of R166 and R177. -/
def Lnk.Lists (lnk : Lnk) (p : Source → Prop) (l : List Source) : Prop :=
  l.Nodup ∧ (∀ src, src ∈ l ↔ p src) ∧
    ∀ base, (∀ x, p x → lnk.age base x < 2147483648) → l.Pairwise (lnk.precedes base)

/-! ## The room on a card -/

/-- A slot's state and LNK once the slot's card has `free` free extents and `used` used entries (R149): a READY slot without room
becomes FULL, and CARD_FULL tells the slot, the cause (EXTENTS where both hold: log entry 27) and 15 characters of the label. -/
def State.roomJudged (s : State) (side : Side) (label : List Byte) (free used : Nat) : SlotState × Lnk :=
  if (s.slot side).state = .ready ∧ (free = 0 ∨ 999 ≤ used) then
    (.full, (s.report .cardFull (u8 (side.code + if free = 0 then 0 else 2) ++ label.take 15)).lnk)
  else ((s.slot side).state, s.lnk)

/-- A slot's state, its near-full flag and LNK once its copy has consumed the next free extent of `sum` (R149): the room is judged
first; then the flag, set and told with CARD_NEAR_FULL (slot, free extents, and R150's minutes or 65,535) when the free extents are
at or below the threshold, and clear above it. -/
def State.extentUsed (s : State) (side : Side) (sum : Summary) : SlotState × Bool × Lnk :=
  let c := s.slot side
  let free := sum.header.extents - (sum.nextFree + 1)
  let (state, lnk) := s.roomJudged side sum.header.label free sum.entries.length
  let minutes := if (state = .ready ∨ state = .full) ∧ c.sizes ≠ [] then
      min 999 (free * 3932160 / (c.sizes.sum / c.sizes.length * s.ftb.rate.nominal * 60))
    else 65535
  let near := decide (free ≤ c.threshold)
  (state, near,
    if near && !c.nearFull then
      (({ s with lnk := lnk } : State).report .cardNearFull (u8 side.code ++ u16 free ++ u16 minutes)).lnk
    else lnk)

/-- A time value that the generator may hold: its fields are in range, and it is no dropped label (R14). -/
def Timecode.lawful (r : Rate) (drop : Bool) (t : Timecode) : Prop := t.inRange r = true ∧ t.isDropped r drop = false

/-- R14's law of the generator and of a pending preset, with drop-frame only where the rate allows it (R5); and R6's of the
elapsed count, which a substituted start ends before it goes beyond one and a half periods. -/
def Ftb.lawful (ftb : Ftb) : Prop :=
  (ftb.dropFrame = true → ftb.rate.dropAllowed = true) ∧ ftb.generator.lawful ftb.rate ftb.dropFrame ∧
    (∀ t, ftb.preset = some t → t.lawful ftb.rate ftb.dropFrame) ∧ 2 * ftb.elapsed ≤ 3 * ftb.rate.period + 1

/-- The law of the outbound queue: at most 16 messages, at most 12 of them notice messages (R177); and of the inbound queue:
at most four requests (R175). -/
def Lnk.lawful (lnk : Lnk) : Prop := lnk.places ≤ 16 ∧ lnk.noticePlaces ≤ 12 ∧ lnk.inbound.length ≤ 4

/-- The law of the buffer memory's pages: the free ones, the queued units' and the entries' are the pages 0 to 16,383, each
once (R88); the assembly table holds at most one entry per serial (R100); and a picture arrives in no entry but the one that the
essence port is filling (R94). -/
def Bfm.lawful (b : Bfm) : Prop :=
  (b.free.pages ++ (b.queue.map RecUnit.pages).flatten ++ (b.entries.map Entry.pages).flatten).Perm (List.range 16384) ∧
    (b.entries.map Entry.serial).Nodup ∧
    ∀ e ∈ b.entries, ∀ p, e.picture = .arriving p → ∃ placed remaining, b.port = .data e.serial placed remaining

/-- The frame start that BFM acts on next finds no entry with its serial (R90). -/
def State.newSerial (s : State) : Prop := ∀ f rest, s.due.bfm = f :: rest → s.bfm.entry f.serial = none

/-- The command of a well-formed frame that has reached LNK: its code's request, or UNKNOWN_REQUEST (R176 step 1). -/
def Request.command (r : Request) : Instr :=
  match reqOfCode r.code with
  | some row => Req.command row.req r.tag r.payload
  | none => .unknownRequest r.code r.tag r.payload

/-! ## A frame start -/

/-- The time value of the next frame: the pending preset, or else the generator's value (R10 steps 2 and 3). -/
def Ftb.nextTime (ftb : Ftb) : Timecode := ftb.preset.getD ftb.generator

/-- The armed trigger does not match the next frame (R20). -/
def Ftb.unmatched (ftb : Ftb) : Prop := ∀ t, ftb.trigger = some t → t.time ≠ ftb.nextTime

/-- What a frame start leaves when no trigger fires: the serial, the history entry, the generator, the interval counter, and a
frame start for each block to act on (R10, R12, R15, R22). The timebase state and the counts are the caller's. -/
def State.framed (s : State) (substituted : Bool) : State :=
  let n := s.ftb.serial + 1
  let recording := s.rcd.state == .recording
  let burst := match s.ftb.interval with
    | some iv => recording && decide (iv.period - iv.burst < s.ftb.counter)
    | none => false
  let entry : HistoryEntry :=
    { serial := n, label := { time := s.ftb.nextTime, userBits := s.ftb.userBits }, valid := true, substituted := substituted,
      recording := recording, burst := burst }
  let moves := s.ftb.mode == .freeRun || (recording && (s.ftb.interval.isNone || burst))
  { s with
    ftb := { s.ftb with
      serial := n
      elapsed := 0
      previousReal := !substituted
      lastReal := if substituted then s.ftb.lastReal else n
      preset := none
      history := (s.ftb.history ++ [entry]).drop (s.ftb.history.length + 1 - 16)
      counter := match s.ftb.interval with
        | some iv => if recording then (if s.ftb.counter ≤ 1 then iv.period else s.ftb.counter - 1) else s.ftb.counter
        | none => s.ftb.counter
      generator := if moves then s.ftb.nextTime.advance s.ftb.rate s.ftb.dropFrame else s.ftb.nextTime }
    due := s.due.push { serial := n, substituted := substituted, inRun := s.pwc.inRun, lens := none, stbOff := false }
    aud := s.aud.newFrame }

/-- What the substitution timer leaves when it fires and no trigger matches (R6 to R9): a substituted frame start; in ACQUIRE and
LOCKED it is counted (in ACQUIRE: log entry 12), the state is HOLDOVER and FRAME_LOSS occurs; in HOLDOVER it is counted. -/
def State.timed (s : State) : State :=
  let u := s.framed true
  let counted := min 65535 (s.ftb.substituted + 1)
  let lost := ({ u with ftb := { u.ftb with substituted := counted, state := .holdover } } : State).report .frameLoss
    (serialBytes (s.ftb.serial + 1) ++ serialBytes s.ftb.lastReal)
  match s.ftb.state with
  | .acquire => lost
  | .locked => lost
  | .holdover => { u with ftb := { u.ftb with substituted := counted } }
  | .standby => u

/-- The cycles from a frame start after which a substituted start is due (R6): one and a half periods, in HOLDOVER and STANDBY one. -/
def Ftb.dueAt (ftb : Ftb) : Nat :=
  if ftb.state = .acquire ∨ ftb.state = .locked then (3 * ftb.rate.period + 1) / 2 else ftb.rate.period

/-- `cycles` more can pass without a substituted start being made: none pass, or the start is due at their end at the earliest. -/
def Ftb.within (ftb : Ftb) (cycles : Nat) : Prop := cycles = 0 ∨ ftb.elapsed + cycles ≤ ftb.dueAt

/-! ## A missed lens report -/

/-- What a miss leaves (R28): the window closed, the two counts, and at the third consecutive miss of a lens that is not LOST the
lens LOST, LENS_LOST, every move ended LOST, zoom and focus IDLE. -/
def State.missed (s : State) : State :=
  let counted : State := { s with lnc := { s.lnc with
    window := none, misses := min 255 (s.lnc.misses + 1), totalMisses := min 65535 (s.lnc.totalMisses + 1) } }
  if s.lnc.misses = 2 ∧ s.lnc.lens ≠ .lost then
    let v : State := { counted with lnc := { counted.lnc with lens := .lost } }
    let w := (v.report .lensLost (serialBytes s.ftb.serial ++ serialBytes s.lnc.lastGood)).endMoves .lost
    { w with lnc := { w.lnc with
      zoom := { w.lnc.zoom with mode := .idle }, focus := { w.lnc.focus with mode := .idle } } }
  else counted

/-! ## A start of a clip -/

/-- What a start with S = `n` that is taken in STANDING leaves (R117): the clip record with the next sequence number, RECORDING, a
copy opened on each target slot, with interval mode off the head by the clip-head rule (R106), the interval counter loaded or the
catch-up advance made (R22, R15), and REC_STATE reported. The last-start entry is the caller's. -/
def State.clipBegun (s : State) (n : Serial) : State :=
  let sequence := if s.rcd.sequence < 65535 then s.rcd.sequence + 1 else 1
  let clip : Clip :=
    { sequence := sequence, kind := .normal, mode := s.rcd.mode, primary := s.rcd.primary, start := some n, head := none,
      last := none, reason := none, burstHead := none, copies := { a := none, b := none }, switches := 0, claimed := 0,
      written := 0, newestPlaced := none }
  let began : State := { s with rcd := { s.rcd with
    state := .recording, sequence := sequence, begun := min 65535 (s.rcd.begun + 1), clip := some clip } }
  let flags := fun (mirrored : Bool) => ({ continuation := false, retained := false, mirrored := mirrored } : CopyFlags)
  let opened :=
    if s.rcd.mode = .mirror then (began.openFor .a (flags true) none).openFor .b (flags true) none
    else began.openFor s.rcd.primary (flags false) none
  let headed := if s.ftb.interval.isNone then opened.chooseHead (n - BitVec.ofNat 32 s.bfm.depth) else opened
  let ftb := match s.ftb.interval with
    | some iv => { s.ftb with counter := iv.period }
    | none =>
      if s.ftb.mode = .recRun then { s.ftb with generator := s.ftb.generator.advance s.ftb.rate s.ftb.dropFrame } else s.ftb
  ({ headed with ftb := ftb } : State).reportRec .started 0 0

/-- R116: what a start in STANDING is answered by the slot states. -/
def State.startStatus (s : State) : Status :=
  let state := fun side => (s.slot side).state
  let room := fun side => state side = .ready ∨ state side = .full
  if s.rcd.mode = .mirror then
    if state .a = .ready ∧ state .b = .ready then .ok else if room .a ∧ room .b then .full else .noCard
  else if state s.rcd.primary = .ready then .ok else if state s.rcd.primary = .full then .full else .noCard

/-- The last-start entry is the only change (R115). -/
def State.withLastStart (s : State) (source : StartSource) (status : Status) (n : Serial) : State :=
  { s with rcd := { s.rcd with lastStart := some { source := source, status := status, serial := n } } }

end Sys2Proof.Machine
end

