-- ==== Sys2Proof/Certificates/Slice0/Obligations.lean ====
section
/-! DEFINITION. The statements for the provers. A state's frame is said through `Becomes` and `Answers` (Safety.lean): the next
state is the one written out, and nothing but what LNK and VOG do by themselves differs from it. -/

open Sys2Proof Sys2Proof.Machine

/-! ## The machine -/

/-- A step takes the command at the front of the queue and runs its meaning on the state with the queue's rest. With no
command waiting, one cycle of the reference clock passes for the elapsed count e of R6, which a reset holds; a substituted
start that was due already is made before it. That an idle step is one cycle is the MODEL's choice (DESIGN CHOICE, log entry
2). -/
def Obligations.StepTakesFront : Prop :=
  (∀ (c : Instr) (rest : List Instr) (s : State), s.pending = c :: rest → step s = exec c { s with pending := rest }) ∧
  (∀ s : State, s.pending = [] →
      (s.works → s.ftb.within 1 → step s = .next { s with ftb := { s.ftb with elapsed := s.ftb.elapsed + 1 } }) ∧
      (s.works → ¬ s.ftb.within 1 → ∀ v, exec .substitutionTimer s = .next v →
        step s = .next { v with ftb := { v.ftb with elapsed := 1 } }) ∧
      (¬ s.works → step s = .next s))

/-- Every step answers a next state: no command stops the part, in any state. No command touches the queue of the commands
that wait. -/
def Obligations.EveryStepGoesOn : Prop :=
  (∀ s : State, StepsOn s) ∧
  (∀ (c : Instr) (s t : State), exec c s = .next t → t.pending = s.pending)

/-- The buffer memory keeps its canonical form through every step. The timecode's law is kept by every step (R5, R14):
drop-frame stands only where the rate allows it, and the generator and a pending preset hold time values in range, none of
them a dropped label; the elapsed count never goes beyond one and a half periods (R6). The queues' law is kept by every step
(R175, R177): at most 16 messages in the outbound queue, at most 12 of them notice messages, and at most four requests in
the inbound queue. -/
def Obligations.LawsKept : Prop :=
  (∀ s t : State, s.mem.wf = true → step s = .next t → t.mem.wf = true) ∧
  (∀ s t : State, s.ftb.lawful → step s = .next t → t.ftb.lawful) ∧
  (∀ s t : State, s.lnk.lawful → step s = .next t → t.lnk.lawful)

/-- The state after a reset keeps the laws that every step keeps: the buffer memory has its canonical form, the timecode,
the queues of the host link and the pages of the buffer memory (all of them free, R88) keep theirs. -/
def Obligations.ResetKeepsLaws : Prop :=
  State.reset.mem.wf = true ∧ State.reset.ftb.lawful ∧ State.reset.lnk.lawful ∧ State.reset.bfm.lawful

/-- While a reset lasts, a command other than the pin's reset and the reset's end is not taken (R191). The pin's reset is
taken in every state: the part is held in a reset with cause POWER_ON, nothing is pending, ATTN is released, TALLY is dark,
nothing is sent and no frame start is outstanding (R191). By the MODEL's choice the bytes of the buffer memory stand (DESIGN
CHOICE, log entry 6), nothing at all is pending during the reset (DEDUCED, log entry 38), and the queue of commands stands.
-/
def Obligations.ResetHolds : Prop :=
  (∀ (c : Instr) (s : State), ¬ s.works → c ≠ .powerOnReset → (∀ p q a b, c ≠ .resetEnd p q a b) → exec c s = .next s) ∧
  (∀ s : State, ∃ t, exec .powerOnReset s = .next t ∧ t.pwc.resetting = some .powerOn ∧
      t.lnk.attn = false ∧ t.vog.tally = .dark ∧ t.lnk.sending = none ∧ t.lnk.waiting = [] ∧ t.lnk.inbound = [] ∧
      (∀ src, (t.lnk.source src).pending = false) ∧ t.lnc.window = none ∧ t.vog.inFlight = none ∧
      (∀ side, (t.slot side).inFlight = none ∧ (t.slot side).reading = none) ∧ t.due = .none ∧
      t.mem = s.mem ∧ t.pending = s.pending)

/-- The end of a reset (R191, R185, R193): every block holds its power-on values, the baud code is that of the straps, the
cause of the reset is recorded, PART_STARTED alone is pending, with the cause, the baud code and the two raw detect levels
as its detail and serial 0; its message is being sent, and ATTN is asserted. By the MODEL's choice the buffer memory stands
(DESIGN CHOICE, log entry 6), the values that no reset table states are those of log entry 7 and the debounced levels of the
slots are clear (log entry 8), and with no reset in progress none ends (log entry 16); the queue of commands stands. -/
def Obligations.ResetEndStarts : Prop :=
  ∀ (s : State) (strap1 strap0 a b : Bool),
    (∀ cause, s.pwc.resetting = some cause →
      ∃ t, exec (.resetEnd strap1 strap0 a b) s = .next t ∧
        t.pwc = { inRun := true, enables := { lnc := true, stb := true, aud := true, vog := true, slots := ⟨true, true⟩ },
                  lastReset := cause, lastRunChange := .request, resetting := none } ∧
        t.ftb = .afterReset ∧ t.lnc = .afterReset ∧ t.stb = .afterReset ∧ t.aud = .afterReset ∧ t.bfm = .afterReset ∧
        t.rcd = .afterReset ∧ t.slots = ⟨.afterReset, .afterReset⟩ ∧ t.vog = .afterReset ∧ t.due = .none ∧
        t.lnk.baud = (if strap1 then 2 else 0) + (if strap0 then 1 else 0) ∧
        t.lnk.kept = [] ∧ t.lnk.inbound = [] ∧ t.lnk.waiting = [] ∧ t.lnk.mask = 0 ∧ t.lnk.counts = .zero ∧
        (t.lnk.source .partStarted).pending = true ∧ (t.lnk.source .partStarted).count = 1 ∧
        (t.lnk.source .partStarted).record = some
          { detail := u8 (if cause = .powerOn then 0 else 1) ++ u8 t.lnk.baud ++ flagByte a ++ flagByte b, serial := 0 } ∧
        (∀ src, src ≠ .partStarted → t.lnk.source src = src.afterReset) ∧
        t.lnk.sending.map Sending.msg = some (.notice .partStarted) ∧ t.lnk.attn = true ∧
        t.mem = s.mem ∧ t.pending = s.pending) ∧
    (s.works → exec (.resetEnd strap1 strap0 a b) s = .next s)

/-- Some of the values of State.reset that the manual states (R25, R46, R69, R86, R111, R133, R156, R170, R185, R193): those
of the settings, states, lists and records written out here. The values that those tables give besides (the zoom curve and
the last endings, the tile buffers and counts of STB, the pending settings and counts of AUD, the counts of BFM, of the
endings and of the cards, the row, column and text of the host slots, the link's counts and the settings of the notice
sources) are not part of this statement. -/
def Obligations.ResetValues : Prop :=
  let s := State.reset
  (s.ftb.rate = .r25 ∧ s.ftb.dropFrame = false ∧ s.ftb.state = .acquire ∧ s.ftb.elapsed = 0 ∧ s.ftb.serial = 0 ∧
    s.ftb.measurement = 0 ∧ s.ftb.runts = 0 ∧ s.ftb.substituted = 0 ∧ s.ftb.history = [] ∧
    s.ftb.generator = ⟨0, 0, 0, 0⟩ ∧ s.ftb.userBits = 0 ∧ s.ftb.mode = .freeRun ∧ s.ftb.preset = none ∧
    s.ftb.trigger = none ∧ s.ftb.interval = none ∧ s.ftb.counter = 0) ∧
  (s.lnc.lens = .unknown ∧ s.lnc.misses = 0 ∧ s.lnc.totalMisses = 0 ∧
    s.lnc.latest = ⟨2048, 2048, 128, false, ⟨false, false, false⟩⟩ ∧ s.lnc.previous = s.lnc.latest ∧
    s.lnc.zoom.mode = .idle ∧ s.lnc.zoom.demand = 2048 ∧ s.lnc.zoom.released = false ∧ s.lnc.zoom.least = 0 ∧
    s.lnc.zoom.greatest = 4095 ∧ s.lnc.zoom.speeds = [0, 2, 4, 8, 14, 24, 40, 64, 96] ∧ s.lnc.focus = s.lnc.zoom ∧
    s.lnc.iris.auto = false ∧ s.lnc.iris.demand = 128 ∧ s.lnc.iris.released = false ∧ s.lnc.iris.target = 112 ∧
    s.lnc.iris.deadband = 4 ∧ s.lnc.presets = List.replicate 8 none ∧ s.lnc.tileMean = none ∧ s.lnc.window = none) ∧
  (s.stb.state = .off ∧ s.stb.x.c = 0 ∧ s.stb.y.c = 0 ∧ s.stb.settle = 0 ∧ s.stb.quiet = 0 ∧ s.stb.gyroFault = false ∧
    s.stb.badRun = 0 ∧ s.stb.goodRun = 0 ∧ s.stb.lastGood = none ∧ s.stb.x.sum = 0 ∧ s.stb.y.sum = 0 ∧ s.stb.samples = 0 ∧
    s.stb.result = none ∧ s.stb.distrust = some .noResult ∧
    s.stb.settings = ⟨96, 54, 500, 15, 0, 0, false, false, 320⟩) ∧
  (s.aud.pairs.a.state = .off ∧ s.aud.pairs.a.store = [] ∧ s.aud.pairs.a.last = none ∧ s.aud.pairs.a.first.gain = 0 ∧
    s.aud.pairs.a.first.limiter = ⟨false, 0, 50⟩ ∧ s.aud.pairs.a.first.reduction = 0 ∧ s.aud.pairs.a.first.meter = 97 ∧
    s.aud.pairs.a.first.holdHistory = [] ∧ s.aud.pairs.a.second = s.aud.pairs.a.first ∧ s.aud.pairs.b = s.aud.pairs.a) ∧
  (s.bfm.free.pages.length = 16384 ∧ s.bfm.entries = [] ∧ s.bfm.port = .header ∧ s.bfm.queue = [] ∧ s.bfm.depth = 0 ∧
    s.bfm.windows = List.replicate 4 none ∧ s.bfm.attachments = [] ∧ s.bfm.nextMark = none ∧ s.bfm.gapPending = false) ∧
  (s.rcd.state = .standing ∧ s.rcd.mode = .single ∧ s.rcd.primary = .a ∧ s.rcd.clip = none ∧ s.rcd.sequence = 0 ∧
    s.rcd.latch = false ∧ s.rcd.lastStart = none) ∧
  (s.slots.a.state = .absent ∧ s.slots.a.summary = none ∧ s.slots.a.queue = [] ∧ s.slots.a.inFlight = none ∧
    s.slots.a.copy = none ∧ s.slots.a.threshold = 64 ∧ s.slots.a.nearFull = false ∧ s.slots.a.deferred = false ∧
    s.slots.a.sizes = [] ∧ s.slots.b = s.slots.a) ∧
  (s.vog.zebra = 100 ∧ s.vog.peaking = 0 ∧ s.vog.marker = false ∧ s.vog.blink = 31 ∧ s.vog.shown = none ∧
    s.vog.dwell = 0 ∧ s.vog.inFlight = none ∧ s.vog.waiting = none ∧ s.vog.droppedRecords = 0 ∧ s.vog.tally = .dark ∧
    (s.vog.slots.map ItemSlot.enabled) =
      [true, true, true, true, true, true, true, false, false, false, true] ++ List.replicate 21 false ∧
    s.vog.slots.map ItemSlot.priority = List.replicate 32 4) ∧
  (s.lnk.mask = 0 ∧ s.lnk.attn = true ∧ s.lnk.kept = [] ∧ s.lnk.inbound = []) ∧
  (s.pwc.inRun = true ∧ s.pwc.enables = ⟨true, true, true, true, ⟨true, true⟩⟩ ∧ s.pwc.lastReset = .powerOn ∧
    s.pwc.lastRunChange = .request ∧ s.pwc.resetting = none)

/-! ## Frame starts and timecode -/

/-- A real frame start (R6, R7, R8, R10): in ACQUIRE at once, in HOLDOVER and LOCKED from three quarters of a period on. The
state becomes LOCKED; a LOCKED start that follows a real one sets the period measurement. The serial, the label history, the
generator and the interval counter move as `State.framed` writes them out, each block has the frame start to act on, and
nothing else changes. No trigger matches here; `TriggerFires` says what one does. An edge that makes no frame start (R7, R8,
R9): in LOCKED before three quarters of a period it is a runt, counted; in HOLDOVER it is absorbed, the elapsed count
restarts and the state is LOCKED; in STANDBY it is ignored. Where a substituted start falls due before the edge, it is made
first, at its own time, and the edge finds what it leaves. That the edge carries the cycles since the elapsed count was last
brought up to date is the MODEL's choice (DESIGN CHOICE, log entry 2). -/
def Obligations.FrameStartEdges : Prop :=
  (∀ (cycles : Nat) (s : State), s.works → s.ftb.unmatched → s.ftb.within cycles →
      let e := s.ftb.elapsed + cycles
      let n := s.ftb.rate.period
      let u := s.framed false
      (s.ftb.state = .acquire ∨ (s.ftb.state = .holdover ∧ 3 * n ≤ 4 * e) →
        Becomes (.frameStartEdge cycles) s { u with ftb := { u.ftb with state := .locked } }) ∧
      (s.ftb.state = .locked ∧ 3 * n ≤ 4 * e →
        Becomes (.frameStartEdge cycles) s
          { u with ftb := { u.ftb with measurement := if s.ftb.previousReal then e else s.ftb.measurement } })) ∧
  (∀ (cycles : Nat) (s : State), s.works → s.ftb.within cycles →
      let e := s.ftb.elapsed + cycles
      let n := s.ftb.rate.period
      (s.ftb.state = .locked ∧ 4 * e < 3 * n →
        Becomes (.frameStartEdge cycles) s { s with ftb := { s.ftb with elapsed := e, runts := min 65535 (s.ftb.runts + 1) } }) ∧
      (s.ftb.state = .holdover ∧ 4 * e < 3 * n →
        Becomes (.frameStartEdge cycles) s { s with ftb := { s.ftb with elapsed := 0, state := .locked } }) ∧
      (s.ftb.state = .standby → Becomes (.frameStartEdge cycles) s { s with ftb := { s.ftb with elapsed := e } })) ∧
  ∀ (cycles : Nat) (s v : State), s.works → ¬ s.ftb.within cycles →
    exec .substitutionTimer { s with ftb := { s.ftb with elapsed := max s.ftb.elapsed s.ftb.dueAt } } = .next v →
      exec (.frameStartEdge cycles) s = exec (.frameStartEdge (cycles - (s.ftb.dueAt - s.ftb.elapsed))) v

/-- The substitution timer (R6 to R9) fires when one and a half periods have passed since the last frame start, in HOLDOVER
and STANDBY one: a substituted frame start in every state, as `State.timed` writes it out. In ACQUIRE and LOCKED it is
counted, the state becomes HOLDOVER and FRAME_LOSS occurs with the new serial and that of the last real start; in HOLDOVER
it is counted; in STANDBY neither. No trigger matches here; `TriggerFires` says what one does. That the one in ACQUIRE is
counted is DEDUCED (log entry 12). Before its time the timer does not fire, and the command then changes nothing (the
MODEL's choice: DESIGN CHOICE, log entry 16). -/
def Obligations.TimerStartsFrame : Prop :=
  ∀ s : State, s.works →
    (s.ftb.elapsed < s.ftb.dueAt → Becomes .substitutionTimer s s) ∧
    (s.ftb.dueAt ≤ s.ftb.elapsed → s.ftb.unmatched → Becomes .substitutionTimer s s.timed)

/-- A trigger whose time value is the frame's label fires (R20), at a real frame start in ACQUIRE, LOCKED and HOLDOVER and
at a substituted one in every timebase state (that the one out of ACQUIRE is counted is DEDUCED, log entry 12): it is
disarmed, and TC_TRIGGER occurs with the serial, the time value, the action and the outcome, before a FRAME_LOSS of the same
start. NOTICE_ONLY does nothing more, and neither does a STOP that finds the Recorder in another state than RECORDING. A
STOP in RECORDING fixes E at this frame's serial; the entry of this frame is still to come, so in RUN the clip stays in
CLOSING (R121, R122). A START answers what the Recorder answers a start of source TRIGGER at this frame's serial, and the
last-start entry holds it; the entry apart, one that begins no clip changes nothing, and one taken in STANDING begins the
clip with this serial as its S, as `State.clipBegun` writes it out (R117; in MIRROR slot A's copy first, DESIGN CHOICE, log
entry 40). -/
def Obligations.TriggerFires : Prop :=
  ∀ (c : Instr) (cycles : Nat) (s v : State) (t : Trigger), s.works → s.ftb.trigger = some t → t.time = s.ftb.nextTime →
    s.ftb.within cycles →
    let e := s.ftb.elapsed + cycles
    let real := s.framed false
    let late := s.framed true
    let counted := min 65535 (s.ftb.substituted + 1)
    let timer := c = .substitutionTimer ∧ cycles = 0 ∧ s.ftb.dueAt ≤ e
    let lost := timer ∧ (s.ftb.state = .acquire ∨ s.ftb.state = .locked)
    (c = .frameStartEdge cycles ∧
        (s.ftb.state = .acquire ∨ (s.ftb.state = .holdover ∧ 3 * s.ftb.rate.period ≤ 4 * e)) ∧
        v = { real with ftb := { real.ftb with state := .locked, trigger := none } }) ∨
      (c = .frameStartEdge cycles ∧ (s.ftb.state = .locked ∧ 3 * s.ftb.rate.period ≤ 4 * e) ∧
        v = { real with ftb := { real.ftb with
          trigger := none, measurement := if s.ftb.previousReal then e else s.ftb.measurement } }) ∨
      (lost ∧ v = { late with ftb := { late.ftb with substituted := counted, state := .holdover, trigger := none } }) ∨
      (timer ∧ s.ftb.state = .holdover ∧
        v = { late with ftb := { late.ftb with substituted := counted, trigger := none } }) ∨
      (timer ∧ s.ftb.state = .standby ∧
        v = { late with ftb := { late.ftb with trigger := none } }) →
    let n := s.ftb.serial + 1
    let fires := fun (w : State) (status : Status) =>
      let told := w.report .tcTrigger (serialBytes n ++ t.time.bytes ++ u8 t.action.code ++ u8 status.code)
      (¬ lost → Becomes c s told) ∧ (lost → Becomes c s (told.report .frameLoss (serialBytes n ++ serialBytes s.ftb.lastReal)))
    let noted := fun (w : State) (status : Status) => w.withLastStart .trigger status n
    (t.action = .noticeOnly ∨ (t.action = .stop ∧ s.rcd.state ≠ .recording) → fires v .ok) ∧
    (∀ clip, t.action = .stop → s.rcd.state = .recording → s.rcd.clip = some clip →
      let stopped := ({ v with rcd := { v.rcd with
        state := .closing, clip := some { clip with last := some n, reason := some .stopped } } } : State).reportRec .stopped 0 0
      fires stopped.watchClip .ok ∧ (s.pwc.inRun = true → stopped.watchClip = stopped)) ∧
    (t.action = .start →
      (s.pwc.inRun = false → fires (noted v .badState) .badState) ∧
      (s.pwc.inRun = true →
        (s.rcd.state = .recording → fires (noted v .ok) .ok) ∧
        (s.rcd.state = .closing ∨ s.rcd.state = .retaining → fires (noted v .busy) .busy) ∧
        (s.rcd.state = .standing → v.startStatus ≠ .ok → fires (noted v v.startStatus) v.startStatus) ∧
        (s.rcd.state = .standing → v.startStatus = .ok → fires (noted (v.clipBegun n) .ok) .ok)))

/-- FRAME_CONFIG (R23) with the Recorder STANDING: the rate and the flag are set, every history entry loses its valid
flag, the measurement is 0, the generator, the preset and the trigger are brought under the new rate, BFM is cleared and
the routed pairs start afresh; a substituted start that is due at the new period is then made at once (no trigger
matches it here; that one out of ACQUIRE is counted is DEDUCED, log entry 12). A routed pair that starts afresh (R85) is
WARMING with an empty store and a new sample block, and its meters, holds and block peaks start anew; gains, limiter
settings, reductions and release counts are kept, and pending settings stay pending (the MODEL's choice: DESIGN CHOICE,
log entry 54). The reply gives the settings, the two time values, and whether the trigger was disarmed, all as they
stand before a substituted start that is due is made (DEDUCED, log entry 20). An unknown rate or flag, or drop-frame on
a rate that does not allow it, is refused BAD_VALUE, and a valid request outside STANDING BAD_STATE; neither changes
anything. That the first is answered outside STANDING too is the MODEL's choice (DESIGN CHOICE, log entry 17), and so is
the order in which the clearing of BFM returns the pages (log entry 41). -/
def Obligations.FrameConfigTaken : Prop :=
  (∀ (tag : Byte) (r : Rate) (drop : Bool) (s : State), s.ready → (drop = true → r.dropAllowed = true) →
    s.rcd.state = .standing →
    let fit := fun (t : Timecode) => ({ t with frames := min t.frames (r.nominal - 1) } : Timecode).moveForward r drop
    let keeps := fun (t : Trigger) => decide (t.time.frames < r.nominal) && !t.time.isDropped r drop
    let ftb := { s.ftb with
      rate := r, dropFrame := drop, history := s.ftb.history.map (fun e => { e with valid := false }), measurement := 0,
      generator := fit s.ftb.generator, preset := s.ftb.preset.map fit, trigger := s.ftb.trigger.filter keeps }
    let u : State := { s with ftb := ftb, bfm := s.bfm.clearAll, aud := s.aud.restart }
    let taken := fun (v : State) =>
      Answers (.frameConfig tag (u8 r.code ++ flagByte drop)) .frameConfig tag s v .ok
        (u8 r.code ++ flagByte drop ++ (fit s.ftb.generator).bytes ++
          presence 4 ((s.ftb.preset.map fit).map Timecode.bytes) ++
          flagByte (s.ftb.trigger.any (fun t => !keeps t)))
    (ftb.elapsed < ftb.dueAt → taken u) ∧ (ftb.dueAt ≤ ftb.elapsed → ftb.unmatched → taken u.timed)) ∧
  (∀ (aud : Aud) (side : Side),
    let p := aud.pairs.get side
    let anew := fun (c : Channel) => { c with meter := 97, holdHistory := [], blockPeak := 0 }
    (p.state = .off → aud.restart.pairs.get side = p) ∧
    (p.state ≠ .off → aud.restart.pairs.get side =
      { p with
        state := .warming, store := [], blockCount := 0, dropped := 0, first := anew p.first, second := anew p.second })) ∧
  ∀ (tag a b : Byte) (s : State), s.ready →
    ((∀ (r : Rate) (drop : Bool), u8 r.code ++ flagByte drop = [a, b] → drop = true ∧ r.dropAllowed = false) →
      Answers (.frameConfig tag [a, b]) .frameConfig tag s s .badValue []) ∧
    ∀ (r : Rate) (drop : Bool), u8 r.code ++ flagByte drop = [a, b] → (drop = true → r.dropAllowed = true) →
      s.rcd.state ≠ .standing → Answers (.frameConfig tag [a, b]) .frameConfig tag s s .badState []

/-- TC_USERBITS (R18): every value is taken and answered OK. The frames already labelled keep their bits (nothing else
changes), and the next frame's label carries the new ones. -/
def Obligations.UserBitsSet : Prop :=
  ∀ (tag : Byte) (x : BitVec 32) (s : State), s.ready →
    Answers (.tcUserbits tag (u32 x.toNat)) .tcUserbits tag s { s with ftb := { s.ftb with userBits := x } } .ok [] ∧
    ∀ t cycles v, exec (.tcUserbits tag (u32 x.toNat)) s = .next t →
      (exec (.frameStartEdge cycles) t = .next v ∨ exec .substitutionTimer t = .next v) → v.ftb.serial ≠ t.ftb.serial →
        ∃ entry, v.ftb.history.getLast? = some entry ∧ entry.serial = v.ftb.serial ∧ entry.label.userBits = x

/-- The other settings of the timecode, taken and refused. TC_PRESET takes a value in range and moves a dropped label
forward (R17); TC_MODE takes FREE-RUN always, and REC-RUN when it is in force or neither a pre-record depth nor a trigger
forbids it (R16); TC_TRIGGER disarms always, and arms in FREE-RUN a value in range that is no dropped label (R19);
INTERVAL_CONFIG is taken while the Recorder is STANDING and sets the counter to 0 (R21). That INTERVAL_CONFIG is off by its
first byte alone, whatever stands behind it, is the MODEL's choice (DESIGN CHOICE, log entry 15). A field out of range, a
dropped label to arm, an unknown mode or action and a period not above its burst are refused BAD_VALUE; REC-RUN where it is
forbidden, arming in REC-RUN and INTERVAL_CONFIG outside STANDING BAD_STATE. That a bad value of INTERVAL_CONFIG is answered
BAD_VALUE outside STANDING too is the MODEL's choice (DESIGN CHOICE, log entry 17). A refusal changes nothing. -/
def Obligations.TimecodeSettingsTaken : Prop :=
  ∀ (tag : Byte) (s : State), s.ready →
    (∀ h m sec f : Byte,
      let t : Timecode := { hours := h.toNat, minutes := m.toNat, seconds := sec.toNat, frames := f.toNat }
      let moved := t.moveForward s.ftb.rate s.ftb.dropFrame
      (t.inRange s.ftb.rate = true →
        Answers (.tcPreset tag [h, m, sec, f]) .tcPreset tag s { s with ftb := { s.ftb with preset := some moved } } .ok
          (moved.bytes ++ flagByte (moved != t))) ∧
      (t.inRange s.ftb.rate = false → Answers (.tcPreset tag [h, m, sec, f]) .tcPreset tag s s .badValue [])) ∧
    (∀ mode : TcMode,
      let may := mode = .freeRun ∨ s.ftb.mode = .recRun ∨ (s.bfm.depth = 0 ∧ s.ftb.trigger = none)
      (may →
        Answers (.tcMode tag (u8 mode.code)) .tcMode tag s { s with ftb := { s.ftb with mode := mode } } .ok (u8 mode.code)) ∧
      (¬ may → Answers (.tcMode tag (u8 mode.code)) .tcMode tag s s .badState [])) ∧
    (∀ x : Byte, 1 < x.toNat → Answers (.tcMode tag [x]) .tcMode tag s s .badValue []) ∧
    (∀ h m sec f : Byte,
      let t : Timecode := { hours := h.toNat, minutes := m.toNat, seconds := sec.toNat, frames := f.toNat }
      let good := t.inRange s.ftb.rate = true ∧ t.isDropped s.ftb.rate s.ftb.dropFrame = false
      let trigger := fun (x : Byte) => Instr.tcTrigger tag [h, m, sec, f, x]
      Answers (trigger 0) .tcTrigger tag s { s with ftb := { s.ftb with trigger := none } } .ok [] ∧
      ∀ x : Byte, x ≠ 0 →
        (s.ftb.mode = .recRun → Answers (trigger x) .tcTrigger tag s s .badState []) ∧
        (s.ftb.mode = .freeRun →
          (3 < x.toNat ∨ ¬ good → Answers (trigger x) .tcTrigger tag s s .badValue []) ∧
          ∀ action : TriggerAction, u8 action.code = [x] → good →
            Answers (trigger x) .tcTrigger tag s
              { s with ftb := { s.ftb with trigger := some { time := t, action := action } } } .ok [])) ∧
    (∀ x y z : Byte,
      let off := Instr.intervalConfig tag [0, x, y, z]
      (s.rcd.state = .standing → Answers off .intervalConfig tag s
        { s with ftb := { s.ftb with interval := none, counter := 0 } } .ok (presence 3 none)) ∧
      (s.rcd.state ≠ .standing → Answers off .intervalConfig tag s s .badState [])) ∧
    ∀ on burst period : Nat, 1 ≤ on → on ≤ 255 → burst ≤ 255 → period ≤ 65535 →
      let c := Instr.intervalConfig tag (u8 on ++ u8 burst ++ u16 period)
      let good := on = 1 ∧ 1 ≤ burst ∧ burst ≤ 60 ∧ burst < period
      (¬ good → Answers c .intervalConfig tag s s .badValue []) ∧
      (good → s.rcd.state ≠ .standing → Answers c .intervalConfig tag s s .badState []) ∧
      (good → s.rcd.state = .standing → Answers c .intervalConfig tag s
        { s with ftb := { s.ftb with interval := some { burst := burst, period := period }, counter := 0 } } .ok
        (presence 3 (some (u8 burst ++ u16 period))))

/-! ## Lens control -/

/-- LNC's frame start while it works (R26, R28 to R31, R33, R34, R39, R41, R42): a window still open is a miss first, as
`State.missed` writes it out; each of zoom and focus moves as its mode says and is clamped to its soft limits; a MANUAL iris
with a move takes its step and an automatic one its own; the focal length is computed, the demand record is sent (HOLD for a
released axis), its window opens, and the lens record that this leaves goes with the frame start to STB, BFM and VOG. No
move is at its last wait; `MoveEnds` says how one ends there. A block that does not act (disabled, or the part in STANDBY)
only takes the frame start off. R30's law: whatever the modes, a zoom or focus demand that a frame start sends lies within
the axis's soft limits; and R34's: the last step of a ramp asks for the target itself. R33: a rate moves the demand by the
speed between two knots of the table, a quarter of it, 1 at least, within 64 counts of the limit it drives toward. R41: an
error above the deadband moves the iris by an eighth of it, 4 at most. R42: the focal length lies between two knots of the
curve, and is doubled with the extender in. -/
def Obligations.LensFrame : Prop :=
  (∀ (f : FrameStart) (rest : List FrameStart) (s : State), s.works → s.due.lnc = f :: rest →
      let s' := if s.lnc.window.isSome then s.missed else s
      let l := s'.lnc
      (s.lncActs f = false → Becomes .lncFrameStart s { s with due := { s.due with lnc := rest } }) ∧
      (f.inRun = true → s.pwc.inRun = true → s.pwc.enables.lnc = true →
        (∀ axis m w, l.moveOf axis = some m → m.phase = .wait w → w + 1 < 50) →
        let step := fun (m : Move) => match m.phase with
          | .ramp k =>
            (((m.p0 : Int) + roundDiv (((m.p1 : Int) - m.p0) * (k + 1 : Nat)) m.duration).toNat,
              { m with phase := if k + 1 < m.duration then .ramp (k + 1) else .wait 0 })
          | .wait w => (m.p1, { m with phase := .wait (w + 1) })
        let moved := fun (v : Servo) (reported : Nat) =>
          if v.released then { v with demand := reported }
          else match v.mode with
          | .idle => v
          | .rate r => { v with demand := rateDemand v r }
          | .move m => { v with demand := (step m).1, mode := .move (step m).2 }
        let clamped := fun (v : Servo) => { v with demand := clampNat v.least v.greatest v.demand }
        let zoom := clamped (moved l.zoom l.latest.zoom)
        let focus := clamped (moved l.focus l.latest.focus)
        let iris :=
          if l.iris.released then l.iris
          else if l.iris.auto then
            (match l.tileMean with
             | some (n, luma) =>
               if n = f.serial - 1 ∧ l.lens ≠ .lost then { l.iris with demand := autoIris l.iris luma } else l.iris
             | none => l.iris)
          else match l.iris.move with
          | some m => { l.iris with demand := (step m).1, move := some (step m).2 }
          | none => l.iris
        let focal := focalLength l.curve l.latest
        let record : LensRecord :=
          { report := l.latest, previousZoom := l.previous.zoom, focal := focal, focalSerial := f.serial,
            stale := decide (l.lens ≠ .present) }
        let left := fun (fs : List FrameStart) => fs.map (fun g => if g.serial = f.serial then { g with lens := some record } else g)
        let sent := fun (released : Bool) (x : Nat) => if released then Demand.hold else .position x
        Becomes .lncFrameStart s { s' with
          due := { s.due with lnc := rest, stb := left s.due.stb, bfm := left s.due.bfm, vog := left s.due.vog }
          lnc := { l with
            zoom := zoom, focus := focus, iris := iris, focal := focal, focalSerial := f.serial
            sent := some (f.serial, { zoom := sent zoom.released zoom.demand, focus := sent focus.released focus.demand,
                                      iris := sent iris.released iris.demand })
            window := some { serial := f.serial, twiceLength := s.ftb.rate.period } } })) ∧
  ((∀ (f : FrameStart) (rest : List FrameStart) (s t : State), s.works → s.due.lnc = f :: rest → s.lncActs f = true →
      s.lnc.zoom.least ≤ s.lnc.zoom.greatest → s.lnc.focus.least ≤ s.lnc.focus.greatest →
      exec .lncFrameStart s = .next t →
      ∃ d, t.lnc.sent = some (f.serial, d) ∧
        (∀ x, d.zoom = .position x → s.lnc.zoom.least ≤ x ∧ x ≤ s.lnc.zoom.greatest) ∧
        (∀ x, d.focus = .position x → s.lnc.focus.least ≤ x ∧ x ≤ s.lnc.focus.greatest)) ∧
    ∀ m : Move, 1 ≤ m.duration → rampDemand m m.duration = m.p1) ∧
  (∀ (v : Servo) (r : Int) (i w a b : Nat), r.natAbs = 16 * i + w → w < 16 → v.speeds[i]? = some a → v.speeds[i + 1]? = some b →
      a ≤ b → v.least ≤ v.greatest →
      let speed := a + (b - a) * w / 16
      let slow := fun (near : Prop) (used : Nat) => (near → 1 ≤ speed → used = max 1 (speed / 4)) ∧
        (¬ near ∨ speed = 0 → used = speed)
      (0 ≤ r → ∃ used, slow (v.greatest ≤ v.demand + 64) used ∧
        rateDemand v r = max v.least (min v.greatest (v.demand + used))) ∧
      (r < 0 → ∃ used, slow (v.demand ≤ v.least + 64) used ∧
        rateDemand v r = max v.least (min v.greatest (v.demand - used)))) ∧
  (∀ (iris : Iris) (luma : Nat), iris.demand ≤ 255 →
      let error := (iris.target : Int) - luma
      let change := min 4 (error.natAbs / 8)
      (error.natAbs ≤ iris.deadband → autoIris iris luma = iris.demand) ∧
      (iris.deadband < error.natAbs → 0 ≤ error → autoIris iris luma = min 255 (iris.demand + change)) ∧
      (iris.deadband < error.natAbs → error < 0 → autoIris iris luma = iris.demand - change)) ∧
  ∀ (curve : List Nat) (report : LensReport) (i w a b : Nat), report.zoom = 256 * i + w → w < 256 → curve[i]? = some a →
    curve[i + 1]? = some b →
    ∃ f : Nat, (f : Int) = a + Int.fdiv (((b : Int) - a) * w) 256 ∧
      focalLength curve report = if report.extender then min 65535 (2 * f) else f

/-- A good report (R27, R34, R39, R196): it closes the window and becomes the latest, the consecutive misses are 0 and the
lens is PRESENT. A rising override flag ends the axis's move OVERRIDDEN, releases the axis, ends its rate and reports
LENS_OVERRIDE; while it stays set the axis's demand follows the lens; its fall ends the release at the reported position.
Then a move in WAIT whose target the report shows within 4 counts ends ARRIVED, with the target as the demand. `MoveEnds`
says what an ending does. Bits 4 to 7 of the flags byte are not judged. That the axes are judged in the order zoom, focus,
iris, so that the first one's detail stands, is the MODEL's choice (DESIGN CHOICE, log entry 39). -/
def Obligations.GoodReportTaken : Prop :=
  ∀ (zoom focus iris flags : Nat) (w : ReportWindow) (s : State), s.works → s.lnc.window = some w →
    zoom ≤ 4095 → focus ≤ 4095 → iris ≤ 255 → flags ≤ 255 →
    let body := u16 zoom ++ u16 focus ++ u8 iris ++ u8 flags
    let old := s.lnc.latest.override
    let u : State := { s with lnc := { s.lnc with
      window := none, previous := s.lnc.latest, misses := 0, lens := .present, reported := true, lastGood := w.serial
      latest := { zoom := zoom, focus := focus, iris := iris, extender := flags.testBit 0
                  override := { zoom := flags.testBit 1, focus := flags.testBit 2, iris := flags.testBit 3 } } } }
    let servo := fun (v : State) (d : Drive) (f : Servo → Servo) =>
      (match d with
       | .zoom => { v with lnc := { v.lnc with zoom := f v.lnc.zoom } }
       | .focus => { v with lnc := { v.lnc with focus := f v.lnc.focus } } : State)
    let hand := fun (v : State) (f : Iris → Iris) => ({ v with lnc := { v.lnc with iris := f v.lnc.iris } } : State)
    let drive := fun (v : State) (d : Drive) (number x : Nat) (before now : Bool) =>
      match before, now with
      | false, true =>
        (servo (v.endMove d.axis .overridden) d (fun a => { a with mode := .idle, released := true })).report .lensOverride
          (u8 number ++ u16 x)
      | true, true => servo v d (fun a => { a with demand := clampNat a.least a.greatest x })
      | true, false => servo v d (fun a => { a with mode := .idle, released := false, demand := clampNat a.least a.greatest x })
      | false, false => v
    let judged := drive (drive u .zoom 0 zoom old.zoom (flags.testBit 1)) .focus 1 focus old.focus (flags.testBit 2)
    let judged := match old.iris, flags.testBit 3 with
      | false, true =>
        (hand (judged.endMove .iris .overridden) (fun a => { a with released := true })).report .lensOverride (u8 2 ++ u16 iris)
      | true, true => hand judged (fun a => { a with demand := iris })
      | true, false => hand judged (fun a => { a with released := false, demand := iris })
      | false, false => judged
    let arrival := fun (v : State) (axis : Axis) (x : Nat) => match v.lnc.moveOf axis with
      | some m =>
        (match m.phase with
         | .wait _ => if m.p1 ≤ x + 4 ∧ x ≤ m.p1 + 4 then some m.p1 else none
         | .ramp _ => none)
      | none => none
    let arrives := fun (v : State) (d : Drive) (x : Nat) => match arrival v d.axis x with
      | some p1 => servo (v.endMove d.axis .arrived) d (fun a => { a with demand := p1 })
      | none => v
    let arrived := arrives (arrives judged .zoom zoom) .focus focus
    Becomes (.lensReport (body ++ crcBytes body)) s
      (match arrival arrived .iris iris with
       | some p1 => hand (arrived.endMove .iris .arrived) (fun a => { a with demand := p1 })
       | none => arrived)

/-- A miss (R28): the window's expiry, or a malformed report while it is open, closes it and counts. The third consecutive
miss of a lens that is not LOST makes it LOST: LENS_LOST occurs, every move ends LOST, zoom and focus are IDLE, as
`State.missed` writes it out. With no window open a report, well-formed or not, changes nothing (R27); that an expiry then
changes nothing is the MODEL's choice (DESIGN CHOICE, log entry 16), and so is the order zoom, focus, iris in which the
moves end (log entry 39). -/
def Obligations.ReportMissed : Prop :=
  (∀ (c : Instr) (s : State), s.works →
    (c = .reportWindowExpiry ∨ ∃ bytes : List Byte, c = .lensReport bytes ∧
      (bytes.length ≠ 8 ∨ field bytes 6 2 ≠ crcBytes (bytes.take 6) ∨ 4095 < num bytes 0 2 ∨ 4095 < num bytes 2 2)) →
    s.lnc.window.isSome = true → Becomes c s s.missed) ∧
  ∀ s : State, s.works → s.lnc.window = none →
    Becomes .reportWindowExpiry s s ∧ ∀ bytes : List Byte, Becomes (.lensReport bytes) s s

/-- How a move ends (R35): its record is removed, zoom or focus is IDLE, the axis's last-ending entry holds the status, the
origin, the final position and the latest serial, and LENS_MOVE_DONE occurs. The preset byte of an ending of origin
LENS_GOTO is a free byte (log entry 1). A report within 4 counts of the target of a move in WAIT ends it ARRIVED with that
target as the demand (R34); the 50th frame start of WAIT ends it LATE, on the iris as on zoom and focus. -/
def Obligations.MoveEnds : Prop :=
  (∀ (axis : Axis) (status : MoveStatus) (m : Move) (s : State), s.lnc.moveOf axis = some m →
    let l := s.lnc
    let x := if l.reported then l.latest.position axis else l.demandOf axis
    let e : Ending := { status := status, origin := m.origin, position := x, serial := s.ftb.serial }
    let lnc := match axis with
      | .zoom => { l with zoom := { l.zoom with mode := .idle, lastEnding := some e } }
      | .focus => { l with focus := { l.focus with mode := .idle, lastEnding := some e } }
      | .iris => { l with iris := { l.iris with move := none, lastEnding := some e } }
    s.endMove axis status = ({ s with lnc := lnc } : State).notify .lensMoveDone
      ((u8 (axisCode axis) ++ u8 status.code ++ u16 x ++ u8 m.origin.code).map some ++
        (match m.origin with
         | .goto => [none]
         | .recall n => (u8 n).map some))) ∧
  (∀ (axis : Axis) (m : Move) (w : Nat) (s : State), s.lnc.moveOf axis = some m → m.phase = .wait w →
    (s.judgeArrival axis = if m.p1 ≤ s.lnc.latest.position axis + 4 ∧ s.lnc.latest.position axis ≤ m.p1 + 4 then
        (s.endMove axis .arrived).modifyLnc (fun l => l.setDemand axis m.p1)
      else s)) ∧
  (∀ (d : Drive) (m : Move) (s : State), (s.lnc.servo d).released = false → (s.lnc.servo d).mode = .move m →
    m.phase = .wait 49 →
    s.driveFrame d = (s.modifyLnc (fun l => l.modifyServo d (fun v => { v with demand := m.p1 }))).endMove d.axis .late) ∧
  ∀ (n : Serial) (m : Move) (s : State), s.lnc.iris.released = false → s.lnc.iris.auto = false → s.lnc.iris.move = some m →
    m.phase = .wait 49 →
    s.irisFrame n = ({ s with lnc := { s.lnc with iris := { s.lnc.iris with demand := m.p1 } } } : State).endMove .iris .late

/-- ZOOM_RATE and FOCUS_RATE (R32), LENS_GOTO (R34) and LENS_STOP (R38), taken and refused: what they ask of an axis ends
its move INTERRUPTED first. A move starts from the axis's demand to the clamped target, over a common T lengthened to what
the top speeds need. That zoom is bit 0 and focus bit 1 of LENS_GOTO's axis set is the MODEL's choice (DESIGN CHOICE, log
entry 14), and so is that the target of an axis that is not named is not judged (log entry 15). A rate of -128, an empty or
unknown axis set, a named target above 4,095 and a T out of range are refused BAD_VALUE; a released axis, a LOST lens (but
for a rate of 0) and STANDBY BAD_STATE. That a value out of range is answered BAD_VALUE in STANDBY too, and in every other
state that refuses, is the MODEL's choice (DESIGN CHOICE, log entry 17), and so is the order zoom, focus, iris in which one
LENS_GOTO or LENS_STOP ends several moves (DESIGN CHOICE, log entry 39). A refusal changes nothing. LENS_STOP is taken in
every state. -/
def Obligations.LensMotionTaken : Prop :=
  ∀ (tag : Byte) (s : State), s.ready → s.pwc.enables.lnc = true →
    let rate := fun (v : Int) => if v = 0 then ServoMode.idle else .rate v
    let setZoom := fun (u : State) (mode : ServoMode) =>
      ({ u with lnc := { u.lnc with zoom := { u.lnc.zoom with mode := mode } } } : State)
    let setFocus := fun (u : State) (mode : ServoMode) =>
      ({ u with lnc := { u.lnc with focus := { u.lnc.focus with mode := mode } } } : State)
    (∀ v : Int, -127 ≤ v → v ≤ 127 →
      let zoom := Answers (.zoomRate tag (signedBytes 1 v)) .zoomRate tag s
      let focus := Answers (.focusRate tag (signedBytes 1 v)) .focusRate tag s
      let may := fun (w : Servo) => s.pwc.inRun = true ∧ (v = 0 ∨ s.lnc.lens ≠ .lost) ∧ w.released = false
      (may s.lnc.zoom → zoom (setZoom (s.endMove .zoom .interrupted) (rate v)) .ok []) ∧
      (¬ may s.lnc.zoom → zoom s .badState []) ∧
      (may s.lnc.focus → focus (setFocus (s.endMove .focus .interrupted) (rate v)) .ok []) ∧
      (¬ may s.lnc.focus → focus s .badState [])) ∧
    (Answers (.zoomRate tag [0x80]) .zoomRate tag s s .badValue [] ∧
      Answers (.focusRate tag [0x80]) .focusRate tag s s .badValue []) ∧
    (∀ axes zt ft t : Nat, axes ≤ 255 → zt ≤ 65535 → ft ≤ 65535 → t ≤ 65535 →
      let goto := Answers (.lensGoto tag (u8 axes ++ u16 zt ++ u16 ft ++ u16 t)) .lensGoto tag s s
      let good := ∃ z f : Bool, axes = packFlags [z, f] ∧ (z = true ∨ f = true) ∧ (z = true → zt ≤ 4095) ∧
        (f = true → ft ≤ 4095) ∧ 1 ≤ t ∧ t ≤ 600
      let may := s.pwc.inRun = true ∧ s.lnc.lens ≠ .lost ∧ (axes ≠ 2 → s.lnc.zoom.released = false) ∧
        (axes ≠ 1 → s.lnc.focus.released = false)
      (¬ good → goto .badValue []) ∧ (good → ¬ may → goto .badState [])) ∧
    (∀ (z f : Bool) (zt ft t : Nat), z = true ∨ f = true → zt ≤ 65535 → ft ≤ 65535 → (z = true → zt ≤ 4095) →
      (f = true → ft ≤ 4095) → 1 ≤ t → t ≤ 600 → s.pwc.inRun = true →
      s.lnc.lens ≠ .lost → (z = true → s.lnc.zoom.released = false) → (f = true → s.lnc.focus.released = false) →
      let p1 := fun (v : Servo) (x : Nat) => clampNat v.least v.greatest x
      let needs := fun (v : Servo) (x : Nat) => framesNeeded (distance v.demand (p1 v x)) (v.speeds[8]?.getD 0)
      let used := max t (max (if z then needs s.lnc.zoom zt else 0) (if f then needs s.lnc.focus ft else 0))
      let move := fun (v : Servo) (x : Nat) =>
        ServoMode.move { p0 := v.demand, p1 := p1 v x, duration := used, phase := .ramp 0, origin := .goto }
      let u := if z then setZoom (s.endMove .zoom .interrupted) (move s.lnc.zoom zt) else s
      let u := if f then setFocus (u.endMove .focus .interrupted) (move s.lnc.focus ft) else u
      let told := fun (named : Bool) (v : Servo) (x : Nat) =>
        presence 3 (if named then some (u16 (p1 v x) ++ flagByte (p1 v x != x)) else none)
      Answers (.lensGoto tag (u8 (packFlags [z, f]) ++ u16 zt ++ u16 ft ++ u16 t)) .lensGoto tag s u .ok
        (told z s.lnc.zoom zt ++ told f s.lnc.focus ft ++ u16 used ++ flagByte (used != t))) ∧
    (let halt := fun (v : Servo) (x : Nat) =>
       { v with mode := ServoMode.idle, demand := if s.lnc.reported then clampNat v.least v.greatest x else v.demand }
     let u := if s.lnc.zoom.released then s
       else
         let u := s.endMove .zoom .interrupted
         { u with lnc := { u.lnc with zoom := halt u.lnc.zoom s.lnc.latest.zoom } }
     let u := if s.lnc.focus.released then u
       else
         let u := u.endMove .focus .interrupted
         { u with lnc := { u.lnc with focus := halt u.lnc.focus s.lnc.latest.focus } }
     Answers (.lensStop tag []) .lensStop tag s (u.endMove .iris .interrupted) .ok [])

/-- PRESET_STORE from the report and explicit, PRESET_RECALL (R36, R37), IRIS_SET and IRIS_AUTO (R40), ZOOM_CURVE_LOAD (R42)
and LENS_CONFIG (R43), taken and refused. A recall moves zoom and focus with a common T, and the iris with the same T when
the preset holds a value: the iris becomes MANUAL. PRESET_STORE's layout (preset, source, iris flag, explicit values), that
the five explicit bytes of a store from the report are not judged, and LENS_CONFIG's order (zoom, then focus) are the
MODEL's choice (DESIGN CHOICE, log entry 15). A field out of range and a preset that is not valid are refused BAD_VALUE; a
store from the report of a lens not PRESENT, a recall with the lens LOST or an axis it would move released, an iris request
with the iris released, and a movement in STANDBY BAD_STATE. That a field out of range is answered BAD_VALUE in STANDBY too,
and in every other state that refuses, is the MODEL's choice (DESIGN CHOICE, log entry 17), and so is the order zoom, focus,
iris in which one recall ends several moves (DESIGN CHOICE, log entry 39). A refusal changes nothing. -/
def Obligations.LensSettingsTaken : Prop :=
  (∀ (tag : Byte) (i : Nat) (s : State), s.ready → s.pwc.enables.lnc = true → i ≤ 7 →
      let stored := fun (x : Preset) => ({ s with lnc := { s.lnc with presets := s.lnc.presets.set i (some x) } } : State)
      let told := fun (x : Preset) => u16 x.zoom ++ u16 x.focus ++ presence 1 (x.iris.map u8)
      (∀ (irisToo : Bool) (rest : List Byte), s.lnc.lens = .present → rest.length = 5 →
        let x : Preset := { zoom := s.lnc.latest.zoom, focus := s.lnc.latest.focus,
                            iris := if irisToo then some s.lnc.latest.iris else none }
        Answers (.presetStore tag (u8 i ++ u8 0 ++ flagByte irisToo ++ rest)) .presetStore tag s (stored x) .ok (told x)) ∧
      (∀ (irisToo : Bool) (zoom focus iris : Nat), zoom ≤ 4095 → focus ≤ 4095 → iris ≤ 255 →
        let x : Preset := { zoom := zoom, focus := focus, iris := if irisToo then some iris else none }
        Answers (.presetStore tag (u8 i ++ u8 1 ++ flagByte irisToo ++ u16 zoom ++ u16 focus ++ u8 iris)) .presetStore tag s
          (stored x) .ok (told x)) ∧
      (∀ (irisToo : Bool) (rest : List Byte), s.lnc.lens ≠ .present → rest.length = 5 →
        Answers (.presetStore tag (u8 i ++ u8 0 ++ flagByte irisToo ++ rest)) .presetStore tag s s .badState []) ∧
      (∀ (x : Preset) (t : Nat), s.lnc.presets[i]? = some (some x) → 1 ≤ t → t ≤ 600 → s.pwc.inRun = true →
        s.lnc.lens ≠ .lost → s.lnc.zoom.released = false → s.lnc.focus.released = false →
        (x.iris.isSome = true → s.lnc.iris.released = false) →
        let p1 := fun (v : Servo) (x : Nat) => clampNat v.least v.greatest x
        let needs := fun (v : Servo) (x : Nat) => framesNeeded (distance v.demand (p1 v x)) (v.speeds[8]?.getD 0)
        let used := max t (max (needs s.lnc.zoom x.zoom) (needs s.lnc.focus x.focus))
        let move := fun (from' to' : Nat) =>
          ({ p0 := from', p1 := to', duration := used, phase := .ramp 0, origin := .recall i } : Move)
        let u := s.endMove .zoom .interrupted
        let u := { u with lnc := { u.lnc with zoom := { u.lnc.zoom with
          mode := .move (move s.lnc.zoom.demand (p1 s.lnc.zoom x.zoom)) } } }
        let u := u.endMove .focus .interrupted
        let u := { u with lnc := { u.lnc with focus := { u.lnc.focus with
          mode := .move (move s.lnc.focus.demand (p1 s.lnc.focus x.focus)) } } }
        let u := match x.iris with
          | some target =>
            let u := u.endMove .iris .interrupted
            { u with lnc := { u.lnc with iris := { u.lnc.iris with
              auto := false, move := some (move s.lnc.iris.demand target) } } }
          | none => u
        let target := fun (v : Servo) (x : Nat) => u16 (p1 v x) ++ flagByte (p1 v x != x)
        Answers (.presetRecall tag (u8 i ++ u16 t)) .presetRecall tag s u .ok
          (target s.lnc.zoom x.zoom ++ target s.lnc.focus x.focus ++ presence 1 (x.iris.map u8) ++ u16 used ++
            flagByte (used != t)))) ∧
  (∀ (tag : Byte) (s : State), s.ready → s.pwc.enables.lnc = true →
      (∀ i source irisToo zoom focus iris : Nat, i ≤ 255 → source ≤ 255 → irisToo ≤ 255 → zoom ≤ 65535 → focus ≤ 65535 →
        7 < i ∨ 1 < source ∨ 1 < irisToo ∨ (source = 1 ∧ (4095 < zoom ∨ 4095 < focus)) →
        Answers (.presetStore tag (u8 i ++ u8 source ++ u8 irisToo ++ u16 zoom ++ u16 focus ++ u8 iris)) .presetStore tag s s
          .badValue []) ∧
      ∀ i t : Nat, i ≤ 255 → t ≤ 65535 →
        let recalls := Answers (.presetRecall tag (u8 i ++ u16 t)) .presetRecall tag s s
        (7 < i ∨ t < 1 ∨ 600 < t ∨ (∀ x, s.lnc.presets[i]? ≠ some (some x)) → recalls .badValue []) ∧
        ∀ x, i ≤ 7 → 1 ≤ t → t ≤ 600 → s.lnc.presets[i]? = some (some x) →
          s.pwc.inRun = false ∨ s.lnc.lens = .lost ∨ s.lnc.zoom.released = true ∨ s.lnc.focus.released = true ∨
            (x.iris.isSome = true ∧ s.lnc.iris.released = true) → recalls .badState []) ∧
  (∀ (tag : Byte) (s : State), s.ready → s.pwc.enables.lnc = true →
      (∀ x target deadband : Nat, x ≤ 255 → target ≤ 255 → deadband ≤ 255 →
        let still := s.pwc.inRun = false ∨ s.lnc.iris.released = true
        (still → Answers (.irisSet tag (u8 x)) .irisSet tag s s .badState []) ∧
        (16 < deadband → Answers (.irisAuto tag (u8 target ++ u8 deadband)) .irisAuto tag s s .badValue []) ∧
        (deadband ≤ 16 → still → Answers (.irisAuto tag (u8 target ++ u8 deadband)) .irisAuto tag s s .badState [])) ∧
      (∀ knots : List Nat, knots.length = 17 → (∀ k ∈ knots, k ≤ 65535) → (∃ k ∈ knots, k < 100 ∨ 32767 < k) →
        Answers (.zoomCurveLoad tag (knots.map u16).flatten) .zoomCurveLoad tag s s .badValue []) ∧
      ∀ (zl zg fl fg : Nat) (zs fs : List Nat), zl ≤ 65535 → zg ≤ 65535 → fl ≤ 65535 → fg ≤ 65535 → zs.length = 9 →
        fs.length = 9 → (∀ x ∈ zs ++ fs, x ≤ 255) →
        zg ≤ zl ∨ 4095 < zg ∨ fg ≤ fl ∨ 4095 < fg ∨ ¬ zs.Pairwise (· ≤ ·) ∨ ¬ fs.Pairwise (· ≤ ·) ∨ zs.getLast? = some 0 ∨
          fs.getLast? = some 0 →
        Answers (.lensConfig tag (u16 zl ++ u16 zg ++ (zs.map u8).flatten ++ u16 fl ++ u16 fg ++ (fs.map u8).flatten))
          .lensConfig tag s s .badValue []) ∧
  (∀ (tag : Byte) (s : State), s.ready → s.pwc.enables.lnc = true →
      let u := s.endMove .iris .interrupted
      (∀ x : Byte, s.pwc.inRun = true → s.lnc.iris.released = false →
        Answers (.irisSet tag [x]) .irisSet tag s
          { u with lnc := { u.lnc with iris := { u.lnc.iris with auto := false, demand := x.toNat } } } .ok [0, x]) ∧
      (∀ (target deadband : Nat), target ≤ 255 → deadband ≤ 16 → s.pwc.inRun = true → s.lnc.iris.released = false →
        Answers (.irisAuto tag (u8 target ++ u8 deadband)) .irisAuto tag s
          { u with lnc := { u.lnc with iris := { u.lnc.iris with auto := true, target := target, deadband := deadband } } } .ok
          (u8 1 ++ u8 s.lnc.iris.demand)) ∧
      (∀ knots : List Nat, knots.length = 17 → (∀ k ∈ knots, 100 ≤ k ∧ k ≤ 32767) →
        Answers (.zoomCurveLoad tag (knots.map u16).flatten) .zoomCurveLoad tag s
          { s with lnc := { s.lnc with curve := knots } } .ok []) ∧
      (∀ (zl zg fl fg : Nat) (zs fs : List Nat), zl < zg → zg ≤ 4095 → fl < fg → fg ≤ 4095 → zs.length = 9 → fs.length = 9 →
        (∀ x ∈ zs ++ fs, x ≤ 255) → zs.Pairwise (· ≤ ·) → fs.Pairwise (· ≤ ·) → zs.getLast? ≠ some 0 → fs.getLast? ≠ some 0 →
        Answers (.lensConfig tag (u16 zl ++ u16 zg ++ (zs.map u8).flatten ++ u16 fl ++ u16 fg ++ (fs.map u8).flatten))
          .lensConfig tag s
          { s with lnc := { s.lnc with
            zoom := { s.lnc.zoom with least := zl, greatest := zg, speeds := zs }
            focus := { s.lnc.focus with least := fl, greatest := fg, speeds := fs } } } .ok []))

/-! ## Image stabilisation -/

/-- The gyro port (R47, R48, R49). A read falls due: a new read starts; one still unanswered is a bad sample. An answer to
the read in progress: status 0 is a good sample, which joins the running sums less the biases and ends a bad run; any other
is a bad one, for which the last good sample joins again. That a bad sample before any good one leaves the sum's sample
count as it was is DEDUCED (log entry 30). The tenth bad sample in a row puts the port into FAULT and reports GYRO_FAULT
(the status byte of one without an answer is a free byte, log entry 1); the hundredth good one in a row ends it. In STANDBY,
with STB disabled, and for an answer to no read, nothing happens. -/
def Obligations.GyroSamples : Prop :=
  ∀ (yaw pitch : BitVec 16) (status : Byte) (s : State), s.works →
    let b := s.stb
    let add := fun (b : Stb) (y p : Int) =>
      { b with
        x := { b.x with sum := sat32 (b.x.sum + (y - b.settings.biasX)) }
        y := { b.y with sum := sat32 (b.y.sum + (p - b.settings.biasY)) }
        samples := b.samples + 1 }
    let put := fun (b : Stb) => ({ s with stb := b } : State)
    let good :=
      let b' := { add { b with reading := false } yaw.toInt pitch.toInt with
        lastGood := some (yaw.toInt, pitch.toInt), badRun := 0, goodRun := b.goodRun + 1 }
      if b.gyroFault && decide (100 ≤ b.goodRun + 1) then { b' with gyroFault := false } else b'
    let bad := fun (reading : Bool) (answer : Option Byte) =>
      let b' := match b.lastGood with
        | some (y, p) => add { b with reading := reading } y p
        | none => { b with reading := reading }
      let b' := { b' with badSamples := min 65535 (b.badSamples + 1), goodRun := 0, badRun := b.badRun + 1 }
      if !b.gyroFault && decide (10 ≤ b.badRun + 1) then
        (put { b' with gyroFault := true }).notify .gyroFault
          ((serialBytes s.ftb.serial).map some ++ [answer] ++ (flagByte answer.isSome).map some)
      else put b'
    (s.stbRuns = false → Becomes .gyroReadDue s s ∧ Becomes (.gyroAnswer yaw pitch status) s s) ∧
    (b.reading = false → Becomes (.gyroAnswer yaw pitch status) s s) ∧
    (s.stbRuns = true → b.reading = false → Becomes .gyroReadDue s (put { b with reading := true })) ∧
    (s.stbRuns = true → b.reading = true → Becomes .gyroReadDue s (bad true none)) ∧
    (s.stbRuns = true → b.reading = true → status = 0 → Becomes (.gyroAnswer yaw pitch status) s (put good)) ∧
    (s.stbRuns = true → b.reading = true → status ≠ 0 →
      Becomes (.gyroAnswer yaw pitch status) s (bad false (some status)))

/-- A tile set (R50, R51, R41): of the right size, not newer than the latest frame start and newer than the set before it
(the waiting one alone when there is one: DESIGN CHOICE, log entry 49), it is accepted; otherwise it is counted as rejected.
With the correlator idle it becomes the newer set, and a correlation begins when the two sets are of consecutive frames;
with the correlator busy it waits, and one that waited is dropped and counted. LNC, while enabled, notes its mean luma. A
correlation ends (R52, R53, R51): the record of the two sets replaces the one held, which counts as dropped if no frame
start took it, and a waiting set is placed. The record's four best are the four smallest of the candidates in ascending SAD
order, equal ones in scan order, the best of all first, its mean is that of all 135, its neighbours are the SADs one tile
pixel from the best on each side, absent outside the search range, and it is not yet used. The candidates stand in scan
order, dy from −4 to 4 and dx from −7 to 7, each with its sum of absolute differences over the 7,296 interior pixels. In
STANDBY and with STB disabled a set is discarded. That nothing ends with the correlator idle is the MODEL's choice (DESIGN
CHOICE, log entry 16). -/
def Obligations.TilesCorrelated : Prop :=
  (∀ (n : Serial) (pixels : List Byte) (s : State), s.works → s.stbRuns = false →
      Becomes (.tileSetComplete n pixels) s s) ∧
  (∀ (n : Serial) (pixels : List Byte) (s : State), s.works → s.stbRuns = true →
      let b := s.stb
      let set' : TileSet := { serial := n, pixels := pixels }
      let before := if b.waiting.isSome then b.waiting else b.newer
      let accepted := pixels.length = 9216 ∧ ¬ newer n s.ftb.serial ∧ ∀ t, before = some t → newer n t.serial
      let note := fun (u : State) =>
        if s.pwc.enables.lnc then
          ({ u with lnc := { u.lnc with
            tileMean := some (n, (pixels.map BitVec.toNat).sum / 9216) } } : State)
        else u
      (¬ accepted → Becomes (.tileSetComplete n pixels) s
        { s with stb := { b with rejectedSets := min 65535 (b.rejectedSets + 1) } }) ∧
      (accepted → b.correlating = false → Becomes (.tileSetComplete n pixels) s
        (note { s with stb := { b with
          older := b.newer, newer := some set', correlating := b.newer.any (fun t => t.serial + 1 == n) } })) ∧
      (accepted → b.correlating = true → Becomes (.tileSetComplete n pixels) s
        (note { s with stb := { b with
          waiting := some set'
          droppedSets := if b.waiting.isSome then min 65535 (b.droppedSets + 1) else b.droppedSets } }))) ∧
  (∀ s : State, s.works →
      (s.stb.correlating = false → Becomes .correlationComplete s s) ∧
      ∀ o n : TileSet, s.stb.correlating = true → s.stb.older = some o → s.stb.newer = some n →
        let r := correlate o n
        let b := { s.stb with
          result := some r, correlating := false
          droppedResults := if s.stb.result.any (fun r => !r.used) then min 65535 (s.stb.droppedResults + 1)
            else s.stb.droppedResults }
        (r.older = o.serial ∧ r.newer = n.serial ∧ r.used = false ∧ r.best.length = 4 ∧
          r.best.Pairwise (fun c d => c.sad ≤ d.sad) ∧
          (∃ others, (r.best ++ others).Perm (candidatesOf o.pixels n.pixels) ∧
            (r.best ++ others).Pairwise (fun c d => c.sad < d.sad ∨
              (c.sad = d.sad ∧ (c.dy < d.dy ∨ (c.dy = d.dy ∧ c.dx < d.dx))))) ∧
          r.mean = ((candidatesOf o.pixels n.pixels).map Candidate.sad).sum / 135 ∧
          ∀ d, r.best.head? = some d → d ∈ candidatesOf o.pixels n.pixels ∧
            (∀ c ∈ candidatesOf o.pixels n.pixels, d.sad ≤ c.sad) ∧
            (∀ side ∈ [(r.left, -1, 0), (r.right, 1, 0), (r.up, 0, -1), (r.down, 0, 1)],
              let inRange := (d.dx + side.2.1).natAbs ≤ 7 ∧ (d.dy + side.2.2).natAbs ≤ 4
              (inRange → ∃ c ∈ candidatesOf o.pixels n.pixels,
                c.dx = d.dx + side.2.1 ∧ c.dy = d.dy + side.2.2 ∧ side.1 = some c.sad) ∧
              (¬ inRange → side.1 = none))) ∧
        (s.stb.waiting = none → Becomes .correlationComplete s { s with stb := b }) ∧
        ∀ t, s.stb.waiting = some t → Becomes .correlationComplete s { s with stb := { b with
          waiting := none, older := some n, newer := some t, correlating := n.serial + 1 == t.serial } }) ∧
  ∀ older newer : List Byte, older.length = 9216 → newer.length = 9216 →
    (candidatesOf older newer).map (fun c => (c.dy, c.dx)) =
        (List.range 135).map (fun i => (((i / 15 : Nat) : Int) - 4, ((i % 15 : Nat) : Int) - 7)) ∧
      ∀ c ∈ candidatesOf older newer,
        let luma := fun (pixels : List Byte) (x y : Int) => ((pixels.getD (128 * y + x).toNat 0).toNat : Int)
        c.sad = ((List.range 7296).map (fun i =>
          let x : Int := (i % 114 : Nat) + 7
          let y : Int := (i / 114 : Nat) + 4
          (luma older x y - luma newer (x + c.dx) (y + c.dy)).natAbs)).sum

/-- STB's frame start while it works (R48, R54 to R60, R62, R65): the result record is taken, left or dropped by its age; on
each axis the running sum becomes the angle and starts afresh, the angle and the gain give the gyro shift, and the measured
shift blends it with the correlator's vector by trust and gyro fault. In OFF the crop stands; in ACTIVE and PANNING it
leaks, moves by the measured shift and saturates at the margin, a fresh clamp is reported with the sign of the clamp, and
the pan counters are judged by `Stb.judgePan` and `Stb.judgeQuiet`, of which `CropAndPanLaws` says what they do; in
RETURNING it decays, and ends at 0 with OFF or SETTLING; SETTLING lasts its eight frames. The window record of the outcome
goes to the image side, to the frame's entry and, while VOG is enabled, to VOG; with STB disabled in RUN the zero record
goes there and nothing else happens, also where STB has been enabled since FTB took the frame start (DEDUCED, log entry
33), and in STANDBY nothing happens. What the lens record holds for a frame start that LNC has yet to act on, or has
acted on and is disabled since, is DEDUCED (log entry 31); that an unused result newer than the frame start waits is the
MODEL's choice (DESIGN CHOICE, log entry 50). Nothing else of the part changes. The correlator's vector (R57) is the best
offset with its sub-tile fraction, at most 8 either way and 0 where a neighbour is absent or the curve does not rise, in q4;
the first test that fails (R58), no result, a zoom moved by more than 32 counts, a mean of 0, a weak best, an ambiguous
second, is the reason of distrust. -/
def Obligations.StabFrame : Prop :=
  (∀ (f : FrameStart) (rest : List FrameStart) (s : State), s.works → s.due.stb = f :: rest →
    let b := s.stb
    let n := f.serial
    let u : State := { s with due := { s.due with stb := rest } }
    let sends := fun (v : State) (w : WindowRecord) =>
      ({ v with
        stb := { v.stb with sent := some w }
        bfm := v.bfm.modifyEntry n (fun e => { e with window := some w })
        vog := if s.pwc.enables.vog then { v.vog with window := some w } else v.vog } : State)
    let lens := s.lensRecordFor f
    let r := b.result.filter (fun r => !r.used && (r.newer == n - 1 || r.newer == n - 2))
    let stale := b.result.any (fun r => !r.used && older r.newer (n - 2))
    let distrust := distrustOf r lens
    let gain := roundDiv ((lens.focal : Int) * 51472) (720 * b.settings.pitch)
    let axis := fun (a : StabAxis) (invert : Bool) (v : Int) =>
      let angle := sat32 (if invert then -a.sum else a.sum)
      let shift := sat32 (roundDiv (angle * gain.toNat) 16384)
      { a with
        sum := 0, angle := angle, gyroShift := shift, vector := v
        measured :=
          if b.gyroFault then (if distrust.isNone then sat32 v else 0)
          else if distrust.isNone then sat32 (shift + roundDiv (v - shift) 4)
          else sat32 shift }
    let v := vectorsOf r b.settings.decimation
    let m : Stb := { b with
      result := if r.isSome || stale then b.result.map (fun r => { r with used := true }) else b.result
      droppedResults := if stale then min 65535 (b.droppedResults + 1) else b.droppedResults
      x := axis b.x b.settings.invertX v.1, y := axis b.y b.settings.invertY v.2
      samples := 0, gain := gain.toNat, focal := lens.focal, distrust := distrust }
    let offset := fun (a : StabAxis) (leak : Int) => a.c - roundDiv (a.c * leak) 256 + a.measured
    let crop := fun (a : StabAxis) (leak : Int) (margin : Nat) =>
      { a with
        c := saturate (-(16 * (margin : Int))) (16 * margin) (offset a leak)
        clampedLast := decide (16 * (margin : Int) < (offset a leak).natAbs) }
    let cropped := fun (leak : Int) =>
      { m with x := crop m.x leak b.settings.marginX, y := crop m.y leak b.settings.marginY }
    let edge := fun (w : State) (a : StabAxis) (leak : Int) (margin number : Nat) =>
      if 16 * (margin : Int) < (offset a leak).natAbs ∧ a.clampedLast = false then
        w.report .stabEdge (u8 number ++ u8 (if offset a leak < 0 then 1 else 0) ++ serialBytes n)
      else w
    let edges := fun (w : State) (leak : Int) =>
      edge (edge w m.x leak b.settings.marginX 0) m.y leak b.settings.marginY 1
    let free : Stb := { m with x := { m.x with clampedLast := false }, y := { m.y with clampedLast := false } }
    let fresh := fun (b : Stb) =>
      { b with x := { b.x with swing := 0, clampCount := 0 }, y := { b.y with swing := 0, clampCount := 0 }, quiet := 0 }
    let decayed := fun (a : StabAxis) => { a with c := a.c - roundDiv (a.c * 64) 256 }
    let centred := { free with x := { free.x with c := 0 }, y := { free.y with c := 0 } }
    let home := (decayed b.x).c.natAbs < 16 ∧ (decayed b.y).c.natAbs < 16
    let goes := fun (w : State) (next : Stb) =>
      Becomes .stbFrameStart s (sends { w with stb := next }
        { serial := n, cx := next.x.c, cy := next.y.c, state := next.state, trusted := next.distrust.isNone
          gyroFault := next.gyroFault, clampedX := next.x.clampedLast, clampedY := next.y.clampedLast
          noMeasure := next.gyroFault && next.distrust.isSome })
    (f.inRun = false ∨ s.pwc.inRun = false → Becomes .stbFrameStart s u) ∧
    (f.inRun = true → s.pwc.inRun = true → s.pwc.enables.stb = false ∨ f.stbOff = true →
      Becomes .stbFrameStart s (sends u { serial := n, cx := 0, cy := 0, state := .off, trusted := false, gyroFault := false,
                                          clampedX := false, clampedY := false, noMeasure := false })) ∧
    (f.inRun = true → s.stbRuns = true → f.stbOff = false →
      (b.state = .off → goes u free) ∧
      (b.state = .settling →
        goes u (if b.settle ≤ 1 then { fresh free with settle := 0, state := .active } else { free with settle := b.settle - 1 })) ∧
      (b.state = .active → goes (edges u 2) (cropped 2).judgePan) ∧
      (b.state = .panning → goes (edges u 32) (cropped 32).judgeQuiet) ∧
      (b.state = .returning →
        (home → goes u (if b.followSettling then { centred with state := .settling, settle := 8 } else { centred with state := .off })) ∧
        (¬ home → goes u { free with x := decayed free.x, y := decayed free.y })))) ∧
  (∀ (lens : LensRecord) (decimation : Nat),
    distrustOf none lens = some .noResult ∧ vectorsOf none decimation = (0, 0) ∧
    ∀ (r : CorrResult) (best second : Candidate) (others : List Candidate), r.best = best :: second :: others →
      let zooming := lens.previousZoom + 32 < lens.report.zoom ∨ lens.report.zoom + 32 < lens.previousZoom
      let weak := 3 * r.mean < 4 * best.sad
      let near := (second.dx - best.dx).natAbs ≤ 1 ∧ (second.dy - best.dy).natAbs ≤ 1
      let ambiguous := ¬ near ∧ second.sad < best.sad + best.sad / 8
      (zooming → distrustOf (some r) lens = some .zoomMoving) ∧
      (¬ zooming → r.mean = 0 → distrustOf (some r) lens = some .flat) ∧
      (¬ zooming → r.mean ≠ 0 → weak → distrustOf (some r) lens = some .weak) ∧
      (¬ zooming → r.mean ≠ 0 → ¬ weak → ambiguous → distrustOf (some r) lens = some .ambiguous) ∧
      (¬ zooming → r.mean ≠ 0 → ¬ weak → ¬ ambiguous → distrustOf (some r) lens = none) ∧
      let frac := fun (before after : Option Nat) => match before, after with
        | some p, some n =>
          let denom : Int := p - 2 * best.sad + n
          if denom ≤ 0 then 0 else saturate (-8) 8 (roundDiv (8 * ((p : Int) - n)) denom)
        | none, _ => 0
        | some _, none => 0
      vectorsOf (some r) decimation =
        ((16 * best.dx + frac r.left r.right) * decimation, (16 * best.dy + frac r.up r.down) * decimation))

/-- R59's law: a frame start in ACTIVE or PANNING, taken since STB was enabled, leaves each axis's crop offset within
its margin, and STAB_EDGE occurs for an axis that is clamped now and was not at the frame start before. R61's half is
about `Stb.judgePan` and `Stb.judgeQuiet`, which end the frame start in ACTIVE and in PANNING as `StabFrame` says: eight
frames of swing, or four of clamping, take ACTIVE to PANNING, and sixteen quiet ones take PANNING back to ACTIVE; all
the counters then start afresh (R60). -/
def Obligations.CropAndPanLaws : Prop :=
  (∀ (f : FrameStart) (rest : List FrameStart) (s t : State), s.works → s.due.stb = f :: rest → f.inRun = true →
    f.stbOff = false → s.stbRuns = true → s.stb.state = .active ∨ s.stb.state = .panning → exec .stbFrameStart s = .next t →
    t.stb.x.c.natAbs ≤ 16 * s.stb.settings.marginX ∧ t.stb.y.c.natAbs ≤ 16 * s.stb.settings.marginY ∧
    ((t.stb.x.clampedLast = true ∧ s.stb.x.clampedLast = false ∨ t.stb.y.clampedLast = true ∧ s.stb.y.clampedLast = false) →
      (s.lnk.source .stabEdge).enabled = true → s.lnk.table.length = 20 → (t.lnk.source .stabEdge).pending = true)) ∧
  ∀ b : Stb,
    let positive := fun (a : StabAxis) => decide (0 ≤ a.measured)
    let swing := fun (a : StabAxis) =>
      if b.settings.panThreshold ≤ a.measured.natAbs then (if positive a = a.swingPositive then a.swing + 1 else 1) else 0
    let clamps := fun (a : StabAxis) => if a.clampedLast then a.clampCount + 1 else 0
    let pans := (8 ≤ swing b.x ∨ 4 ≤ clamps b.x) ∨ (8 ≤ swing b.y ∨ 4 ≤ clamps b.y)
    let isQuiet := 2 * b.x.measured.natAbs < b.settings.panThreshold ∧ 2 * b.y.measured.natAbs < b.settings.panThreshold
    let afresh := fun (b : Stb) =>
      b.quiet = 0 ∧ b.x.swing = 0 ∧ b.x.clampCount = 0 ∧ b.y.swing = 0 ∧ b.y.clampCount = 0
    (pans → b.judgePan.state = .panning ∧ afresh b.judgePan) ∧
    (¬ pans → b.judgePan.state = b.state ∧ b.judgePan.x.swing = swing b.x ∧ b.judgePan.y.swing = swing b.y ∧
      b.judgePan.x.clampCount = clamps b.x ∧ b.judgePan.y.clampCount = clamps b.y) ∧
    (b.judgePan.x.c = b.x.c ∧ b.judgePan.y.c = b.y.c ∧ b.judgePan.settings = b.settings) ∧
    (isQuiet ∧ 15 ≤ b.quiet → b.judgeQuiet.state = .active ∧ afresh b.judgeQuiet ∧ b.judgeQuiet.x.c = b.x.c ∧
      b.judgeQuiet.y.c = b.y.c) ∧
    (isQuiet ∧ b.quiet < 15 → b.judgeQuiet = { b with quiet := b.quiet + 1 }) ∧
    (¬ isQuiet → b.judgeQuiet = { b with quiet := 0 })

/-- STAB_CONFIG in OFF (R66), STAB_MODE on and off in each state (R63), STAB_RECENTRE in each state but OFF (R64), taken in
RUN; a field out of range is refused BAD_VALUE, STAB_CONFIG outside OFF, STAB_RECENTRE in OFF and any of the three in
STANDBY BAD_STATE, and a refusal changes nothing. That STAB_MODE's byte is a flag, 1 for on and 0 for off, is the MODEL's
choice (DESIGN CHOICE, log entry 15), and so is that a field out of range is answered BAD_VALUE in STANDBY, and
STAB_CONFIG's outside OFF, too (DESIGN CHOICE, log entry 17). -/
def Obligations.StabRequestsTaken : Prop :=
  ∀ (tag : Byte) (s : State), s.ready → s.pwc.enables.stb = true →
    let b := s.stb
    let settled := fun (b : Stb) => { b with state := .settling, settle := 8 }
    let centred := { b with x := { b.x with c := 0 }, y := { b.y with c := 0 } }
    (∀ (x : StabSettings) (invertX invertY : Nat), x.marginX ≤ 255 → x.marginY ≤ 255 → x.pitch ≤ 65535 → x.decimation ≤ 255 →
      -32768 ≤ x.biasX → x.biasX ≤ 32767 → -32768 ≤ x.biasY → x.biasY ≤ 32767 → invertX ≤ 255 → invertY ≤ 255 →
      x.panThreshold ≤ 65535 → (invertX ≤ 1 → x.invertX = (invertX == 1)) → (invertY ≤ 1 → x.invertY = (invertY == 1)) →
      let config := Answers (.stabConfig tag (u8 x.marginX ++ u8 x.marginY ++ u16 x.pitch ++ u8 x.decimation ++
        signedBytes 2 x.biasX ++ signedBytes 2 x.biasY ++ u8 invertX ++ u8 invertY ++ u16 x.panThreshold)) .stabConfig tag s
      let good := 100 ≤ x.pitch ∧ x.pitch ≤ 1000 ∧ 8 ≤ x.decimation ∧ x.decimation ≤ 32 ∧ invertX ≤ 1 ∧ invertY ≤ 1 ∧
        16 ≤ x.panThreshold ∧ x.panThreshold ≤ 4095
      let may := s.pwc.inRun = true ∧ b.state = .off
      (¬ good → config s .badValue []) ∧ (good → ¬ may → config s .badState []) ∧
      (good → may → config { s with stb := { b with settings := x } } .ok [])) ∧
    (∀ x : Byte, 1 < x.toNat → Answers (.stabMode tag [x]) .stabMode tag s s .badValue []) ∧
    (s.pwc.inRun = false →
      Answers (.stabMode tag [1]) .stabMode tag s s .badState [] ∧ Answers (.stabMode tag [0]) .stabMode tag s s .badState []) ∧
    (s.pwc.inRun = false ∨ b.state = .off → Answers (.stabRecentre tag []) .stabRecentre tag s s .badState []) ∧
    (s.pwc.inRun = true →
      (let u := match b.state with
         | .off => settled centred
         | .returning => settled b
         | _ => b
       Answers (.stabMode tag [1]) .stabMode tag s { s with stb := u } .ok (u8 u.state.code)) ∧
      (let u := if b.state = .off then b else { b with state := .returning, followSettling := false }
       Answers (.stabMode tag [0]) .stabMode tag s { s with stb := u } .ok (u8 u.state.code)) ∧
      (b.state ≠ .off →
        Answers (.stabRecentre tag []) .stabRecentre tag s
          { s with stb := { b with state := .returning, followSettling := true } } .ok [4]))

/-! ## Audio -/

/-- A sample frame (R70, R73 to R76, R78): discarded in STANDBY, with AUD disabled and by an OFF pair; otherwise each sample
is scaled by the gain less the reduction and saturated, the block peak takes it, the limiter clamps it, an over is counted
and the first of a channel since the last frame start reported, and the frame joins the store, which loses its oldest when
it holds 4,096. The 48th of a block ends it for both channels. Where both channels have their first over in one sample
frame, that the first channel is reported first is the MODEL's choice (DESIGN CHOICE, log entry 40). -/
def Obligations.SampleFrameTaken : Prop :=
  ∀ (side : Side) (x y : BitVec 24) (s : State), s.works →
    let p := s.aud.pairs.get side
    let n := s.ftb.serial
    let scaled := fun (c : Channel) (x : Int) => scaleBy ((c.gain : Int) - c.reduction) x
    let gained := fun (c : Channel) (x : Int) => saturate (-8388608) 8388607 (scaled c x)
    let out := fun (c : Channel) (x : Int) =>
      if c.limiter.on then saturate (-c.limiter.level) c.limiter.level (gained c x) else gained c x
    let isOver := fun (c : Channel) (x : Int) => gained c x ≠ scaled c x
    let took := fun (c : Channel) (x : Int) =>
      let c' := { c with blockPeak := max c.blockPeak (gained c x).natAbs }
      if isOver c x then { c' with overs := min 65535 (c.overs + 1), overReported := true } else c'
    let frame : SampleFrame := { first := out p.first x.toInt, second := out p.second y.toInt }
    let isFull := 4096 ≤ p.store.length
    let p' := { p with
      store := (if isFull then p.store.drop 1 else p.store) ++ [frame]
      dropped := if isFull then p.dropped + 1 else p.dropped
      first := took p.first x.toInt, second := took p.second y.toInt }
    let p'' := if p.blockCount + 1 < 48 then { p' with blockCount := p.blockCount + 1 }
      else { p' with blockCount := 0, first := p'.first.endBlock, second := p'.second.endBlock }
    let tell := fun (u : State) (c : Channel) (x : Int) (number : Nat) =>
      if isOver c x ∧ c.overReported = false then u.report .audioOver (u8 number ++ serialBytes n) else u
    let put : State := { s with aud := { pairs := s.aud.pairs.set side p'' } }
    (s.pwc.inRun = false ∨ s.pwc.enables.aud = false ∨ p.state = .off → Becomes (.sampleFrame side x y) s s) ∧
    (s.pwc.inRun = true → s.pwc.enables.aud = true → p.state ≠ .off →
      Becomes (.sampleFrame side x y) s
        (tell (tell put p.first x.toInt (2 * side.code + 1)) p.second y.toInt (2 * side.code + 2)))

/-- The limiter. R75: while it is on no output exceeds the limit level in magnitude. R76 and R73: at the end of a block with
it on, a peak above the level raises the reduction by the least k of 1 or more that brings the peak down to the level, 48 at
most; else a reduction above 0 falls by one when the release count has run its period; then the peak is 0 and pending
settings take effect (R77). R79 and R80: a cut segment holds exactly the cadence count of its serial, the store's front
first and then the padding; what remains of the store stays, but for the oldest beyond 32; what was removed is counted, and
the slip count and the two totals take what was padded and dropped. R82 and R83: the channel's meter becomes the least step
from full scale that the segment's peak reaches, 97 below all of them, and joins the hold history, whose oldest values
beyond the limit go; the hold is the least of them, 97 when there is none; a pair that enters OFF or WARMING has meter 97
and no history. Five successive serials hold 8,008 sample frames at 30/1.001 and 4,004 at 60/1.001, except across the
serial's wrap. -/
def Obligations.AudioLaws : Prop :=
  ((∀ (c : Channel) (x : Int), c.limiter.on = true → ((c.output x).natAbs : Int) ≤ c.limiter.level) ∧
    (∀ c : Channel, c.pendingGain = none → c.pendingLimiter = none →
      (c.limiter.on = false → c.endBlock = { c with blockPeak := 0 }) ∧
      (c.limiter.on = true → c.limiter.level < (c.blockPeak : Int) →
        c.endBlock = { c with
          blockPeak := 0, reduction := min 48 (c.reduction + attackSteps c.blockPeak c.limiter.level), releaseCount := 0 }) ∧
      (c.limiter.on = true → (c.blockPeak : Int) ≤ c.limiter.level → c.reduction = 0 → c.endBlock = { c with blockPeak := 0 }) ∧
      (c.limiter.on = true → (c.blockPeak : Int) ≤ c.limiter.level → 0 < c.reduction →
        c.endBlock = if c.limiter.release ≤ c.releaseCount + 1
          then { c with blockPeak := 0, reduction := c.reduction - 1, releaseCount := 0 }
          else { c with blockPeak := 0, releaseCount := c.releaseCount + 1 })) ∧
    (∀ (peak j : Nat) (level : Int), 1 ≤ j → j ≤ 96 → scaleBy (-(j : Int)) peak ≤ level →
      let k := attackSteps peak level
      1 ≤ k ∧ k ≤ j ∧ scaleBy (-(k : Int)) peak ≤ level ∧ ∀ i : Nat, 1 ≤ i → i < k → level < scaleBy (-(i : Int)) peak) ∧
    (∀ (c : Channel) (gain : Nat) (l : Limiter), c.pendingGain = some gain → c.pendingLimiter = some l →
      let b := c.judgeBlock
      c.endBlock = { b with
        blockPeak := 0, gain := gain, pendingGain := none, limiter := l, pendingLimiter := none
        reduction := if b.limiter.on && l.on then b.reduction else 0
        releaseCount := if b.limiter.on && l.on then b.releaseCount else 0 })) ∧
  ((∀ (p : Pair) (count limit : Nat),
      let g := (p.cut count limit).1
      let q := (p.cut count limit).2
      g.samples.length = count ∧ g.padded = count - p.store.length ∧ g.samples.take (count - g.padded) = p.store.take count ∧
        (∀ x ∈ g.samples.drop (count - g.padded), some x =
          if p.store.length = 0 then some (p.last.getD { first := 0, second := 0 }) else p.store.getLast?) ∧
        q.store = (p.store.drop count).drop ((p.store.drop count).length - 32) ∧
        g.dropped = p.dropped + ((p.store.drop count).length - q.store.length) ∧ q.dropped = 0 ∧
        q.last = g.samples.getLast? ∧ q.state = p.state ∧
        q.slips = (if 0 < g.padded ∨ 0 < g.dropped then min 65535 (p.slips + 1) else p.slips) ∧
        q.paddedTotal = min 4294967295 (p.paddedTotal + g.padded) ∧
        q.droppedTotal = min 4294967295 (p.droppedTotal + g.dropped) ∧
        (let metered := fun (c : Channel) (meter : Nat) =>
           { c with
             meter := meter
             holdHistory := (c.holdHistory ++ [meter]).drop (c.holdHistory.length + 1 - limit) }
         q.first = metered p.first g.meterFirst ∧ q.second = metered p.second g.meterSecond ∧
         ∀ x ∈ [(g.meterFirst, g.samples.map SampleFrame.first), (g.meterSecond, g.samples.map SampleFrame.second)],
           (∀ peak, (∀ y ∈ x.2, y.natAbs ≤ peak) → (peak = 0 ∨ ∃ y ∈ x.2, y.natAbs = peak) → x.1 = meterOf peak))) ∧
    (∀ peak : Nat,
      let level := fun (j : Nat) => scaleBy (-(j : Int)) 8388607
      (∀ j : Nat, j ≤ 96 → level j ≤ peak → (∀ i : Nat, i < j → (peak : Int) < level i) → meterOf peak = j) ∧
      (peak < 32768 → meterOf peak = 97) ∧
      [0, 11, 12, 24, 48, 96].map level = [8388607, 4443647, 4194304, 2097152, 524288, 32768]) ∧
    (∀ c : Channel, c.hold ≤ 97 ∧ (∀ m ∈ c.holdHistory, c.hold ≤ m) ∧ (c.hold = 97 ∨ c.hold ∈ c.holdHistory)) ∧
    (∀ (p : Pair) (w : Which),
      ((p.warm.channel w).meter = 97 ∧ (p.warm.channel w).holdHistory = []) ∧
      (p.state ≠ .off → (p.switchOff.channel w).meter = 97 ∧ (p.switchOff.channel w).holdHistory = [])) ∧
    (∀ (r : Rate) (n : Serial), n.toNat + 4 < 4294967296 →
      let five := r.cadence n + r.cadence (n + 1) + r.cadence (n + 2) + r.cadence (n + 3) + r.cadence (n + 4)
      (r = .r30d → five = 8008) ∧ (r = .r60d → five = 4004) ∧ (r ≠ .r30d → r ≠ .r60d → five = 5 * r.cadence n)) ∧
    (Rate.r24.cadence 0 = 2000 ∧ Rate.r24d.cadence 0 = 2002 ∧ Rate.r25.cadence 0 = 1920 ∧ Rate.r30.cadence 0 = 1600 ∧
      Rate.r50.cadence 0 = 960 ∧ Rate.r60.cadence 0 = 800))

/-- AUD's frame start while it works (R70, R79, R81): an OFF pair hands over an absence, a WARMING one an absence and
becomes ACTIVE with an empty store, an ACTIVE one the segment cut for the frame just ended, under the cadence and the hold
length of the rate in force; more than two padded or dropped report AUDIO_SLIP. BFM takes the hand-overs (`HandOverTaken`),
and written units and the clip's end are looked for (R101, R122). The MODEL's choices: pair A acts before pair B (DESIGN
CHOICE, log entry 40), and a pair that becomes ACTIVE has no last sample frame and no dropped count (DEDUCED, log entry 29).
While AUD does not work the frame start is only taken off. -/
def Obligations.AudFrame : Prop :=
  ∀ (f : FrameStart) (rest : List FrameStart) (s : State), s.works → s.due.aud = f :: rest →
    let u : State := { s with due := { s.due with aud := rest } }
    let n := f.serial - 1
    let cut := fun (side : Side) => (s.aud.pairs.get side).cut (s.ftb.rate.cadence n) (2 * s.ftb.rate.nominal)
    let given := fun (side : Side) => match (s.aud.pairs.get side).state with
      | .off => HandOver.absence .off
      | .warming => .absence .warming
      | .active => .segment (cut side).1
    let after := fun (side : Side) => match (s.aud.pairs.get side).state with
      | .off => s.aud.pairs.get side
      | .warming => { s.aud.pairs.get side with state := .active, store := [], last := none, dropped := 0 }
      | .active => (cut side).2
    let slipped := fun (u : State) (side : Side) => match given side with
      | .segment g =>
        if 2 < g.padded ∨ 2 < g.dropped then
          u.report .audioSlip (u8 side.code ++ serialBytes n ++ u16 g.padded ++ u16 (min 65535 g.dropped))
        else u
      | .absence _ => u
    let acts := fun (u : State) (side : Side) =>
      (slipped ({ u with aud := { pairs := u.aud.pairs.set side (after side) } }) side).takeHandOver n side (given side)
    ((f.inRun && s.pwc.inRun && s.pwc.enables.aud) = true → Becomes .audFrameStart s (acts (acts u .a) .b).review) ∧
    ((f.inRun && s.pwc.inRun && s.pwc.enables.aud) = false → Becomes .audFrameStart s u)

/-- What BFM does with a hand-over (R92): without an entry of that serial, or with the pair decided, nothing; an absence
decides the pair; a segment takes one page, whose first bytes are the segment's sample frames in the card's byte layout (the
MODEL's choice: DESIGN CHOICE, log entry 28), and decides the pair; with no page to be had the entry is abandoned, OVERFLOW.
A decided pair may complete the entry (R95). -/
def Obligations.HandOverTaken : Prop :=
  ∀ (n : Serial) (side : Side) (h : HandOver) (s : State),
    (s.bfm.entry n = none → s.takeHandOver n side h = s) ∧
    ∀ e, s.bfm.entry n = some e →
      let decide' := fun (u : State) (x : Sound) =>
        (({ u with bfm := u.bfm.modifyEntry n (fun e => { e with sound := e.sound.set side x }) } : State).checkComplete n)
      (e.sound.get side ≠ .awaited → s.takeHandOver n side h = s) ∧
      (e.sound.get side = .awaited →
        (∀ reason, h = .absence reason → s.takeHandOver n side h = decide' s (.absent reason)) ∧
        ∀ g, h = .segment g →
          (∀ page b, s.bfm.allocate 1 = (some [page], b) →
            let u : State := { s with bfm := b, mem := s.mem.place [page] 0 g.bytes }
            s.takeHandOver n side h = decide' u (.present
              { page := page, count := g.samples.length, padded := g.padded, dropped := g.dropped,
                meterFirst := g.meterFirst, meterSecond := g.meterSecond }) ∧
            (page < 16384 → g.samples.length ≤ 2002 → s.mem.wf = true →
              u.mem.fetch [page] 0 (6 * g.samples.length) = g.bytes)) ∧
          (∀ b, s.bfm.allocate 1 = (none, b) → s.takeHandOver n side h = ({ s with bfm := b } : State).abandon e .overflow))

/-- AUDIO_ROUTE (R71), AUDIO_GAIN and AUDIO_LIMITER (R77), taken in RUN. A pair routed on from OFF is WARMING with a new
sample block and an empty store; a pair routed off is OFF, its store, reductions, meters and holds cleared and its pending
settings in force. A gain or a limiter setting is pending, or in force at once in an OFF pair. That a reply carries the
settings of its own kind only is the MODEL's choice (DESIGN CHOICE, log entry 15). A field out of range is refused
BAD_VALUE, in STANDBY too (the MODEL's choice: DESIGN CHOICE, log entry 17), and otherwise each of the three in STANDBY
BAD_STATE; a refusal changes nothing. -/
def Obligations.AudioRequestsTaken : Prop :=
  (∀ (tag : Byte) (s : State), s.ready → s.pwc.enables.aud = true →
    let standby := s.pwc.inRun = false
    (∀ a b : Nat, a ≤ 255 → b ≤ 255 →
      let route := Answers (.audioRoute tag (u8 a ++ u8 b)) .audioRoute tag s s
      (1 < a ∨ 1 < b → route .badValue []) ∧ (a ≤ 1 → b ≤ 1 → standby → route .badState [])) ∧
    (∀ channel gain : Nat, channel ≤ 255 → gain ≤ 255 →
      let c := Answers (.audioGain tag (u8 channel ++ u8 gain)) .audioGain tag s s
      let good := 1 ≤ channel ∧ channel ≤ 4 ∧ gain ≤ 60
      (¬ good → c .badValue []) ∧ (good → standby → c .badState [])) ∧
    ∀ channel on threshold release : Nat, channel ≤ 255 → on ≤ 255 → threshold ≤ 255 → release ≤ 255 →
      let c := Answers (.audioLimiter tag (u8 channel ++ u8 on ++ u8 threshold ++ u8 release)) .audioLimiter tag s s
      let good := 1 ≤ channel ∧ channel ≤ 4 ∧ on ≤ 1 ∧ threshold ≤ 24 ∧ 1 ≤ release
      (¬ good → c .badValue []) ∧ (good → standby → c .badState [])) ∧
  (∀ c : Channel,
    let l := c.pendingLimiter.getD c.limiter
    let keep := c.pendingLimiter = none ∨ (c.limiter.on = true ∧ l.on = true)
    c.applyPending = { c with
      gain := c.pendingGain.getD c.gain, pendingGain := none, limiter := l, pendingLimiter := none
      reduction := if keep then c.reduction else 0, releaseCount := if keep then c.releaseCount else 0 }) ∧
  ∀ (tag : Byte) (s : State), s.ready → s.pwc.enables.aud = true → s.pwc.inRun = true →
    let put := fun (pairs : Two Pair) => ({ s with aud := { pairs := pairs } } : State)
    (∀ a b : Bool,
      let routed := fun (p : Pair) (on : Bool) =>
        if on && p.state == .off then
          { p with
            state := .warming, store := [], blockCount := 0, dropped := 0
            first := { p.first with meter := 97, holdHistory := [], blockPeak := 0 }
            second := { p.second with meter := 97, holdHistory := [], blockPeak := 0 } }
        else if !on && p.state != .off then
          let clear := fun (c : Channel) =>
            ({ c with meter := 97, holdHistory := [], reduction := 0, releaseCount := 0 } : Channel).applyPending
          { p with
            state := .off, store := [], last := none, dropped := 0, first := clear p.first, second := clear p.second }
        else p
      let pairs : Two Pair := { a := routed s.aud.pairs.a a, b := routed s.aud.pairs.b b }
      Answers (.audioRoute tag (flagByte a ++ flagByte b)) .audioRoute tag s (put pairs) .ok
        (u8 pairs.a.state.code ++ u8 pairs.b.state.code)) ∧
    (∀ (side : Side) (w : Which) (gain : Nat), gain ≤ 60 →
      let p := s.aud.pairs.get side
      let c := p.channel w
      let set' := { c with pendingGain := some gain }
      let c' := if p.state = .off then set'.applyPending else set'
      Answers (.audioGain tag (u8 (channelNumber side w) ++ u8 gain)) .audioGain tag s
        (put (s.aud.pairs.set side (p.modifyChannel w (fun _ => c')))) .ok
        (u8 c'.gain ++ presence 1 (c'.pendingGain.map u8))) ∧
    (∀ (side : Side) (w : Which) (on : Bool) (threshold release : Nat), threshold ≤ 24 → 1 ≤ release → release ≤ 255 →
      let p := s.aud.pairs.get side
      let c := p.channel w
      let l : Limiter := { on := on, threshold := threshold, release := release }
      let set' := { c with pendingLimiter := some l }
      let c' := if p.state = .off then set'.applyPending else set'
      let told := fun (l : Limiter) => flagByte l.on ++ u8 l.threshold ++ u8 l.release
      Answers (.audioLimiter tag (u8 (channelNumber side w) ++ flagByte on ++ u8 threshold ++ u8 release)) .audioLimiter tag s
        (put (s.aud.pairs.set side (p.modifyChannel w (fun _ => c')))) .ok (told c'.limiter ++ presence 3 (c'.pendingLimiter.map told)))

/-! ## The buffer memory -/

/-- BFM's frame start (R90). In RUN a full table first loses its oldest entry, AGED; the new entry has the label looked
up, the lens record (`VogFrame` says which; log entry 31, DEDUCED, where LNC has yet to act, or has acted and is
disabled since), no window, no picture, both pairs AWAITED (ABSENT, OFF, while AUD is disabled), the attachment queued
for it, the pending mark and the frame settings; attachments of older serials are discarded and counted. In STANDBY only
the discards happen, and the pending mark goes too. An abandonment (R96, R94): the entry leaves the table, its pages go
to the back of the free list, the port skips what was still to come for it, and its reason is counted; when its serial
lies within the open clip's range, with interval mode on that of a burst frame, UNIT_DROPPED occurs with the serial and
the reason, and the pending gap is set (a serial 2^31 from the head lies inside the range, and one 2^31 from E outside:
DESIGN CHOICE, log entry 45). -/
def Obligations.BufferFrame : Prop :=
  (∀ (f : FrameStart) (rest : List FrameStart) (s : State), s.works → s.due.bfm = f :: rest →
    let n := f.serial
    let u : State := { s with due := { s.due with bfm := rest }, bfm := { s.bfm with taken := n } }
    let passed := fun (as : List (Serial × List Byte)) => as.filter (fun a => older a.1 n)
    let stay := fun (as : List (Serial × List Byte)) => as.filter (fun a => !older a.1 n)
    let lost := fun (b : Bfm) (as : List (Serial × List Byte)) =>
      { b with counts := { b.counts with auxLost := min 65535 (b.counts.auxLost + (passed as).length) } }
    let sound := if s.pwc.enables.aud then Sound.awaited else .absent .off
    let entry : Entry :=
      { serial := n, label := s.ftb.history.find? (fun h => h.serial == n), lens := s.lensRecordFor f, window := none,
        picture := .none, sound := { a := sound, b := sound },
        attachment := (s.bfm.attachments.find? (fun a => a.1 == n)).map Prod.snd, mark := s.bfm.nextMark,
        settings := { rate := s.ftb.rate, dropFrame := s.ftb.dropFrame, mode := s.ftb.mode } }
    let created := fun (v : State) =>
      let others := s.bfm.attachments.filter (fun a => a.1 != n)
      ({ v with bfm := lost { v.bfm with
        entries := v.bfm.entries ++ [entry], attachments := stay others, nextMark := none } others } : State).review
    ((f.inRun && s.pwc.inRun) = true → s.bfm.entries.length < 16 → Becomes .bfmFrameStart s (created u)) ∧
    (∀ e es, (f.inRun && s.pwc.inRun) = true → s.bfm.entries = e :: es → 15 ≤ es.length →
      Becomes .bfmFrameStart s (created (u.abandon e .aged))) ∧
    ((f.inRun && s.pwc.inRun) = false →
      Becomes .bfmFrameStart s { u with bfm := lost { u.bfm with
        attachments := stay s.bfm.attachments, nextMark := none } s.bfm.attachments })) ∧
  ∀ (s : State) (e : Entry) (reason : AbandonReason),
    let k := s.bfm.counts
    let up := fun (n : Nat) => min 65535 (n + 1)
    let counted := match reason with
      | .aged => ({ k with aged := up k.aged }, 0)
      | .skipped => ({ k with skipped := up k.skipped }, 1)
      | .tooLarge => ({ k with tooLarge := up k.tooLarge }, 2)
      | .overflow => ({ k with overflow := up k.overflow }, 3)
    let gone : State := { s with bfm := { s.bfm with
      entries := s.bfm.entries.filter (fun x => x.serial != e.serial)
      free := { s.bfm.free with released := s.bfm.free.released ++ e.pages }
      port := match s.bfm.port with
        | .data target placed remaining => if target = e.serial then .skip remaining else .data target placed remaining
        | .skip remaining => .skip remaining
        | .header => .header
      counts := counted.1 } }
    let inRange := ∃ clip head, s.rcd.clip = some clip ∧ (s.rcd.state = .recording ∨ s.rcd.state = .closing) ∧
      clip.head = some head ∧ older e.serial head = false ∧ (∀ last, clip.last = some last → olderOrSame e.serial last = true) ∧
      (s.ftb.interval.isSome = true → ∃ h, e.label = some h ∧ h.burst = true)
    (¬ inRange → s.abandon e reason = gone) ∧
    (inRange → s.abandon e reason = ({ gone with bfm := { gone.bfm with gapPending := true } } : State).report .unitDropped
      (serialBytes e.serial ++ u8 counted.2))

/-- A header at the essence port (R93), judged in order: FUTURE, LATE and DUPLICATE are counted and skipped; then every
older entry still without a picture is abandoned, SKIPPED, the oldest first (the MODEL's choice: DESIGN CHOICE, log entry
41); above 2,097,152 bytes, or without pages for it, the entry is abandoned and the access unit skipped; else the picture
arrives in the pages allocated. That a header outside HEADER changes nothing is the MODEL's choice (DESIGN CHOICE, log entry
16). -/
def Obligations.EssenceHeaderJudged : Prop :=
  ∀ (n : Serial) (lengthLessOne : BitVec 24) (key : Bool) (s : State), s.works →
    let c := Instr.essenceHeader n lengthLessOne key
    let length := lengthLessOne.toNat + 1
    let skipped := fun (v : State) => ({ v with bfm := { v.bfm with port := .skip length } } : State)
    let counted := fun (counts : BfmCounts) => skipped { s with bfm := { s.bfm with counts := counts } }
    let k := s.bfm.counts
    (s.bfm.port ≠ .header → Becomes c s s) ∧
    (s.bfm.port = .header →
      (newer n s.bfm.taken = true → Becomes c s (counted { k with future := min 65535 (k.future + 1) })) ∧
      (newer n s.bfm.taken = false →
        (s.bfm.entry n = none → Becomes c s (counted { k with late := min 65535 (k.late + 1) })) ∧
        ∀ e, s.bfm.entry n = some e →
          (∀ p, e.picture = .present p → Becomes c s (counted { k with duplicate := min 65535 (k.duplicate + 1) })) ∧
          ((∀ p, e.picture ≠ .present p) →
            let v := (s.bfm.entries.filter (fun x => older x.serial n && x.picture == .none)).foldl
              (fun s x => s.abandon x .skipped) s
            (2097152 < length → Becomes c s (skipped (v.abandon e .tooLarge)).review) ∧
            (length ≤ 2097152 →
              (∀ b, v.bfm.allocate ((length + 16383) / 16384) = (none, b) →
                Becomes c s (skipped (({ v with bfm := b } : State).abandon e .overflow)).review) ∧
              ∀ pages b, v.bfm.allocate ((length + 16383) / 16384) = (some pages, b) →
                Becomes c s ({ v with bfm := { b.modifyEntry n (fun e =>
                  { e with picture := .arriving { key := key, length := length, pages := pages } }) with
                  port := .data n 0 length } } : State).review))))

/-- Bytes at the essence port (R94). In DATA they go to the entry's pages in page-list order, where they can be read back;
with the last byte of the length the picture is PRESENT, the port is in HEADER, and the entry is looked at for completion.
In SKIP they are consumed. In HEADER bytes belong to no access unit, and the MODEL leaves them without effect (log entry
16). -/
def Obligations.EssenceDataPlaced : Prop :=
  ∀ (bytes : List Byte) (s : State), s.works → bytes ≠ [] →
    let c := Instr.essenceData bytes
    (s.bfm.port = .header → Becomes c s s) ∧
    (∀ remaining, s.bfm.port = .skip remaining →
      Becomes c s { s with bfm := { s.bfm with
        port := if bytes.length < remaining then .skip (remaining - bytes.length) else .header } }) ∧
    ∀ n placed remaining e p, s.bfm.port = .data n placed remaining → s.bfm.entry n = some e → e.picture = .arriving p →
      let u : State := { s with mem := s.mem.place p.pages placed (bytes.take remaining) }
      (bytes.length < remaining → Becomes c s { u with bfm := { u.bfm with
        port := .data n (placed + bytes.length) (remaining - bytes.length) } }) ∧
      (remaining ≤ bytes.length →
        Becomes c s (({ u with bfm := { u.bfm.modifyEntry n (fun e => { e with picture := e.picture.arrived }) with
          port := .header } } : State).checkComplete n).review) ∧
      (s.mem.wf = true → p.pages.Nodup → (∀ page ∈ p.pages, page < 16384) →
        placed + (bytes.take remaining).length ≤ 16384 * p.pages.length →
        u.mem.fetch p.pages placed (bytes.take remaining).length = bytes.take remaining ∧
        ∀ a, (∀ page ∈ p.pages, a / 16384 ≠ page) → u.mem.read a = s.mem.read a)

/-- A complete entry (R95, R97, R100, R102): it leaves the table and joins the queue's tail as a unit holding what the entry
held, its label with the valid, recording, SUBSTITUTED and BURST flags of the lookup or with all of them clear, by
`State.placeUnit`: with no clip open it joins as RING and the ring rule runs, and `UnitsJoinTheClip` says what happens with
one open. A queue of 1,024 first loses its oldest unheld ring unit, counted, and without one the entry is abandoned,
OVERFLOW. An entry that is not complete, its picture not PRESENT or a pair AWAITED, stays, and nothing changes. The ring
rule leaves no more unheld ring units than the depth, the youngest, and touches no other unit. -/
def Obligations.CompleteEntryJoins : Prop :=
  (∀ (n : Serial) (s : State), (∀ (e : Entry) (p : PictureData), s.bfm.entry n = some e → e.picture ≠ .present p) →
    s.checkComplete n = s) ∧
  (∀ (n : Serial) (e : Entry) (p : PictureData) (s : State), s.bfm.entry n = some e → e.picture = .present p →
    (e.sound.a = .awaited ∨ e.sound.b = .awaited → s.checkComplete n = s) ∧
    (e.sound.a ≠ .awaited → e.sound.b ≠ .awaited →
      let unit := e.toUnit p
      let joins := fun (b : Bfm) =>
        ({ s with bfm := { b with entries := b.entries.filter (fun x => x.serial != n) } } : State).placeUnit unit
      (unit.serial = n ∧ unit.picture = p ∧ unit.sound = e.sound ∧ unit.lens = e.lens ∧ unit.window = e.window ∧
        unit.attachment = e.attachment ∧ unit.mark = e.mark ∧ unit.settings = e.settings ∧ unit.membership = .ring ∧
        unit.holds = [] ∧ unit.progress = { a := .none, b := .none } ∧ unit.gap = false ∧
        unit.label = e.label.map HistoryEntry.label ∧ unit.labelValid = e.label.any HistoryEntry.valid ∧
        unit.recording = e.label.any HistoryEntry.recording ∧ unit.substituted = e.label.any HistoryEntry.substituted ∧
        unit.burst = e.label.any HistoryEntry.burst ∧
        unit.pages = e.pages ∧ (unit.audioAbsent = true ↔ ∀ d, e.sound.a ≠ .present d ∧ e.sound.b ≠ .present d)) ∧
      (s.bfm.queue.length < 1024 → s.checkComplete n = joins s.bfm) ∧
      (1024 ≤ s.bfm.queue.length →
        (∀ old, s.bfm.queue.find? RecUnit.unheldRing = some old →
          s.checkComplete n = joins { s.bfm.dropUnit old.serial with
            counts := { s.bfm.counts with queueLimit := min 65535 (s.bfm.counts.queueLimit + 1) } }) ∧
        (s.bfm.queue.find? RecUnit.unheldRing = none → s.checkComplete n = s.abandon e .overflow)))) ∧
  (∀ (s : State) (u : RecUnit), s.rcd.clip = none →
    s.placeUnit u = { s with bfm := ({ s.bfm with queue := s.bfm.queue ++ [u] }).ringRule }) ∧
  ∀ b : Bfm, (b.queue.map RecUnit.serial).Nodup →
    let kept := b.ringRule.queue
    kept.filter RecUnit.unheldRing =
        (b.queue.filter RecUnit.unheldRing).drop ((b.queue.filter RecUnit.unheldRing).length - b.depth) ∧
      kept.filter (fun u => !u.unheldRing) = b.queue.filter (fun u => !u.unheldRing)

/-- R88: no page of the buffer memory is made or lost. Every step, of whatever command, keeps the law of the pages: the free
ones, the queued units' and the assembly entries' are the pages 0 to 16,383, each once; the assembly table holds at most one
entry per serial (R100); a picture arrives in no entry but the one the essence port is filling (R94). The premise on the
frame start that BFM acts on next is R90's own: each frame start has a new serial, so its creation step finds no entry with
that serial. R89: an allocation gives k pages or none; what it gives, what stays free and what the queued units still own
are the pages that were free or owned by them before; it fails only when the free pages and those of the unheld ring units
do not reach k, and then nothing is discarded. Units that leave, an entry that is abandoned (R96), and the clearing of R110
return their pages. -/
def Obligations.PagesConserved : Prop :=
  (∀ s t : State, s.bfm.lawful → s.newSerial → step s = .next t → t.bfm.lawful) ∧
  ∀ b : Bfm, b.free.fresh ≤ 16384 → (b.queue.map RecUnit.serial).Nodup → (b.entries.map Entry.serial).Nodup →
    let owned := fun (b : Bfm) => (b.queue.map RecUnit.pages).flatten
    let ring := ((b.queue.filter RecUnit.unheldRing).map (fun u => u.pages.length)).sum
    (∀ k pages b', b.allocate k = (some pages, b') →
      pages.length = k ∧ k ≤ b.free.count + ring ∧
        (pages ++ b'.free.pages ++ owned b').Perm (b.free.pages ++ owned b) ∧ b'.entries = b.entries ∧
        (k ≤ b.free.count → b'.queue = b.queue ∧ pages = b.free.pages.take k ∧ b'.free.pages = b.free.pages.drop k)) ∧
    (∀ k b', b.allocate k = (none, b') → b.free.count + ring < k ∧ b' = b) ∧
    (∀ which : RecUnit → Bool,
      ((b.dropUnits which).free.pages ++ owned (b.dropUnits which)).Perm (b.free.pages ++ owned b)) ∧
    (∀ (s : State) (e : Entry) (reason : AbandonReason), s.bfm = b → e ∈ b.entries →
      let b' := (s.abandon e reason).bfm
      (b'.free.pages ++ (b'.entries.map Entry.pages).flatten).Perm (b.free.pages ++ (b.entries.map Entry.pages).flatten) ∧
        b'.queue = b.queue) ∧
    b.clearAll.free.pages.Perm (b.free.pages ++ owned b ++ (b.entries.map Entry.pages).flatten)

/-- AUX_ATTACH (R98), MARK_FRAME (R99), PREREC_CONFIG (R102), HOLD_SET (R104), HOLD_CLEAR (R105) and HOLD_RETAIN (R107,
R124), taken and refused, in RUN and in STANDBY. The queue of attachments keeps its serial order; data for a serial that has
an attachment replaces it. HOLD_SET marks every ring unit of the range with the lowest invalid window (of two serials 2^31
apart, neither older nor newer: DESIGN CHOICE, log entry 45); HOLD_CLEAR takes a window's marks off. HOLD_RETAIN, with the
Recorder STANDING and the primary slot READY, begins a retained clip whose copy is opened there: the window's units from its
first key unit on are RETAIN and owed on the primary slot, the older ones lose the mark, the end serial is the window's
last, and the copy is told its last unit at once. The layouts of the replies, such as HOLD_CLEAR's opening flag when a
window was cleared, are the MODEL's choice (DESIGN CHOICE, log entry 15). BAD_VALUE: an attachment without data, a serial
that is not newer than the latest, a flag or a number out of range, a mark for a serial without an entry, a window range of
no ring unit, a window not valid or without a key unit. FULL: eight attachments, no free window, more than 12,288 held
pages, a FULL primary slot. BAD_STATE: PREREC_CONFIG outside STANDING, or of a depth in REC-RUN; a depth above 900 is
BAD_VALUE there too (DESIGN CHOICE, log entry 17). BUSY: HOLD_CLEAR of a window being retained, which is one whose mark a
RETAIN unit carries (DEDUCED, log entry 26, as is that the retained copy is told its last unit in the same step),
HOLD_RETAIN outside STANDING. NO_CARD: any other primary slot. A refusal changes nothing. -/
def Obligations.BufferRequestsTaken : Prop :=
  (∀ (tag : Byte) (s : State), s.ready →
      (∀ (n : Serial) (data : List Byte), data ≠ [] → data.length ≤ 1020 → newer n s.ftb.serial = true →
        let held := s.bfm.attachments.any (fun a => a.1 == n)
        let others := s.bfm.attachments.filter (fun a => a.1 != n)
        held = true ∨ s.bfm.attachments.length < 8 →
        ∃ front back, others = front ++ back ∧ (∀ a ∈ front, older n a.1 = false) ∧
          (∀ a, back.head? = some a → older n a.1 = true) ∧
          Answers (.auxAttach tag (serialBytes n ++ data)) .auxAttach tag s
            { s with bfm := { s.bfm with attachments := front ++ (n, data) :: back } } .ok
            (flagByte held ++ u8 (others.length + 1))) ∧
      (∀ (code : Byte) (rest : List Byte), rest.length = 4 →
        Answers (.markFrame tag ([code, 1] ++ rest)) .markFrame tag s { s with bfm := { s.bfm with nextMark := some code } } .ok
          (presence 4 none ++ flagByte s.bfm.nextMark.isSome)) ∧
      (∀ (code : Byte) (n : Serial) (e : Entry), s.bfm.entry n = some e →
        Answers (.markFrame tag ([code, 0] ++ serialBytes n)) .markFrame tag s
          { s with bfm := s.bfm.modifyEntry n (fun e => { e with mark := some code }) } .ok
          (presence 4 (some (serialBytes n)) ++ flagByte e.mark.isSome)) ∧
      (∀ d : Nat, d ≤ 900 → s.rcd.state = .standing → d = 0 ∨ s.ftb.mode = .freeRun →
        let b := ({ s.bfm with depth := d }).ringRule
        Answers (.prerecConfig tag (u16 d)) .prerecConfig tag s { s with bfm := b } .ok
          (u16 d ++ u16 (s.bfm.queue.length - b.queue.length)))) ∧
  (∀ (tag : Byte) (s : State), s.ready →
      (∀ n : Serial, Answers (.auxAttach tag (serialBytes n)) .auxAttach tag s s .badValue []) ∧
      (∀ (n : Serial) (data : List Byte), data ≠ [] → data.length ≤ 1020 →
        let attach := Answers (.auxAttach tag (serialBytes n ++ data)) .auxAttach tag s s
        (newer n s.ftb.serial = false → attach .badValue []) ∧
        (newer n s.ftb.serial = true → s.bfm.attachments.any (fun a => a.1 == n) = false → 8 ≤ s.bfm.attachments.length →
          attach .full [])) ∧
      (∀ (code flag : Byte) (n : Serial), 1 < flag.toNat ∨ (flag = 0 ∧ s.bfm.entry n = none) →
        Answers (.markFrame tag ([code, flag] ++ serialBytes n)) .markFrame tag s s .badValue []) ∧
      (∀ d : Nat, d ≤ 65535 →
        let config := Answers (.prerecConfig tag (u16 d)) .prerecConfig tag s s
        (900 < d → config .badValue []) ∧
        (d ≤ 900 → s.rcd.state ≠ .standing ∨ (0 < d ∧ s.ftb.mode = .recRun) → config .badState [])) ∧
      (∀ first last : Serial,
        let inside := fun (u : RecUnit) => u.membership == .ring && !older u.serial first && !newer u.serial last
        let fresh := (s.bfm.queue.filter (fun u => inside u && u.holds.isEmpty)).map (fun u => u.pages.length)
        let set' := Answers (.holdSet tag (serialBytes first ++ serialBytes last)) .holdSet tag s s
        let bad := s.bfm.queue = [] ∨ newer first last = true ∨
          (∃ tail, s.bfm.queue.getLast? = some tail ∧ newer last tail.serial = true) ∨ s.bfm.queue.filter inside = []
        (bad → set' .badValue []) ∧
        (¬ bad → (∀ w, w < 4 → ∃ x, s.bfm.windows[w]? = some (some x)) ∨ 12288 < s.bfm.heldPages + fresh.sum →
          set' .full [])) ∧
      ∀ w : Nat, w ≤ 255 →
        let clear := Answers (.holdClear tag (u8 w)) .holdClear tag s s
        let retain := Answers (.holdRetain tag (u8 w)) .holdRetain tag s s
        let held := s.bfm.queue.filter (fun u => u.holds.contains w)
        let good := w < 4 ∧ (∃ x, s.bfm.windows[w]? = some (some x)) ∧ ∃ u ∈ held, u.picture.key = true
        let primary := (s.slot s.rcd.primary).state
        (3 < w → clear .badValue []) ∧ (w ≤ 3 → (∃ u ∈ held, u.membership = .retain) → clear .busy []) ∧
        (¬ good → retain .badValue []) ∧ (good → s.rcd.state ≠ .standing → retain .busy []) ∧
        (good → s.rcd.state = .standing →
          (primary = .full → retain .full []) ∧ (primary ≠ .ready → primary ≠ .full → retain .noCard []))) ∧
  (∀ (tag : Byte) (s : State), s.ready →
      (∀ (first last : Serial) (tail : RecUnit) (w : Nat), s.bfm.queue.getLast? = some tail → newer first last = false →
        newer last tail.serial = false → w < 4 → s.bfm.windows[w]? = some none →
        (∀ i, i < w → ∃ x, s.bfm.windows[i]? = some (some x)) →
        let inside := fun (u : RecUnit) => u.membership == .ring && !older u.serial first && !newer u.serial last
        let units := s.bfm.queue.filter inside
        let pages := fun (us : List RecUnit) => (us.map (fun u => u.pages.length)).sum
        let mark := fun (u : RecUnit) =>
          if inside u then { u with holds := (List.range 4).filter (fun i => i == w || u.holds.contains i) } else u
        let b := { s.bfm with
          queue := s.bfm.queue.map mark, windows := s.bfm.windows.set w (some { first := first, last := last }) }
        units ≠ [] → s.bfm.heldPages + pages (units.filter (fun u => u.holds.isEmpty)) ≤ 12288 →
        Answers (.holdSet tag (serialBytes first ++ serialBytes last)) .holdSet tag s { s with bfm := b } .ok
          (u8 w ++ u16 units.length ++ u16 (pages units) ++ u16 b.heldPages)) ∧
      (∀ w : Nat, w < 4 → (∀ u ∈ s.bfm.queue, w ∈ u.holds → u.membership ≠ .retain) →
        ((∀ x, s.bfm.windows[w]? ≠ some (some x)) →
          Answers (.holdClear tag (u8 w)) .holdClear tag s s .ok (flagByte true ++ u16 s.bfm.heldPages)) ∧
        ∀ x, s.bfm.windows[w]? = some (some x) →
          let b := { s.bfm with
            queue := s.bfm.queue.map (fun u => { u with holds := u.holds.filter (fun i => i != w) })
            windows := s.bfm.windows.set w none }
          Answers (.holdClear tag (u8 w)) .holdClear tag s { s with bfm := b } .ok (flagByte false ++ u16 b.heldPages)) ∧
      (∀ (w : Nat) (x : HoldWindow) (head : RecUnit), w < 4 → s.bfm.windows[w]? = some (some x) →
        (s.bfm.queue.filter (fun u => u.holds.contains w)).find? (fun u => u.picture.key) = some head →
        s.rcd.state = .standing → (s.slot s.rcd.primary).state = .ready →
        let opened := (s.beginClip .retained .retaining none).openFor s.rcd.primary
          { continuation := false, retained := true, mirrored := false } none
        let b := (s.bfm.modifyUnits (fun u => u.holds.contains w) (fun u =>
          if older u.serial head.serial then { u with holds := u.holds.filter (fun i => i != w) }
          else { u with
            membership := .retain
            progress := ({ a := .none, b := .none } : Two Progress).set s.rcd.primary .owed })).judgeWindows
        let kept := b.queue.filter (fun u => u.holds.contains w)
        let u := ({ opened with bfm := b } : State).modifyClip (fun clip =>
          { clip with head := some head.serial, last := some x.last, claimed := kept.length })
        let u := (u.reportRec .retainStarted 0 0).closeCopy s.rcd.primary (match kept.getLast? with
          | some u => .unit u.serial
          | none => .nothing)
        ∃ clip, u.rcd.clip = some clip ∧
          Answers (.holdRetain tag (u8 w)) .holdRetain tag s u .ok
            (u16 clip.sequence ++ u16 (clip.copyNumber clip.primary) ++ serialBytes head.serial ++
              u16 (u.bfm.queue.filter (fun u => u.membership == .retain)).length)))

/-! ## Clip recording -/

/-- REC_START (R115 to R118) in every state. In STANDING it is judged by the slot states; one that is taken begins the clip
as `State.clipBegun` writes it out (in MIRROR slot A's copy is opened first: the MODEL's choice, DESIGN CHOICE, log entry
40), and answers the sequence number, the clip numbers and the head; in RECORDING it is answered OK with those of the clip
that is open (DESIGN CHOICE, log entry 15). Every other outcome changes nothing but the last-start entry, which each start
leaves. -/
def Obligations.RecStartAnswered : Prop :=
  ∀ (tag : Byte) (s : State), s.ready →
    let answers := fun (u : State) (status : Status) (body : List Byte) =>
      Answers (.recStart tag []) .recStart tag s (u.withLastStart .host status s.rcd.noted) status body
    let reply := fun (clip : Clip) =>
      u16 clip.sequence ++ presence 2 (clip.copies.a.map (fun c => u16 c.clip)) ++
        presence 2 (clip.copies.b.map (fun c => u16 c.clip)) ++ presence 4 (clip.head.map serialBytes)
    (s.pwc.inRun = false → answers s .badState []) ∧
    (s.pwc.inRun = true →
      (s.rcd.state = .recording → ∀ clip, s.rcd.clip = some clip → answers s .ok (reply clip)) ∧
      (s.rcd.state = .closing ∨ s.rcd.state = .retaining → answers s .busy []) ∧
      (s.rcd.state = .standing → s.startStatus ≠ .ok → answers s s.startStatus []) ∧
      (s.rcd.state = .standing → s.startStatus = .ok →
        let u := s.clipBegun s.rcd.noted
        ∃ clip, u.rcd.clip = some clip ∧ answers u .ok (reply clip)))

/-- What a clip's start does to a card and to the queue. A writer opens a copy (R145): it takes the lowest-numbered FREE
entry, the summary holds it OPEN with the next free extent as its start, the OPEN write of its sector is owed after what
was owed before and takes a place of the write queue once one is free, and the other slot, the queue of units and the
Recorder stand; a READY slot whose last free entry it takes, or that has no free extent, becomes FULL with CARD_FULL,
and nothing else is told (R149; that the cause is EXTENTS where both hold is DEDUCED, log entry 27). The clip-head rule
(R106): the head is the oldest ring unit with the key flag that is not older than the floor; from it on (a serial 2^31
from the head counts as later: DESIGN CHOICE, log entry 45) the ring units belong to the clip and are owed on each slot
that writes; the unheld ones from the floor up to it, or all of them when there is no head, are discarded and counted.
-/
def Obligations.ClipOpensAndClaims : Prop :=
  (∀ (s : State) (side : Side) (flags : CopyFlags) (continues : Option CopyRef) (sum : Summary),
    (s.slot side).summary = some sum → (∃ j, 1 ≤ j ∧ j ≤ 999 ∧ sum.entry j = none) →
    ∃ (k : Nat) (copy : WriterCopy) (e : CatEntry) (t : State),
      1 ≤ k ∧ k ≤ 999 ∧ sum.entry k = none ∧ (∀ j, 1 ≤ j → j < k → sum.entry j ≠ none) ∧
      s.openCopy side flags continues = (t, some
        { clip := k, label := sum.header.label, firstSerial := none, placed := 0, written := 0, continues := continues,
          state := .writing }) ∧
      e.clip = k ∧ e.state = .opened ∧ e.start = sum.nextFree ∧ e.extents = 0 ∧ e.frames = 0 ∧ e.labelValid = false ∧
      e.continuation = flags.continuation ∧ e.retained = flags.retained ∧ e.mirrored = flags.mirrored ∧
      e.rateCode = s.ftb.rate.code ∧ e.dropFrame = s.ftb.dropFrame ∧ e.continues = continues ∧
      (t.slot side).summary = some { sum with entries := insertEntry e sum.entries } ∧
      (t.slot side).copy = some copy ∧ copy.clip = k ∧ copy.start = sum.nextFree ∧ copy.consumed = 0 ∧
      copy.lastTaken = none ∧ copy.last = .unnamed ∧ copy.stage = .writing ∧
      (let c := s.slot side
       let placed := min (8 - c.queue.length) (c.owed.length + 1)
       (t.slot side).owed = (c.owed ++ [CatPurpose.opening k]).drop placed ∧
       ∃ commands, (t.slot side).queue = c.queue ++ commands ∧
         commands.map CardCmd.kind = ((c.owed ++ [CatPurpose.opening k]).take placed).map CardCmdKind.catalogue ∧
         ∀ x ∈ commands, x.sectors = 1 ∧ x.depends = [] ∧ (x.kind = .catalogue (.opening k) →
           x.first = 1 + (k - 1) / 4 ∧
           x.data = ({ sum with entries := insertEntry e sum.entries } : Summary).sectorBytes (1 + (k - 1) / 4))) ∧
      ((t.slot side).state, t.lnk) =
        s.roomJudged side sum.header.label (sum.header.extents - sum.nextFree) (sum.entries.length + 1) ∧
      (t.slot side).nearFull = (s.slot side).nearFull ∧
      t.slot side.other = s.slot side.other ∧ t.bfm = s.bfm ∧ t.rcd = s.rcd ∧ t.mem = s.mem ∧ t.ftb = s.ftb) ∧
  ∀ (s : State) (clip : Clip) (floor : Serial), s.rcd.clip = some clip →
    let inRange := fun (u : RecUnit) => u.membership == .ring && !older u.serial floor
    let t := s.chooseHead floor
    let writing := fun side => (clip.copies.get side).any (fun c => c.state == .writing)
    (s.bfm.queue.find? (fun u => inRange u && u.picture.key) = none →
      t.rcd = s.rcd ∧ t.bfm.queue = s.bfm.queue.filter (fun u => !(inRange u && u.holds.isEmpty)) ∧
      t.bfm.counts.start =
        min 65535 (s.bfm.counts.start + (s.bfm.queue.filter (fun u => inRange u && u.holds.isEmpty)).length)) ∧
    ∀ head, s.bfm.queue.find? (fun u => inRange u && u.picture.key) = some head →
      let passed := fun (u : RecUnit) => inRange u && older u.serial head.serial && u.holds.isEmpty
      let claimed := fun (u : RecUnit) => u.membership == .ring && !older u.serial head.serial
      let claim := fun (u : RecUnit) => if claimed u then
          { u with
            membership := .clip clip.sequence
            progress := { a := if writing .a then .owed else .none, b := if writing .b then .owed else .none } }
        else u
      let stay := s.bfm.queue.filter (fun u => !passed u)
      t.bfm.queue = stay.map claim ∧
      t.bfm.counts.start = min 65535 (s.bfm.counts.start + (s.bfm.queue.filter passed).length) ∧
      t.rcd = { s.rcd with clip := some { clip with
        head := some head.serial, claimed := min 4294967295 (clip.claimed + (stay.filter claimed).length) } }

/-- How a joining unit is judged for the clip with interval mode off (R119), and with it on (R120). In a state that
takes no units, or with no copy WRITING, the unit joins as RING under the ring rule (so does one 2^31 from E in CLOSING:
DESIGN CHOICE, log entry 45). A claimed unit takes the clip's sequence number and the pending gap, is owed on each slot
whose copy is WRITING, and is counted. With interval mode off a unit without the key flag that comes before the head is
discarded and counted START. `CompleteEntryJoins` says which commands bring a unit here. -/
def Obligations.UnitsJoinTheClip : Prop :=
  ∀ (u : RecUnit) (clip : Clip) (s : State), s.rcd.clip = some clip →
    let takes := s.rcd.state = .recording ∨
      (s.rcd.state = .closing ∧ ∀ last, clip.last = some last → olderOrSame u.serial last = true)
    let writing := fun side => (clip.copies.get side).any (fun c => c.state == .writing)
    let someWriting := writing .a = true ∨ writing .b = true
    let asRing : State := { s with bfm := ({ s.bfm with queue := s.bfm.queue ++ [u] }).ringRule }
    let claimed := fun (clip' : Clip) =>
      ({ s with
        bfm := { s.bfm with
          queue := s.bfm.queue ++ [{ u with
            membership := .clip clip.sequence, gap := s.bfm.gapPending
            progress := { a := if writing .a then .owed else .none, b := if writing .b then .owed else .none } }]
          gapPending := false }
        rcd := { s.rcd with clip := some { clip' with claimed := min 4294967295 (clip.claimed + 1) } } } : State)
    (¬ takes ∨ ¬ someWriting → s.placeUnit u = asRing) ∧
    (takes → someWriting → s.ftb.interval = none →
      (clip.head.isSome = true → s.placeUnit u = claimed clip) ∧
      (clip.head = none → u.picture.key = true → s.placeUnit u = claimed { clip with head := some u.serial }) ∧
      (clip.head = none → u.picture.key = false →
        s.placeUnit u = { s with bfm := { s.bfm with
          free := s.bfm.free.give u.pages
          counts := { s.bfm.counts with start := min 65535 (s.bfm.counts.start + 1) } } })) ∧
    ∀ (iv : Interval) (n : Serial), takes → someWriting → s.ftb.interval = some iv → clip.start = some n →
      let period : Int := (((u.serial - n).toNat : Int) - 1) / iv.period
      let begins := (∀ h, clip.burstHead = some h → h < period) ∧ u.picture.key = true
      (u.burst = false → s.placeUnit u = asRing) ∧
      (u.burst = true → clip.burstHead = some period → s.placeUnit u = claimed clip) ∧
      (u.burst = true → clip.burstHead ≠ some period → begins →
        s.placeUnit u = claimed { clip with
          burstHead := some period, head := if clip.head.isNone then some u.serial else clip.head }) ∧
      (u.burst = true → clip.burstHead ≠ some period → ¬ begins → s.placeUnit u = asRing)

/-- The Recorder's frame start notes the serial and does nothing else (R112). SLOT_MODE (R114) is taken in STANDING,
where it sets the mode and the primary slot, refused BAD_STATE in any other state, and BAD_VALUE, in every state (DESIGN
CHOICE, log entry 17), for an unknown mode or slot. REC_STOP (R121) and a press on the REC line in RUN (R115, R118,
R121). A stop in RECORDING fixes E and makes the state CLOSING, and the Recorder looks at once whether the clip can be
closed; in any other state REC_STOP changes nothing, and its reply shows E as absent (DESIGN CHOICE, log entry 15). A
press in STANDING is a start (in MIRROR slot A's copy is opened first: DESIGN CHOICE, log entry 40), reported when
refused; in CLOSING and RETAINING it sets the latch, and that it records no last-start entry there is DEDUCED (log entry
22). -/
def Obligations.StopsAndPresses : Prop :=
  ((∀ (f : FrameStart) (rest : List FrameStart) (s : State), s.works → s.due.rcd = f :: rest →
      Becomes .rcdFrameStart s
        { s with due := { s.due with rcd := rest }, rcd := { s.rcd with noted := f.serial } }) ∧
    ∀ (tag : Byte) (mode : SlotMode) (primary : Side) (s : State), s.ready →
      let c := Instr.slotMode tag (u8 mode.code ++ u8 primary.code)
      (s.rcd.state = .standing →
        Answers c .slotMode tag s { s with rcd := { s.rcd with mode := mode, primary := primary } } .ok
          (u8 mode.code ++ u8 primary.code)) ∧
      (s.rcd.state ≠ .standing → Answers c .slotMode tag s s .badState []) ∧
      ∀ x y : Byte, 2 < x.toNat ∨ 1 < y.toNat → Answers (.slotMode tag [x, y]) .slotMode tag s s .badValue []) ∧
  (∀ (tag : Byte) (s : State),
      let n := s.rcd.noted
      let stopped := fun (clip : Clip) =>
        (({ s with rcd := { s.rcd with
            state := .closing, clip := some { clip with last := some n, reason := some .stopped } } } : State).reportRec
          .stopped 0 0).watchClip
      (s.ready →
        (∀ clip, s.rcd.state = .recording → s.rcd.clip = some clip →
          Answers (.recStop tag []) .recStop tag s (stopped clip) .ok (presence 4 (some (serialBytes n)))) ∧
        (s.rcd.state ≠ .recording → Answers (.recStop tag []) .recStop tag s s .ok (presence 4 none))) ∧
      (s.works → s.pwc.inRun = true →
        (∀ clip, s.rcd.state = .recording → s.rcd.clip = some clip → Becomes .recLinePress s (stopped clip)) ∧
        (s.rcd.state = .closing ∨ s.rcd.state = .retaining →
          Becomes .recLinePress s { s with rcd := { s.rcd with latch := true } }) ∧
        (s.rcd.state = .standing → s.startStatus = .ok →
          Becomes .recLinePress s ((s.clipBegun n).withLastStart .line .ok n)) ∧
        (s.rcd.state = .standing → s.startStatus ≠ .ok →
          Becomes .recLinePress s
            ((s.withLastStart .line s.startStatus n).reportRec .startRefused s.startStatus.code 0))))

/-- The end of a clip (R122, R123, R125, R118). In CLOSING the Recorder waits while an assembly entry up to E remains or
is still to come, BFM having yet to act on its frame start; for a clip with no E, ended before any unit was placed, none
remains. When none remains, each copy that is WRITING is told that its last unit is the newest unit of the clip, queued
or taken (the queued one where they lie 2^31 apart: DESIGN CHOICE, log entry 45), or that there is none, and is CLOSING.
When no copy is WRITING the Recorder waits, in RETAINING as in CLOSING, while a unit of the clip is queued or a copy is
CLOSING; then the clip record goes, the ending is counted and reported with its reason (STOPPED, CARD_FULL, ABORTED, and
RETAINED for a retention that nothing cut short), the state is STANDING and the pending gap is cleared; a set latch is
cleared and starts the next clip (in MIRROR slot A's copy first: DESIGN CHOICE, log entry 40), or is refused with
REC_STATE. -/
def Obligations.ClipCloses : Prop :=
  (∀ (clip : Clip) (s : State), s.rcd.clip = some clip →
    let writing := ∃ side copy, clip.copies.get side = some copy ∧ copy.state = .writing
    let busy := (∃ u ∈ s.bfm.queue, u.membership ≠ .ring) ∨
      ∃ side copy, clip.copies.get side = some copy ∧ (copy.state = .closing ∨ copy.state = .writing)
    let up := fun (n : Nat) => min 65535 (n + 1)
    let counted := fun (reason : EndReason) =>
      let k := s.rcd.endings
      match reason with
      | .stopped => { k with stopped := up k.stopped }
      | .cardFull => { k with cardFull := up k.cardFull }
      | .aborted => { k with aborted := up k.aborted }
      | .retained => { k with retained := up k.retained }
    let ended := fun (reason : EndReason) =>
      let u := ({ s with
        rcd := { s.rcd with state := .standing, endings := counted reason }
        bfm := { s.bfm with gapPending := false } } : State).reportRec reason.report 0 0
      let u := { u with rcd := { u.rcd with clip := none, latch := false } }
      let status : Status := if s.pwc.inRun then u.startStatus else .badState
      if s.rcd.latch = false then u
      else if status = .ok then (u.clipBegun u.rcd.noted).withLastStart .latch .ok u.rcd.noted
      else (u.withLastStart .latch status u.rcd.noted).reportRec .startRefused status.code 0
    (s.rcd.state = .closing →
      let remains := ∃ e, clip.last = some e ∧ ((∃ x ∈ s.bfm.entries, olderOrSame x.serial e = true) ∨
        ∃ f ∈ s.due.bfm, f.inRun = true ∧ olderOrSame f.serial e = true)
      (remains → s.watchClip = s) ∧
      (¬ remains → writing → s.watchClip = (s.tellLast .a).tellLast .b) ∧
      (¬ remains → ¬ writing → busy → s.watchClip = s) ∧
      (∀ reason, ¬ remains → ¬ writing → ¬ busy → clip.reason = some reason → s.watchClip = ended reason)) ∧
    (s.rcd.state = .retaining →
      (busy → s.watchClip = s) ∧ (¬ busy → s.watchClip = ended (clip.reason.getD .retained)))) ∧
  ∀ (clip : Clip) (side : Side) (s : State), s.rcd.clip = some clip →
    ((∀ copy, clip.copies.get side = some copy → copy.state ≠ .writing) → s.tellLast side = s) ∧
    ∀ copy, clip.copies.get side = some copy → copy.state = .writing →
      s.tellLast side = (s.modifyClip (fun clip => { clip with
        copies := clip.copies.set side (some { copy with state := .closing }) })).nameLast side
          (match ((s.bfm.queue.filter (fun u => u.membership != .ring)).getLast?).map RecUnit.serial,
              (s.slot side).copy.bind WriterCopy.lastTaken with
           | some q, some x => .unit (if newer x q then x else q)
           | some q, none => .unit q
           | none, some x => .unit x
           | none, none => .nothing)

/-! ## Card slots -/

/-- What the writer writes passes the card checks and comes back (R134 to R136, R197, R198): a header and a catalogue
sector, written out as bytes and read through the checks, come back with every field. An index block, written out as its
4,096 bytes, passes the checks with the fields that recovery reads: its count, format number, clip number, start extent,
ordinal and the end of its last listed unit; and each entry's offset, serial, size, key flag and gap flag stand in its 16
bytes, the other bits zero. -/
def Obligations.CardRoundTrip : Prop :=
  (∀ h : CardHeader, h.label.length = 16 → h.label.all isCardChar = true → 2 ≤ h.extents → h.extents ≤ 65535 →
    h.formatNumber < 4294967296 → parseHeader h.bytes = some h) ∧
  (∀ (sum : Summary) (sector : Nat), 1 ≤ sector → sector ≤ 250 → sum.header.extents ≤ 65535 →
    (∀ e ∈ sum.entries, 1 ≤ e.clip ∧ e.clip ≤ 999 ∧ 1 ≤ e.start ∧ e.start < sum.header.extents ∧ e.extents < 65536 ∧
      e.frames < 4294967296 ∧ e.label.time.hours < 256 ∧ e.label.time.minutes < 256 ∧ e.label.time.seconds < 256 ∧
      e.label.time.frames < 256 ∧ e.rateCode < 256 ∧
      ∀ r, e.continues = some r → r.label.length = 16 ∧ r.clip < 65536 ∧ ∃ b ∈ r.label, b ≠ 0) →
    parseSector sector sum.header.extents (sum.sectorBytes sector) =
      some ([4 * sector - 3, 4 * sector - 2, 4 * sector - 1, 4 * sector].filterMap sum.entry)) ∧
  ∀ (b : IndexBlock) (front : List IndexEntry) (tail : IndexEntry), b.entries = front ++ [tail] → front.length < 255 →
    b.formatNumber < 4294967296 → b.clip < 65536 → b.start < 65536 → b.start ≤ b.extent → b.extent < 65536 →
    b.entries.Pairwise (fun x y => x.offset < y.offset) → (∀ x ∈ b.entries, x.offset < 3932160 ∧ x.size < 4294967296) →
    parseIndex b.bytes = some
      { count := front.length + 1, formatNumber := b.formatNumber, clip := b.clip, start := b.start,
        ordinal := b.extent - b.start, tailEnd := tail.offset + tail.size } ∧
      b.bytes.length = 4096 ∧
      ∀ (i : Nat) (x : IndexEntry), b.entries[i]? = some x →
        let at' := 16 + 16 * i
        num b.bytes at' 4 = x.offset ∧ num b.bytes (at' + 4) 4 = x.serial.toNat ∧ num b.bytes (at' + 8) 4 = x.size ∧
          (num b.bytes (at' + 12) 1).testBit 0 = x.key ∧ (num b.bytes (at' + 12) 1).testBit 1 = x.gap ∧
          num b.bytes (at' + 12) 1 < 4 ∧ num b.bytes (at' + 13) 3 = 0

/-- UNIT_TAKE (R126, R146). The writer's next unit is the oldest queued one that its slot owes and that is newer than
the last one it took. When the card can hold it whole, by the bytes left in the current extent and the free extents, the
copy has taken it: it is the last taken and is counted as placed (saturating at 4,294,967,295: the MODEL's choice, log
entry 37), and the queue of units and the memory stand. The next free extent becomes current, and the one before is
closed, when there is none or it lists 255 units or is full; the unit is listed there, an invalid first label is filled
in (left by an unknown one: log entry 46), and its bytes go into the chunk up to its end, a full chunk being ready and
the next one begun (R147). Each extent that becomes current is judged at once (R149): with the last free one a READY
slot becomes FULL with CARD_FULL (cause EXTENTS where both hold: DEDUCED, log entry 27), and the near-full flag follows
the free extents, with CARD_NEAR_FULL when it sets (R150). When the card cannot hold it, the copy is at the end of its
card. A writer without a copy, with a unit in hand or with nothing owed takes nothing. The end of a card at unit `u`
(R127 to R129). In RELAY with the other slot READY and no live copy there (that the latter is asked, and that a CLOSING
copy switches too: DEDUCED, log entry 23), the full copy is told its last unit, the last it took (DEDUCED, log entry
24), a copy on the other slot continues it, and the units from `u` on are owed there (a serial 2^31 from u counts as
later: DESIGN CHOICE, log entry 45). In MIRROR with the other copy WRITING, they are owed on the full one no longer. In
SINGLE, for a retained clip, and where no other copy can carry the clip, it ends CARD_FULL: E is the last unit taken, or
else the newest placed, and the units from `u` on return to the ring; that a CLOSING copy that awaits one of them is
told its last unit anew is DEDUCED (log entry 11). The Recorder then looks whether the clip can be closed. -/
def Obligations.UnitTaken : Prop :=
  let next := fun (copy : WriterCopy) (sum : Summary) => ({ copy with
      consumed := copy.consumed + 1
      current := some { chunk := { extent := sum.nextFree, chunk := 1, bytes := [], units := [], ends := [] }, listed := [] }
      ready := match copy.current with
        | some cur => if cur.chunk.bytes = [] then copy.ready else some cur.chunk
        | none => copy.ready
      owedIndex := copy.owedIndex ++ (match copy.current with
        | some cur => if cur.listed = [] then [] else
            [{ extent := cur.chunk.extent, formatNumber := sum.header.formatNumber, clip := copy.clip, start := copy.start,
               entries := cur.listed }]
        | none => []) } : WriterCopy)
  (∀ (side : Side) (s : State), s.works →
      (((s.slot side).takes = false ∨ s.nextUnit side = none) → Becomes (.unitTake side) s s) ∧
      ∀ (copy : WriterCopy) (sum : Summary) (u : RecUnit), (s.slot side).takes = true → (s.slot side).copy = some copy →
        (s.slot side).summary = some sum →
        s.bfm.queue.find? (fun x => x.progress.get side == .owed &&
          (match copy.lastTaken with
           | some t => newer x.serial t
           | none => true)) = some u →
        let left := match copy.current with
          | some cur => if cur.listed.length < 255 then (16 - cur.chunk.chunk) * 262144 - cur.chunk.bytes.length else 0
          | none => 0
        let room := left + (sum.header.extents - sum.nextFree) * 3932160
        (u.cardSize ≤ room →
          let v := s.takeUnit side u
          (∃ copy', (v.slot side).copy = some copy' ∧ copy'.lastTaken = some u.serial ∧
            copy'.placed = min 4294967295 (copy.placed + 1) ∧ copy'.clip = copy.clip ∧ copy'.start = copy.start) ∧
          (∃ w : State, v = w.runWriter side ∧ (w.slot side).queue = (s.slot side).queue ∧ (w.slot side).owed = (s.slot side).owed ∧
            let opened := match copy.current with
              | some cur => decide (255 ≤ cur.listed.length ∨ 16 ≤ cur.chunk.chunk)
              | none => true
            let c := if opened then next copy sum else copy
            (∀ cur, c.current = some cur → (w.slot side).copy = some { c with
              current := some { cur with listed := cur.listed ++ [
                { offset := (cur.chunk.chunk - 1) * 262144 + cur.chunk.bytes.length, serial := u.serial, size := u.cardSize,
                  key := u.picture.key, gap := u.gap }] }
              rest := some { serial := u.serial, size := u.cardSize, bytes := u.bytes s.mem copy.clip }
              placed := min 4294967295 (copy.placed + 1), lastTaken := some u.serial }) ∧
            (w.slot side).summary = some { sum with
              nextFree := if opened then sum.nextFree + 1 else sum.nextFree
              entries := sum.entries.map (fun e => match u.label with
                | some l => if e.clip = copy.clip ∧ e.labelValid = false then { e with label := l, labelValid := u.labelValid } else e
                | none => e) } ∧
            ((w.slot side).state, (w.slot side).nearFull, w.lnk) =
              if opened then s.extentUsed side sum else ((s.slot side).state, (s.slot side).nearFull, s.lnk)) ∧
          v.slot side.other = s.slot side.other ∧ v.bfm = s.bfm ∧ v.mem = s.mem ∧ v.rcd = s.rcd ∧ v.ftb = s.ftb ∧
          Becomes (.unitTake side) s
            (v.modifyClip (fun clip => { clip with
              copies := clip.copies.set side ((clip.copies.get side).map (fun c => { c with
                placed := min 4294967295 (c.placed + 1), firstSerial := some (c.firstSerial.getD u.serial) }))
              newestPlaced := match clip.newestPlaced with
                | some x => some (if newer u.serial x then u.serial else x)
                | none => some u.serial })).review) ∧
        (room < u.cardSize → Becomes (.unitTake side) s (s.endOfCard side u.serial))) ∧
  (∀ (side : Side) (u : Serial) (clip : Clip) (s : State), s.rcd.clip = some clip →
      let taken := (s.slot side).copy.bind WriterCopy.lastTaken
      let told := s.closeCopy side (match taken with
        | some t => .unit t
        | none => .nothing)
      let late := fun (x : RecUnit) => x.membership != .ring && !older x.serial u
      let units := fun (v : State) (f : RecUnit → RecUnit) =>
        ({ v with bfm := { v.bfm with queue := v.bfm.queue.map (fun x => if late x then f x else x) } } : State)
      let carries := (s.slot side.other).state = .ready ∧
        ∀ o, clip.copies.get side.other = some o → o.state = .closed ∨ o.state = .lost
      let clipSet := fun (v : State) (f : Clip → Clip) =>
        ({ v with rcd := { v.rcd with clip := v.rcd.clip.map f } } : State)
      (clip.kind = .normal → clip.mode = .relay → carries →
        let opened := told.openFor side.other { continuation := true, retained := false, mirrored := false }
          ((clip.copies.get side).map (fun c => { label := c.label, clip := c.clip }))
        let moved := units opened (fun x => { x with progress := (x.progress.set side .none).set side.other .owed })
        let v := clipSet moved (fun c => { c with
          copies := c.copies.set side.other ((c.copies.get side.other).map (fun c => { c with firstSerial := some u }))
          switches := c.switches + 1 })
        let number := fun (side : Side) => ((v.rcd.clip.bind (fun c => c.copies.get side)).map Copy.clip).getD 0
        s.endOfCard side u = (v.report .relaySwitch
          (u8 side.code ++ u8 side.other.code ++ serialBytes u ++ u16 (number side) ++ u16 (number side.other))).review) ∧
      (∀ other, clip.kind = .normal → clip.mode = .mirror → clip.copies.get side.other = some other → other.state = .writing →
        s.endOfCard side u =
          ((units told (fun x => { x with progress := x.progress.set side .none })).reportRec .slotDropped 0 side.code).review) ∧
      (clip.kind = .retained ∨ clip.mode = .single ∨ (clip.mode = .relay ∧ ¬ carries) ∨
          (clip.mode = .mirror ∧ ∀ o, clip.copies.get side.other = some o → o.state ≠ .writing) →
        let ended := clipSet told (fun c => { c with
          last := if taken.isSome then taken else clip.newestPlaced, reason := some .cardFull })
        let freed := units ended (fun x => { x with membership := .ring, progress := { a := .none, b := .none } })
        let awaits : Bool := match clip.copies.get side.other, (s.slot side.other).copy.map WriterCopy.last with
          | some o, some (.unit last) => o.state == .closing && !older last u &&
            (s.slot side.other).copy.bind WriterCopy.lastTaken != some last
          | _, _ => false
        let renamed := if awaits then freed.nameLast side.other (freed.newestUnit side.other) else freed
        let closing := if s.rcd.state = .recording then { renamed with rcd := { renamed.rcd with state := .closing } } else renamed
        s.endOfCard side u = (closing.reportRec .cardFull 0 0).review)) ∧
  (∀ (side : Side) (s : State) (sum : Summary), (s.slot side).summary = some sum →
    let v := s.runWriter side
    ((s.slot side).state ≠ .ready → (v.slot side).state = (s.slot side).state) ∧
    ((s.slot side).state = .ready → sum.nextFree < sum.header.extents → sum.entries.length < 999 →
      ∃ sum', (v.slot side).summary = some sum' ∧ sum'.header = sum.header ∧ sum'.entries.length = sum.entries.length ∧
        (sum'.nextFree < sum.header.extents →
          (v.slot side).state = .ready ∧ v.lnk.source .cardFull = s.lnk.source .cardFull) ∧
        (sum.header.extents ≤ sum'.nextFree →
          (v.slot side).state = .full ∧
          v.lnk.source .cardFull = (s.report .cardFull (u8 side.code ++ sum.header.label.take 15)).lnk.source .cardFull))) ∧
  ∀ (side : Side) (s : State) (copy : WriterCopy) (sum : Summary) (r : Rest), (s.slot side).copy = some copy →
    (s.slot side).summary = some sum → copy.ready = none → copy.rest = some r →
    ((∀ cur, copy.current = some cur → 16 ≤ cur.chunk.chunk) →
      ∃ w : State, s.writerWork side = some w ∧ (w.slot side).copy = some (next copy sum) ∧
        (w.slot side).summary = some { sum with nextFree := sum.nextFree + 1 } ∧
        ((w.slot side).state, (w.slot side).nearFull, w.lnk) = s.extentUsed side sum) ∧
    ∀ cur, copy.current = some cur → cur.chunk.chunk < 16 →
      let n := min (262144 - cur.chunk.bytes.length) r.bytes.length
      let whole := n = r.bytes.length
      let chunk : Chunk := { cur.chunk with
        bytes := cur.chunk.bytes ++ r.bytes.take n
        units := if r.serial ∈ cur.chunk.units then cur.chunk.units else cur.chunk.units ++ [r.serial]
        ends := if whole then cur.chunk.ends ++ [(r.serial, r.size)] else cur.chunk.ends }
      let full := 262144 ≤ chunk.bytes.length
      s.writerWork side = some (s.setSlot side { s.slot side with copy := some { copy with
        rest := if whole then none else some { r with bytes := r.bytes.drop n }
        ready := if full then some chunk else none
        current := some { cur with chunk := if full then
            { extent := chunk.extent, chunk := chunk.chunk + 1, bytes := [], units := [], ends := [] } else chunk } } })

/-- The order of writes (R141, R142). CATALOGUE has priority over INDEX, and INDEX over ESSENCE. A command is issued only
when nothing is in flight; each command it depends on has completed, its sectors overlap those of no older one, and it is of
the highest priority among such commands and the oldest of that priority; and one is issued whenever such a command is
queued. A place that is filled takes one more command, of at most eight: the first owed CATALOGUE command if there is one. A
CATALOGUE command that writes an entry CLOSED waits for the copy's last INDEX command while that is queued, any other
CATALOGUE command and every ESSENCE command for none, and an INDEX command for each queued ESSENCE command with bytes of a
unit its block lists. -/
def Obligations.WriteOrder : Prop :=
  (∀ c : CardSlot,
    let priority := fun (x : CardCmd) => match x.kind with
      | .essence _ _ => 0
      | .index _ => 1
      | .catalogue _ => 2
    let may := fun (front : List CardCmd) (x : CardCmd) =>
      (∀ d ∈ x.depends, ∀ y ∈ c.queue, y.id ≠ d) ∧
      ∀ y ∈ front, ¬ (y.first < x.first + x.sectors ∧ x.first < y.first + y.sectors)
    (∀ id, c.inFlight = some id → c.issue = c) ∧
    (c.inFlight = none →
      (∀ id, c.issue.inFlight = some id → ∃ front x back, c.queue = front ++ x :: back ∧ x.id = id ∧ may front x ∧
        ∀ front' y back', c.queue = front' ++ y :: back' → may front' y →
          priority y < priority x ∨ (priority y = priority x ∧ front.length ≤ front'.length)) ∧
      (c.issue.inFlight = none → ∀ front x back, c.queue = front ++ x :: back → ¬ may front x) ∧
      { c.issue with inFlight := none } = c)) ∧
  ∀ c c' : CardSlot, c.fillPlace = some c' →
    ∃ cmd : CardCmd, cmd.id = c.nextId ∧ c'.queue = c.queue ++ [cmd] ∧ c'.nextId = c.nextId + 1 ∧ c'.queue.length ≤ 8 ∧
      c'.summary = c.summary ∧ c'.inFlight = c.inFlight ∧
      (∀ p rest, c.owed = p :: rest → cmd.kind = .catalogue p ∧ cmd.first = p.sector ∧ cmd.sectors = 1 ∧
        cmd.data = c.image p ∧ c'.owed = rest) ∧
      (∀ p, cmd.kind = .catalogue p →
        let closed := ∃ copy, c.copy = some copy ∧ copy.stage = .entryClosed ∧ p.clip.isSome = true ∧
          p.sector = (copy.clip - 1) / 4 + 1 ∧ ∃ id ∈ c.queue.map CardCmd.id, copy.lastIndex = some id ∧ cmd.depends = [id]
        closed ∨ (cmd.depends = [] ∧ ∀ copy id, c.copy = some copy → copy.stage = .entryClosed → p.clip.isSome = true →
          p.sector = (copy.clip - 1) / 4 + 1 → copy.lastIndex = some id → id ∉ c.queue.map CardCmd.id)) ∧
      (∀ units ends, cmd.kind = .essence units ends → cmd.depends = [] ∧ cmd.data.length % 512 = 0 ∧
        cmd.sectors = cmd.data.length / 512) ∧
      ∀ block, cmd.kind = .index block → cmd.first = 8192 * block.extent ∧ cmd.sectors = 8 ∧
        (∃ copy, c'.copy = some copy ∧ copy.lastIndex = some cmd.id) ∧
        ∀ x ∈ c.queue, ∀ units ends, x.kind = .essence units ends →
          (∃ i ∈ block.entries, i.serial ∈ units) → x.id ∈ cmd.depends

/-- COMMAND_COMPLETE with status OK (R143). The command leaves the queue and is counted, its effect by kind follows, and
the writer and the Recorder go on. An ESSENCE command makes each unit that ends in it, in their order, WRITTEN on the
slot, counts it for the copy and puts its size on the remaining-time list of 64; an INDEX command gives the OPEN entry
the counts of the completed blocks and owes one progress command; a closing command makes the copy CLOSED (for a
retained clip in RELAY it stays recorded so: DEDUCED, log entry 23). A rebuilt entry's write (R140) counts an entry
recovered, and recovery turns to the next OPEN entry or ends with CARD_DONE, READY or FULL (CARD_FULL's cause is EXTENTS
where both hold: DEDUCED, log entry 27). The new header's write ends a format (R151): the slot is READY with an empty
catalogue, and CARD_DONE occurs. That an answer with no command in flight is ignored is the MODEL's choice (DESIGN
CHOICE, log entry 16), and so are where the counts without a stated range saturate (log entry 37) and that the report of
a unit which has turned RING still counts (log entry 44). -/
def Obligations.CommandCompletes : Prop :=
  (∀ (side : Side) (status : CardStatus) (s : State), s.works →
    let c := s.slot side
    let count := fun (c : CardSlot) (cmd : CardCmd) =>
      { c with queue := c.queue.filter (fun x => x.id != cmd.id), inFlight := none, completed := min 4294967295 (c.completed + 1) }
    let done := fun (cmd : CardCmd) => s.setSlot side (count c cmd)
    let goesOn := fun (v : State) => Becomes (.commandComplete side .ok) s (v.runWriter side).review
    ((∀ id, c.inFlight = some id → ∀ x ∈ c.queue, x.id ≠ id) → Becomes (.commandComplete side status) s s) ∧
    ∀ cmd : CardCmd, (c.queue.map CardCmd.id).Nodup → cmd ∈ c.queue → c.inFlight = some cmd.id →
      (∀ clip, cmd.kind = .catalogue (.opening clip) ∨ cmd.kind = .catalogue (.progress clip) → goesOn (done cmd)) ∧
      ((∃ n, cmd.kind = .catalogue (.freeSector n)) ∨ cmd.kind = .catalogue .blankHeader → goesOn (done cmd)) ∧
      (∀ units ends, cmd.kind = .essence units ends →
        goesOn (ends.foldl (fun v (e : Serial × Nat) => v.unitWritten side e.1 e.2) (done cmd))) ∧
      (∀ block copy tail, cmd.kind = .index block → c.copy = some copy → block.entries.getLast? = some tail →
        let copy' := { copy with
          doneUnits := copy.doneUnits + block.entries.length, doneBlocks := copy.doneBlocks + 1
          doneEnd := tail.offset + tail.size }
        let waits := .progress copy.clip ∈ c.owed ∨
          ∃ x ∈ c.queue, x.id ≠ cmd.id ∧ x.kind = .catalogue (.progress copy.clip)
        goesOn (s.setSlot side { count c cmd with
          copy := some copy'
          summary := c.summary.map (fun sum => { sum with entries := sum.entries.map (fun e =>
            if e.clip == copy.clip && e.state == .opened then
              { e with
                frames := copy'.doneUnits
                extents := copy'.doneBlocks + if 3932160 < copy'.doneEnd then 1 else 0 }
            else e) })
          owed := if waits then c.owed else c.owed ++ [.progress copy.clip] })) ∧
      (∀ clip, cmd.kind = .catalogue (.closing clip) →
        let v := s.setSlot side { count c cmd with copy := none }
        let left := fun (clip : Clip) =>
          if clip.mode = .relay ∧ clip.kind = .normal then none
          else (clip.copies.get side).map (fun copy => { copy with state := .closed })
        goesOn { v with rcd := { v.rcd with
          clip := v.rcd.clip.map (fun clip => { clip with copies := clip.copies.set side (left clip) }) } }) ∧
      (∀ n sum, cmd.kind = .catalogue (.rebuilt n) → c.summary = some sum →
        let slot := { count c cmd with rebuilt := c.rebuilt + 1, recovered := min 65535 (c.recovered + 1) }
        let next := (sum.entries.map (fun e => e.start + e.extents)).foldl max 1
        let sum' := { sum with nextFree := next }
        let ended := fun (state : SlotState) =>
          (s.setSlot side { slot with
            summary := some sum', state := state, reading := none, recovery := none, mounted := [] }).report .cardDone
            (u8 side.code ++ u8 0 ++ u8 state.code ++ u16 (c.rebuilt + 1))
        (∀ e, sum.entries.find? (fun e => e.state == .opened) = some e →
          goesOn (s.setSlot side { slot with
            recovery := some { clip := e.clip, frames := 0, blocks := 0, tailEnd := 0 }, reading := some (.index e.start) })) ∧
        ((∀ e ∈ sum.entries, e.state ≠ .opened) →
          (sum.header.extents - next = 0 ∨ 999 ≤ sum.entries.length →
            goesOn (((ended .full).reportFull side).judgeNearFull side)) ∧
          (0 < sum.header.extents - next → sum.entries.length < 999 → goesOn ((ended .ready).judgeNearFull side)))) ∧
      (∀ h, cmd.kind = .catalogue .newHeader → c.lastHeader = some h →
        goesOn (((s.setSlot side { count c cmd with
          state := .ready, summary := some { header := h, entries := [], nextFree := 1 } }).report .cardDone
            (u8 side.code ++ u8 1 ++ u8 SlotState.ready.code ++ u16 0)).judgeNearFull side))) ∧
  ∀ (side : Side) (n : Serial) (size : Nat) (s : State),
    let c := s.slot side
    let first := ∀ u ∈ s.bfm.queue, u.serial = n → u.progress.a ≠ .written ∧ u.progress.b ≠ .written
    let more := fun (written : Nat) => min 4294967295 (written + 1)
    s.unitWritten side n size =
      { s.setSlot side { c with
          sizes := (c.sizes ++ [size]).drop (c.sizes.length + 1 - 64)
          copy := c.copy.map (fun copy => { copy with written := more copy.written }) } with
        rcd := { s.rcd with clip := s.rcd.clip.map (fun clip => { clip with
          copies := clip.copies.set side ((clip.copies.get side).map (fun copy => { copy with written := more copy.written }))
          written := if first then more clip.written else clip.written }) }
        bfm := { s.bfm with queue := s.bfm.queue.map (fun u =>
          if u.serial == n && u.membership != .ring && u.progress.get side == .owed then
            { u with progress := u.progress.set side .written }
          else u) } }

/-- How a slot fails (R144, R130): a command answered ERROR, a command or a read that times out, and a read answered ERROR
put the slot in FAULT, where nothing is queued, in flight, read or copied any longer and the summary is kept; the failure is
counted, the slot is lost to the clip, and CARD_FAULT occurs. The sector of a failed read of the card's size is not stated:
its bytes are free (log entry 1). What the loss of a slot does to the clip (R130): with no copy of the clip on it in WRITING
or CLOSING, nothing. Otherwise the copy is LOST and the units owed on it are owed there no longer; those that no live slot
owes leave if some slot has written them, and else return to the ring when held and are discarded when not. While the other
copy is WRITING, the loss is reported and the clip goes on; while it is CLOSING, E becomes its last unit where that is
newer, and the clip ends ABORTED once that copy is closed; with no other copy WRITING or CLOSING, every unit of the clip
still queued is released and the clip ends ABORTED. The MODEL's choices: a timeout or a read answer with nothing under way
changes nothing (log entry 16), a timeout is that of the command in flight first (log entry 27), the units owed on a lost
copy become NONE there (log entry 25), and a CLOSING copy that was told it has no last unit leaves E as it was (DESIGN
CHOICE, log entry 52). -/
def Obligations.CardFailures : Prop :=
  (∀ (side : Side) (s : State), s.works →
      let c := s.slot side
      let failed := fun (errors timeouts : Nat) (kind cause : Nat) (sector : List (Option Byte)) =>
        ((s.setSlot side { c with
          state := .fault, queue := [], inFlight := none, owed := [], copy := none, reading := none, recovery := none
          mounted := [], errors := min 65535 (c.errors + errors), timeouts := min 65535 (c.timeouts + timeouts) }).slotLost
            side).notify .cardFault ((u8 side.code ++ u8 kind ++ u8 cause).map some ++ sector)
      c.errors ≤ 65535 → c.timeouts ≤ 65535 →
      (∀ cmd : CardCmd, (c.queue.map CardCmd.id).Nodup → cmd ∈ c.queue → c.inFlight = some cmd.id →
        let kind := match cmd.kind with
          | .essence _ _ => 1
          | .index _ => 2
          | .catalogue _ => 3
        Becomes (.commandComplete side .error) s (failed 1 0 kind 0 ((u32 cmd.first).map some)) ∧
        Becomes (.cardTimeout side) s (failed 0 1 kind 1 ((u32 cmd.first).map some))) ∧
      (∀ read : CardRead, c.inFlight = none → c.reading = some read →
        let sector := match read with
          | .size => [none, none, none, none]
          | .header => (u32 0).map some
          | .entries n => (u32 n).map some
          | .index extent => (u32 (8192 * extent)).map some
        Becomes (.cardReadComplete side .error) s (failed 1 0 0 0 sector) ∧
        Becomes (.cardTimeout side) s (failed 0 1 0 1 sector)) ∧
      (c.inFlight = none → c.reading = none →
        Becomes (.cardTimeout side) s s ∧ ∀ answer, Becomes (.cardReadComplete side answer) s s)) ∧
  (∀ (side : Side) (s : State),
      let off := fun (u : RecUnit) =>
        if u.membership != .ring && u.progress.get side == .owed then { u with progress := u.progress.set side .none } else u
      let owed := fun (u : RecUnit) =>
        (u.progress.a == .owed && s.slotLive .a) || (u.progress.b == .owed && s.slotLive .b)
      let isWritten := fun (u : RecUnit) => u.progress.a == .written || u.progress.b == .written
      (s.looseUnits side).bfm.queue =
        ((s.bfm.queue.map off).filter (fun u => u.membership == .ring || owed u || (!isWritten u && !u.holds.isEmpty))).map
          (fun u => if u.membership == .ring || owed u then u
            else { u with membership := .ring, progress := { a := .none, b := .none } })) ∧
  (∀ (side : Side) (s : State),
      ((∀ clip copy, s.rcd.clip = some clip → clip.copies.get side = some copy → copy.state ≠ .writing ∧ copy.state ≠ .closing) →
        s.slotLost side = s) ∧
      ∀ (clip : Clip) (copy : Copy), s.rcd.clip = some clip → clip.copies.get side = some copy →
        copy.state = .writing ∨ copy.state = .closing →
        let lost := (s.modifyClip (fun c => { c with copies := c.copies.set side (some { copy with state := .lost }) })).looseUnits side
        (∀ u ∈ lost.bfm.queue, u.membership ≠ .ring → u.progress.get side ≠ .owed) ∧
        (∀ other, clip.copies.get side.other = some other → other.state = .closing →
          let last := match (s.slot side.other).copy.map WriterCopy.last, clip.last with
            | some (.unit x), some e => some (if newer x e then x else e)
            | some (.unit x), none => some x
            | _, e => e
          let v : State := { lost with rcd := { lost.rcd with
            clip := lost.rcd.clip.map (fun c => { c with last := last, reason := some .aborted })
            state := if s.rcd.state = .recording then .closing else s.rcd.state } }
          s.slotLost side = (v.reportRec .aborted 0 0).review) ∧
        (∀ other, clip.copies.get side.other = some other → other.state = .writing →
          s.slotLost side = (lost.reportRec .slotDropped 0 side.code).review) ∧
        ((∀ other, clip.copies.get side.other = some other → other.state ≠ .writing ∧ other.state ≠ .closing) →
          let t := s.slotLost side
          (∀ u ∈ t.bfm.queue, u.membership ≠ .ring → s.rcd.latch = true) ∧
          (s.rcd.latch = false →
            t.rcd = { s.rcd with
              state := .standing, clip := none
              endings := { s.rcd.endings with aborted := min 65535 (s.rcd.endings.aborted + 1) } } ∧
            t.bfm.gapPending = false)))

/-- A mount (R139). The size is read, then the header, then the sectors 1 to 250 in order. A header or a sector that fails
its checks, or extents beyond the card's size, end it UNFORMATTED; that a failure ends it at that very read is DEDUCED (log
entry 27). After sector 250 the summary stands with the next free extent of R135; with an OPEN entry and the protect line
clear the slot is RECOVERING and the first OPEN entry's index is read; otherwise it is PROTECTED, FULL or READY, and
CARD_DONE occurs. In recovery (R140) a block of the copy adds its units, and the extent after it is read; at a block that
fails its checks or belongs to no such place, and after the card's last extent, the entry is RECOVERED with the counts of
the blocks read, and its write is owed. -/
def Obligations.CardMounts : Prop :=
  ∀ (side : Side) (size : Nat) (bytes : List Byte) (s : State), s.works →
    let c := s.slot side
    let event := Instr.cardReadComplete side (.done size bytes)
    let ended := fun (c' : CardSlot) (state : SlotState) =>
      ((s.setSlot side { c' with state := state, reading := none, recovery := none, mounted := [] }).report .cardDone
        (u8 side.code ++ u8 0 ++ u8 state.code ++ u16 0))
    (c.reading = some .size →
      Becomes event s (s.setSlot side { c with cardSectors := size, reading := some .header })) ∧
    (c.reading = some .header →
      (parseHeader bytes = none → Becomes event s (ended { c with lastHeader := none, summary := none } .unformatted)) ∧
      ∀ h, parseHeader bytes = some h →
        (c.cardSectors / 8192 < h.extents →
          Becomes event s (ended { c with lastHeader := some h, summary := none } .unformatted)) ∧
        (h.extents ≤ c.cardSectors / 8192 →
          Becomes event s (s.setSlot side { c with lastHeader := some h, reading := some (.entries 1) }))) ∧
    (∀ (sum : Summary) (r : Recovery) (e : CatEntry) (extent : Nat), c.reading = some (.index extent) → c.summary = some sum →
      c.recovery = some r → sum.entry r.clip = some e →
      let belongs := fun (b : ReadIndex) =>
        b.formatNumber = sum.header.formatNumber ∧ b.clip = e.clip ∧ b.start = e.start ∧ b.ordinal + e.start = extent
      let rebuilt := fun (r : Recovery) =>
        (s.setSlot side { c with
          summary := some { sum with entries := sum.entries.map (fun x =>
            if x.clip == r.clip then
              { x with
                state := .recovered, frames := r.frames, extents := r.blocks + (if 3932160 < r.tailEnd then 1 else 0) }
            else x) }
          reading := none, recovery := none, owed := c.owed ++ [.rebuilt r.clip] }).runWriter side
      ((∀ b, parseIndex bytes = some b → ¬ belongs b) → Becomes event s (rebuilt r)) ∧
      ∀ b, parseIndex bytes = some b → belongs b →
        let r' := { r with frames := r.frames + b.count, blocks := r.blocks + 1, tailEnd := b.tailEnd }
        (extent + 1 < sum.header.extents →
          Becomes event s (s.setSlot side { c with recovery := some r', reading := some (.index (extent + 1)) })) ∧
        (sum.header.extents ≤ extent + 1 → Becomes event s (rebuilt r'))) ∧
    ∀ (h : CardHeader) (sector : Nat), c.reading = some (.entries sector) → c.lastHeader = some h →
      (parseSector sector h.extents bytes = none ∨
          (∃ es, parseSector sector h.extents bytes = some es ∧ ∃ e ∈ es, h.extents < e.start + e.extents) →
        Becomes event s (ended { c with summary := none } .unformatted)) ∧
      ∀ es, parseSector sector h.extents bytes = some es → (∀ e ∈ es, e.start + e.extents ≤ h.extents) →
        let all := c.mounted ++ es
        let next := (all.map (fun e => e.start + e.extents)).foldl max 1
        let sum : Summary := { header := h, entries := all, nextFree := next }
        (sector < 250 →
          Becomes event s (s.setSlot side { c with mounted := all, reading := some (.entries (sector + 1)) })) ∧
        (250 ≤ sector →
          (∀ e, c.protectOn = false → all.find? (fun e => e.state == .opened) = some e →
            Becomes event s (s.setSlot side { c with
              state := .recovering, summary := some sum, mounted := []
              recovery := some { clip := e.clip, frames := 0, blocks := 0, tailEnd := 0 }
              reading := some (.index e.start) })) ∧
          (c.protectOn = true →
            Becomes event s ((ended { c with summary := some sum } .writeProtected).judgeNearFull side)) ∧
          (c.protectOn = false → (∀ e ∈ all, e.state ≠ .opened) →
            (h.extents - next = 0 ∨ 999 ≤ all.length →
              Becomes event s (((ended { c with summary := some sum } .full).reportFull side).judgeNearFull side)) ∧
            (0 < h.extents - next → all.length < 999 →
              Becomes event s ((ended { c with summary := some sum } .ready).judgeNearFull side))))

/-- The debounced lines of a slot (R138). An insertion at an ABSENT slot mounts the card in RUN and is deferred in STANDBY.
A removal in any state but OFF takes the slot to ABSENT with the values of R156, and loses it to the clip. Protect set on a
READY or FULL slot that is no target makes it PROTECTED; protect cleared on a PROTECTED slot mounts it afresh, or is
deferred; that the mount begins beside a leftover command of the queue, which stays, is DEDUCED (log entry 43). Each occurs
as CARD_CHANGE. In every other state a protect change only changes the level, which the end of a mount reads. A level that
does not change has no effect, and in OFF the levels are followed alone. -/
def Obligations.CardLines : Prop :=
  ∀ (side : Side) (s : State), s.works →
    let c := s.slot side
    let change := fun (v : State) (code : Nat) => v.report .cardChange (u8 side.code ++ u8 code)
    let mounted := fun (c : CardSlot) =>
      if s.pwc.inRun then
        { c with
          state := .mounting, deferred := false, summary := none, mounted := [], reading := some .size, recovery := none
          rebuilt := 0, nearFull := false }
      else { c with deferred := true }
    let detect := Instr.cardDetectChange side
    let protect := Instr.protectChange side
    Becomes (detect c.present) s s ∧ Becomes (protect c.protectOn) s s ∧
    (c.state = .off →
      (∀ on, Becomes (detect on) s (s.setSlot side { c with present := on })) ∧
      (∀ on, Becomes (protect on) s (s.setSlot side { c with protectOn := on }))) ∧
    (c.present = false → c.state = .absent →
      Becomes (detect true) s (change (s.setSlot side (mounted { c with present := true })) 0)) ∧
    (c.present = true → c.state ≠ .off →
      Becomes (detect false) s (change ((s.setSlot side { CardSlot.afterReset with
        protectOn := c.protectOn, threshold := c.threshold, completed := c.completed, errors := c.errors
        timeouts := c.timeouts, recovered := c.recovered }).slotLost side) 1)) ∧
    (c.protectOn = false → c.state = .ready ∨ c.state = .full →
      (s.isTarget side = false →
        Becomes (protect true) s (change (s.setSlot side { c with protectOn := true, state := .writeProtected }) 2)) ∧
      (s.isTarget side = true → Becomes (protect true) s (s.setSlot side { c with protectOn := true }))) ∧
    (c.protectOn = true → c.state = .writeProtected →
      Becomes (protect false) s (change (s.setSlot side (mounted { c with protectOn := false })) 3)) ∧
    (c.protectOn = false → c.state ≠ .ready → c.state ≠ .full →
      Becomes (protect true) s (s.setSlot side { c with protectOn := true })) ∧
    (c.protectOn = true → c.state ≠ .writeProtected →
      Becomes (protect false) s (s.setSlot side { c with protectOn := false }))

/-- CARD_FORMAT (R151), CARD_EJECT (R152) and CARD_CONFIG (R149), taken and refused. A format blanks the header, writes the
250 empty sectors and then the new header, with the card's whole extents and the next format number. That CARD_EJECT drops
the commands still owed and a deferred mount is DEDUCED (log entry 27). BAD_VALUE: a label byte out of range, whatever the
slot's state (DESIGN CHOICE, log entry 17), a threshold above 4,096. BUSY: a slot that is a target, mounting, recovering or
formatting. NO_CARD: a slot ABSENT, or for a format EJECTED. BAD_STATE: a format in STANDBY, of a PROTECTED or FAULT slot,
or of a card of fewer than two extents. A refusal changes nothing. The near-full flag is judged by the free extents and the
threshold, and reported when it becomes set. -/
def Obligations.CardRequestsTaken : Prop :=
  ∀ (tag : Byte) (side : Side) (s : State), s.ready → s.pwc.enables.slots.get side = true →
    let c := s.slot side
    (∀ label : List Byte, label.length = 16 → label.all isCardChar = true → s.pwc.inRun = true → s.isTarget side = false →
      c.state = .ready ∨ c.state = .full ∨ c.state = .unformatted → 2 ≤ c.cardSectors / 8192 →
      let number := match c.lastHeader with
        | some h => if h.formatNumber < 4294967295 then h.formatNumber + 1 else 1
        | none => 1
      let header : CardHeader := { label := label, extents := min 65535 (c.cardSectors / 8192), formatNumber := number }
      let plan := CatPurpose.blankHeader :: (List.range' 1 250).map CatPurpose.freeSector ++ [.newHeader]
      Answers (.cardFormat tag (u8 side.code ++ label)) .cardFormat tag s
        ((s.setSlot side { c with
          state := .formatting, summary := none, nearFull := false, lastHeader := some header
          owed := c.owed ++ plan }).runWriter side) .accepted []) ∧
    (s.isTarget side = false →
      (c.state = .ready ∨ c.state = .full ∨ c.state = .writeProtected ∨ c.state = .unformatted ∨ c.state = .fault →
        Answers (.cardEject tag (u8 side.code)) .cardEject tag s
          (s.setSlot side { c with state := .ejected, summary := none, deferred := false, owed := [] }) .ok []) ∧
      (c.state = .ejected → Answers (.cardEject tag (u8 side.code)) .cardEject tag s s .ok [])) ∧
    (∀ label : List Byte, label.length = 16 →
      let refused := fun (status : Status) => Answers (.cardFormat tag (u8 side.code ++ label)) .cardFormat tag s s status []
      let target := s.isTarget side = true
      let small := c.cardSectors / 8192 < 2
      (label.all isCardChar = false → refused .badValue) ∧
      (label.all isCardChar = true →
        (s.pwc.inRun = false → refused .badState) ∧
        (s.pwc.inRun = true →
          (c.state = .ready ∨ c.state = .full →
            (target → refused .busy) ∧ (¬ target → small → refused .badState)) ∧
          (c.state = .unformatted → small → refused .badState) ∧
          (c.state = .mounting ∨ c.state = .recovering ∨ c.state = .formatting → refused .busy) ∧
          (c.state = .writeProtected ∨ c.state = .fault → refused .badState) ∧
          (c.state = .absent ∨ c.state = .ejected → refused .noCard)))) ∧
    (let eject := fun (status : Status) => Answers (.cardEject tag (u8 side.code)) .cardEject tag s s status []
     (s.isTarget side = true → eject .busy) ∧
     (s.isTarget side = false →
       (c.state = .mounting ∨ c.state = .recovering ∨ c.state = .formatting → eject .busy) ∧
       (c.state = .absent → eject .noCard))) ∧
    (∀ x : Nat, 4096 < x → x ≤ 65535 →
      Answers (.cardConfig tag (u8 side.code ++ u16 x)) .cardConfig tag s s .badValue []) ∧
    (∀ x : Nat, x ≤ 4096 →
      let u := (s.setSlot side { c with threshold := x }).judgeNearFull side
      Answers (.cardConfig tag (u8 side.code ++ u16 x)) .cardConfig tag s u .ok
        (u16 x ++ presence 2 (c.summary.map (fun sum => u16 (sum.header.extents - sum.nextFree))) ++
          flagByte (u.slot side).nearFull)) ∧
    ∀ sum, c.summary = some sum →
      let n := sum.header.extents - sum.nextFree
      (c.threshold < n → s.judgeNearFull side = s.setSlot side { c with nearFull := false }) ∧
      (n ≤ c.threshold → c.nearFull = true → s.judgeNearFull side = s) ∧
      (n ≤ c.threshold → c.nearFull = false →
        s.judgeNearFull side = (s.setSlot side { c with nearFull := true }).report .cardNearFull
          (u8 side.code ++ u16 n ++ c.remainingBytes s.ftb.rate.nominal))

/-! ## Viewfinder overlay and tally -/

/-- VOG's frame start and the viewfinder link (R163, R164, R165, R167). While VOG works, the blink counter advances, the
alert line moves by its dwell of twice the nominal rate, and one record with the frame's serial and the settings is handed
to the link (what the lens record holds where LNC has yet to act on the frame start, or has acted on it and is disabled
since, is DEDUCED, log entry 31). The record lists slots in rising order: every candidate when they number at most 24, and
otherwise 24 of them, none of which would have to go before one left out. Outside RUN or with VOG disabled nothing is built.
The lens items 7 to 9 (R158) show the lens record that LNC's action on the frame start left, and while LNC is disabled the
one that it keeps, with the stale flag set (R29, R46). When the record in flight has been sent the waiting one begins; that
nothing happens with none in flight is the MODEL's choice (DESIGN CHOICE, log entry 16). -/
def Obligations.VogFrame : Prop :=
  (∀ (f : FrameStart) (rest : List FrameStart) (s : State), s.works → s.due.vog = f :: rest →
    let u : State := { s with due := { s.due with vog := rest } }
    let v := s.vog
    let blink := if v.blink < 31 then v.blink + 1 else 0
    let rotation := s.lnk.rotation
    let line := match rotation, v.shown with
      | [], _ => (none, 0)
      | first :: _, none => (some first, 1)
      | first :: _, some x =>
        if v.dwell < 2 * s.ftb.rate.nominal then (some x, v.dwell + 1)
        else (some (((rotation.dropWhile (fun y => y != x)).drop 1).head?.getD first), 1)
    let moved : State := { u with vog := { v with blink := blink, shown := line.1, dwell := line.2 } }
    let o := moved.overlay f
    let candidates := (List.range 32).filterMap (fun i => moved.candidate f (moved.lensRecordFor f) i)
    let placed := fun (x : OverlayItem) => x ∈ o.items
    ((f.inRun && s.pwc.inRun && s.pwc.enables.vog) = false → Becomes .vogFrameStart s u) ∧
    ((f.inRun && s.pwc.inRun && s.pwc.enables.vog) = true → (∀ x, v.shown = some x → x ∈ rotation) →
      (∃ t, exec .vogFrameStart s = .next t ∧ t.lnk = moved.lnk.follow ∧
        t.vog.blink = blink ∧ t.vog.shown = line.1 ∧ t.vog.dwell = line.2 ∧ Follows
          { moved with vog := match v.inFlight, v.waiting with
            | none, _ => { moved.vog with inFlight := some o }
            | some _, none => { moved.vog with waiting := some o }
            | some _, some _ =>
              { moved.vog with waiting := some o, droppedRecords := min 65535 (v.droppedRecords + 1) } } t) ∧
      o.serial = f.serial ∧ o.zebra = v.zebra ∧ o.peaking = v.peaking ∧ o.blinkOn = decide (blink ≤ 15) ∧
      (candidates.length ≤ 24 → o.items = candidates) ∧
      (24 < candidates.length → o.items.length = 24 ∧ o.items.Sublist candidates ∧
        ∀ x ∈ candidates, ∀ y ∈ candidates, placed x → ¬ placed y →
          y.priority < x.priority ∨ (y.priority = x.priority ∧ x.slot < y.slot)))) ∧
  ∀ s : State, s.works →
    (s.vog.inFlight = none → Becomes .overlaySent s s) ∧
    (s.vog.inFlight.isSome = true →
      Becomes .overlaySent s { s with vog := { s.vog with inFlight := s.vog.waiting, waiting := none } }) ∧
  ∀ (f : FrameStart) (s : State),
    let r := s.lensRecordFor f
    (s.pwc.enables.lnc = false →
      r = { report := s.lnc.latest, previousZoom := s.lnc.previous.zoom, focal := s.lnc.focal, focalSerial := s.lnc.focalSerial
            stale := true }) ∧
    (s.pwc.enables.lnc = true → ∀ left, f.lens = some left → r = left) ∧
    s.systemItem f r 7 = some (u16 r.report.zoom ++ u16 s.lnc.zoom.least ++ u16 s.lnc.zoom.greatest ++ u16 r.focal ++
      flagByte r.report.extender ++ flagByte s.lnc.zoom.released ++ flagByte r.stale) ∧
    s.systemItem f r 8 = some (u16 r.report.focus ++ u16 s.lnc.focus.least ++ u16 s.lnc.focus.greatest ++
      flagByte s.lnc.focus.released ++ flagByte r.stale) ∧
    s.systemItem f r 9 = some (u8 r.report.iris ++ flagByte s.lnc.iris.auto ++ flagByte s.lnc.iris.released ++ flagByte r.stale)

/-- VF_ITEM_SET (R160) and VF_ITEM_CLEAR (R161), in RUN with VOG enabled. An item slot takes the enable flag and the
priority, and answers them. A clear of one slot, or of all host slots, sets each to the values of R170, and answers how
many. A slot, a priority or an enable flag out of range is refused BAD_VALUE and nothing changes; a clear's number 255 for
"all host slots" is the code of R194. VF_TEXT (R159) and VF_CONFIG (R162), in RUN with VOG enabled, taken and refused. In
STANDBY all four requests of VOG with values in range are refused BAD_STATE (R170). That a value out of range is answered
BAD_VALUE in STANDBY too is the MODEL's choice (DESIGN CHOICE, log entry 17). -/
def Obligations.ViewfinderRequests : Prop :=
  (∀ (tag : Byte) (s : State), s.ready → s.pwc.enables.vog = true →
      let put := fun (slots : List ItemSlot) => ({ s with vog := { s.vog with slots := slots } } : State)
      let fresh := fun (i : Nat) =>
        ({ enabled := decide (i ≤ 6) || i == 10, priority := 4, row := 0, column := 0, text := [] } : ItemSlot)
      (∀ i on p : Nat, i ≤ 255 → on ≤ 255 → p ≤ 255 →
        (i ≤ 31 → on ≤ 1 → p ≤ 7 → s.pwc.inRun = true → ∀ slot, s.vog.slots[i]? = some slot →
          Answers (.vfItemSet tag (u8 i ++ u8 on ++ u8 p)) .vfItemSet tag s
            (put (s.vog.slots.set i { slot with enabled := on == 1, priority := p })) .ok (u8 on ++ u8 p)) ∧
        (31 < i ∨ 1 < on ∨ 7 < p →
          Answers (.vfItemSet tag (u8 i ++ u8 on ++ u8 p)) .vfItemSet tag s s .badValue []) ∧
        (i ≤ 31 → s.pwc.inRun = true →
          Answers (.vfItemClear tag (u8 i)) .vfItemClear tag s (put (s.vog.slots.set i (fresh i))) .ok [1]) ∧
        (31 < i → i ≠ 255 → Answers (.vfItemClear tag (u8 i)) .vfItemClear tag s s .badValue [])) ∧
      (s.pwc.inRun = true → s.vog.slots.length = 32 →
        Answers (.vfItemClear tag [255]) .vfItemClear tag s
          (put (s.vog.slots.take 16 ++ (List.range' 16 16).map fresh)) .ok [16])) ∧
  (∀ (tag : Byte) (s : State), s.ready → s.pwc.enables.vog = true →
      let put := fun (vog : Vog) => ({ s with vog := vog } : State)
      let standby := s.pwc.inRun = false
      (∀ (i row column : Nat) (text : List Byte), i ≤ 255 → row ≤ 255 → column ≤ 255 → text.length ≤ 1021 →
        let c := Instr.vfText tag (u8 i ++ u8 row ++ u8 column ++ text)
        let good := 16 ≤ i ∧ i ≤ 31 ∧ row ≤ 15 ∧ column ≤ 47 ∧ text.length ≤ 24 ∧ column + text.length ≤ 48 ∧
          ∀ b ∈ text, 0x20 ≤ b.toNat ∧ b.toNat ≤ 0x7E
        (good → s.pwc.inRun = true → ∀ slot, s.vog.slots[i]? = some slot →
          Answers c .vfText tag s
            (put { s.vog with slots := s.vog.slots.set i { slot with row := row, column := column, text := text } }) .ok
            (u8 i ++ u8 row ++ u8 column ++ u8 text.length ++ flagByte slot.enabled ++ u8 slot.priority)) ∧
        (good → standby → Answers c .vfText tag s s .badState []) ∧
        (¬ good → Answers c .vfText tag s s .badValue [])) ∧
      (∀ (zebra peaking marker : Nat), zebra ≤ 255 → peaking ≤ 255 → marker ≤ 255 →
        let c := Instr.vfConfig tag (u8 zebra ++ u8 peaking ++ u8 marker)
        let good := (zebra = 0 ∨ (50 ≤ zebra ∧ zebra ≤ 109)) ∧ peaking ≤ 7 ∧ marker ≤ 1
        (good → s.pwc.inRun = true →
          Answers c .vfConfig tag s (put { s.vog with zebra := zebra, peaking := peaking, marker := marker == 1 }) .ok
            (u8 zebra ++ u8 peaking ++ u8 marker)) ∧
        (good → standby → Answers c .vfConfig tag s s .badState []) ∧
        (¬ good → Answers c .vfConfig tag s s .badValue [])) ∧
      (standby → Answers (.vfItemClear tag [255]) .vfItemClear tag s s .badState []) ∧
      (standby → ∀ i on p : Nat, i ≤ 31 → on ≤ 1 → p ≤ 7 →
        Answers (.vfItemSet tag (u8 i ++ u8 on ++ u8 p)) .vfItemSet tag s s .badState [] ∧
        Answers (.vfItemClear tag (u8 i)) .vfItemClear tag s s .badState []))

/-! ## Host link and notices -/

/-- How a request that reaches LNK is judged (R175, R176). In a part that is ready for it: a payload length outside its row
of the code table is BAD_LENGTH; a request of a disabled block BLOCK_OFF; a card request that names neither slot BAD_VALUE;
a code that is none of the part's UNKNOWN. None of these changes anything. With no place in the outbound queue, or
PART_RESET taken, the request waits in the inbound queue; when four wait already it is dropped with OVERRUN. -/
def Obligations.RequestsJudged : Prop :=
  (∀ (req : Req) (tag : Byte) (payload : List Byte) (s : State), s.ready →
    let row := rowOfReq req
    let answered := fun (status : Status) => Answers (req.command tag payload) req tag s s status []
    let fits := row.least ≤ payload.length ∧ payload.length ≤ row.greatest
    (¬ fits → answered .badLength) ∧
    (fits → row.owner = .lnc ∧ s.pwc.enables.lnc = false ∨ row.owner = .stb ∧ s.pwc.enables.stb = false ∨
        row.owner = .aud ∧ s.pwc.enables.aud = false ∨ row.owner = .vog ∧ s.pwc.enables.vog = false ∨
        row.owner = .card ∧ (∃ side : Side, num payload 0 1 = side.code ∧ s.pwc.enables.slots.get side = false) →
      answered .blockOff) ∧
    (fits → row.owner = .card → 2 ≤ num payload 0 1 → answered .badValue)) ∧
  (∀ (code tag : Byte) (payload : List Byte) (s : State), s.ready → (∀ req : Req, req.code ≠ code) →
    Becomes (.unknownRequest code tag payload) s
      { s with lnk := { s.lnk with waiting := s.lnk.waiting ++ [.reply code tag [9]] } }) ∧
  ∀ (r : Request) (s : State), s.works → 16 ≤ s.lnk.places ∨ s.lnk.resetTaken = true →
    (s.lnk.inbound.length < 4 → Becomes r.command s { s with lnk := { s.lnk with inbound := s.lnk.inbound ++ [r] } }) ∧
    (4 ≤ s.lnk.inbound.length →
      Becomes r.command s
        (({ s with lnk := { s.lnk with counts := { s.lnk.counts with
          overrun := min 65535 (s.lnk.counts.overrun + 1) } } } : State).report .linkError
            (u8 5 ++ serialBytes s.ftb.serial)))

/-- The receiver and a frame (R172, R173, R176). The bytes of a frame are kept one by one; with the last byte of a whole
request frame the receiver is in HUNT and the request that the frame carries is offered, exactly as the command of that
request; with the last byte of a whole frame of another kind the frame is dropped with BAD_KIND. In HUNT any byte but the
sync is discarded. -/
def Obligations.FrameReceived : Prop :=
  ∀ (b kind : Byte) (r : Request) (s : State), s.works → r.payload.length ≤ 1024 →
    let frame := linkFrame kind r.code r.tag r.payload
    let hunting : State := { s with lnk := { s.lnk with kept := [] } }
    (frame = 0xC3#8 :: u16 r.payload.length ++ [kind, r.code, r.tag] ++ r.payload ++
      crcBytes ([kind, r.code, r.tag] ++ r.payload)) ∧
    (∀ back, back ≠ [] → s.lnk.kept ++ b :: back = frame →
      Becomes (.byteArrival b) s { s with lnk := { s.lnk with kept := s.lnk.kept ++ [b] } }) ∧
    (kind = 0x01#8 → s.lnk.kept ++ [b] = frame → exec (.byteArrival b) s = exec r.command hunting) ∧
    (kind ≠ 0x01#8 → s.lnk.kept ++ [b] = frame →
      Becomes (.byteArrival b) s
        (({ hunting with lnk := { hunting.lnk with counts := { s.lnk.counts with
          badKind := min 65535 (s.lnk.counts.badKind + 1) } } } : State).report .linkError
            (u8 4 ++ serialBytes s.ftb.serial))) ∧
    (s.lnk.kept = [] → b ≠ 0xC3#8 → Becomes (.byteArrival b) s s)

/-- Drops that make the receiver look again (R173, R174). A bad length, a bad CRC, a line framing error and the gap timer's
expiry drop the frame with its cause, count and LINK_ERROR, and the bytes kept after its sync are taken again, in order, as
though each were arriving now; the readers of the notice table follow the LINK_ERROR before that (R178, R180).
`State.receiveBytes` of one byte is what BYTE_ARRIVAL does with it. In HUNT a framing error is counted alone and the gap
timer does not run. -/
def Obligations.DropsAreTakenAgain : Prop :=
  (∀ s : State, s.works →
    let dropped := fun (counts : LinkCounts) (cause : Nat) =>
      ({ s with lnk := { s.lnk with kept := [], counts := counts } } : State).report .linkError
        (u8 cause ++ serialBytes s.ftb.serial)
    let k := s.lnk.counts
    let framing := { k with framing := min 65535 (k.framing + 1) }
    (s.lnk.kept = [] →
      Becomes .lineFramingError s { s with lnk := { s.lnk with counts := framing } } ∧ Becomes .gapTimeout s s) ∧
    ∀ (first : Byte) (again : List Byte), s.lnk.kept = first :: again →
      Becomes .lineFramingError s ((dropped framing 2).settle.receiveBytes again) ∧
      Becomes .gapTimeout s ((dropped { k with timeout := min 65535 (k.timeout + 1) } 3).settle.receiveBytes again) ∧
      ∀ b : Byte,
        (again.length = 1 → 1024 < num (s.lnk.kept ++ [b]) 1 2 →
          Becomes (.byteArrival b) s
            ((dropped { k with badLength := min 65535 (k.badLength + 1) } 0).settle.receiveBytes (again ++ [b]))) ∧
        ∀ n, num s.lnk.kept 1 2 = n → n ≤ 1024 → s.lnk.kept.length = n + 7 →
          field (s.lnk.kept ++ [b]) (n + 6) 2 ≠ crcBytes (field s.lnk.kept 3 (n + 3)) →
          Becomes (.byteArrival b) s
            ((dropped { k with badCrc := min 65535 (k.badCrc + 1) } 1).settle.receiveBytes (again ++ [b]))) ∧
  ∀ (s : State) (b : Byte) (rest : List Byte),
    s.receiveBytes [] = s ∧ s.receiveBytes (b :: rest) = (s.receiveBytes [b]).receiveBytes rest ∧
    (s.works → Becomes (.byteArrival b) s (s.receiveBytes [b]))

/-- MESSAGE_SENT and the arbiter (R175, R177, R191). The message's place is free and another begins; the requests that wait
in the inbound queue are then dispatched as places allow, exactly as though the last of them arrived now: each leaves the
queue and is judged, and its reply joins the outbound queue before the next is dispatched. With none waiting there, LNK goes
on as it follows the table. After PART_RESET was taken, and until its reply has been sent, it does the same at the end of
every other message, and the requests waiting inbound stay where they are. After the reply with which PART_RESET was taken
the part is held in a reset. While a message is being sent no other begins. On an idle line the arbiter begins the oldest
reply; with no reply waiting it begins the notice message of the highest level, then of the oldest first occurrence (the
first occurrences standing within half the range of serials), then of the lowest number. The content that a notice message
takes then is the 23 bytes of R195: level, count, detail length, first serial and the detail, filled with zeros. The MODEL's
choices: with the line idle nothing ends (log entry 16), the tag of a notice frame is a free byte (log entry 1), and the
buffer memory stands through the reset (log entry 6). -/
def Obligations.MessagesSent : Prop :=
  (∀ (r : Request) (front : List Request) (m : Sending) (s : State), s.works → s.lnk.sending = some m →
    s.lnk.resetTaken = false → s.lnk.inbound = front ++ [r] → front.length ≤ 3 →
    exec .messageSent s =
      exec r.command { s with lnk := { ({ s.lnk with sending := none } : Lnk).transmit with inbound := front } }) ∧
  (∀ (k : Nat) (r : Request) (rest : List Request) (s : State), s.lnk.inbound = r :: rest →
    (16 ≤ s.lnk.places ∨ s.lnk.resetTaken = true → State.dispatch (k + 1) s = s) ∧
    (s.lnk.places < 16 → s.lnk.resetTaken = false → ∀ u answer,
      ({ s with lnk := { s.lnk with inbound := rest } } : State).judgeRequest r = (u, answer) →
      State.dispatch (k + 1) s = State.dispatch k (u.modifyLnk (fun lnk => lnk.pushReply r answer)).settle)) ∧
  (∀ s : State, s.works →
    (s.lnk.sending = none → Becomes .messageSent s s) ∧
    ∀ m, s.lnk.sending = some m →
      (s.lnk.resetTaken = false ∧ s.lnk.inbound = [] ∨
          s.lnk.resetTaken = true ∧ (∀ tag, m.msg ≠ .reply 0x7B#8 tag [0]) →
        let ended : Lnk := { s.lnk with sending := none }
        ∃ t, exec .messageSent s = .next t ∧ Follows { s with lnk := ended } t ∧ t.lnk = ended.transmit.follow) ∧
      (s.lnk.resetTaken = true → (∃ tag, m.msg = .reply 0x7B#8 tag [0]) →
        ∃ t, exec .messageSent s = .next t ∧ t.pwc.resetting = some .partReset ∧ t.lnk.attn = false ∧ t.lnk.sending = none ∧
          t.lnk.inbound = [] ∧ t.vog.tally = .dark ∧ t.mem = s.mem ∧ t.pending = s.pending)) ∧
  (∀ lnk : Lnk, (lnk.sending.isSome = true → lnk.transmit = lnk) ∧ (lnk.sending = none →
    (∀ code tag payload, lnk.waiting.find? (fun m => !m.isNotice) = some (.reply code tag payload) →
      lnk.transmit = { lnk with
        waiting := lnk.waiting.erase (.reply code tag payload)
        sending := some { msg := .reply code tag payload, frame := linkFrame 0x02#8 code tag payload } }) ∧
    (lnk.waiting = [] → lnk.transmit = lnk) ∧
    ((∀ m ∈ lnk.waiting, m.isNotice = true) → lnk.waiting ≠ [] →
      ∃ src free, OutMsg.notice src ∈ lnk.waiting ∧
        lnk.transmit = { lnk with
          waiting := lnk.waiting.erase (.notice src), drawn := lnk.drawn + 1
          sending := some
            { msg := .notice src
              frame := linkFrame 0x03#8 (BitVec.ofNat 8 src.number) free (lnk.source src).noticePayload } } ∧
        ∀ base : Serial, (∀ x, OutMsg.notice x ∈ lnk.waiting → lnk.age base x < 2147483648) →
          ∀ x, OutMsg.notice x ∈ lnk.waiting → x ≠ src → lnk.precedes base src x))) ∧
  ∀ (st : SourceState) (r : Occurrence), st.record = some r → r.detail.length ≤ 16 →
    st.noticePayload =
      [BitVec.ofNat 8 st.level, BitVec.ofNat 8 st.count, BitVec.ofNat 8 r.detail.length, r.serial.extractLsb' 24 8,
        r.serial.extractLsb' 16 8, r.serial.extractLsb' 8 8, r.serial.extractLsb' 0 8] ++
        r.detail ++ List.replicate (16 - r.detail.length) 0 ∧
    st.noticePayload.length = 23

/-- An occurrence of a source as the notice table takes it (R178): a disabled source records nothing; a pending one counts,
up to 255, and keeps its record; otherwise the source is pending with count 1, its sent flag clear, and its record holds the
serial and the detail, whose unstated bytes alone are free (log entry 1). No other source changes. NOTICE_CONFIG (R181),
NOTICE_MASK (R182) and NOTICE_CLEAR (R183), taken and refused: the table's settings, the mask, and for a clear the pending
flag, count, record and sent flag of each source that is named and pending. LNK and VOG then follow the table
(which sent flags a raised mask clears is the MODEL's reading: DESIGN CHOICE, log entry 55). A source
above 19, an enable flag above 1, a level or a mask above 3, routes beyond host, VF and tally, and a set that names a number
above 19 are refused BAD_VALUE, and nothing changes. -/
def Obligations.NoticeRequestsTaken : Prop :=
  (∀ (lnk : Lnk) (n : Serial) (src : Source) (detail : List (Option Byte)), lnk.table.length = 20 →
      let before := lnk.source src
      let after := lnk.occur n src detail
      (before.enabled = false → after = lnk) ∧
      (before.enabled = true → before.pending = true →
        after.source src = { before with count := min 255 (before.count + 1) }) ∧
      (before.enabled = true → before.pending = false →
        ∃ bytes, after.source src = { before with
            pending := true, count := 1, sent := false, record := some { detail := bytes, serial := n } } ∧
          bytes.length = detail.length ∧ ∀ (i : Nat) (b : Byte), detail[i]? = some (some b) → bytes[i]? = some b) ∧
      (∀ other, other ≠ src → after.source other = lnk.source other) ∧
      after.waiting = lnk.waiting ∧ after.sending = lnk.sending ∧ after.mask = lnk.mask) ∧
  (∀ (tag : Byte) (s : State), s.ready → s.lnk.table.length = 20 →
      let put := fun (table : List SourceState) => ({ s with lnk := { s.lnk with table := table } } : State)
      (∀ (src : Source) (on host vf tally : Bool) (level : Nat), level ≤ 3 →
        let st := s.lnk.source src
        let routes := packFlags [host, vf, tally]
        Answers (.noticeConfig tag (u8 src.number ++ flagByte on ++ u8 level ++ u8 routes)) .noticeConfig tag s
          (put (s.lnk.table.set src.number
            { st with enabled := on, level := level, routes := { host := host, vf := vf, tally := tally } })) .ok
          (flagByte on ++ u8 level ++ u8 routes ++ flagByte st.pending)) ∧
      (∀ m : Nat, m ≤ 3 →
        let count := (allSources.filter (fun src =>
          let st := s.lnk.source src
          st.pending && st.enabled && st.routes.host && decide (m < st.level))).length
        Answers (.noticeMask tag (u8 m)) .noticeMask tag s { s with lnk := { s.lnk with mask := m } } .ok (u8 m ++ u8 count)) ∧
      (∀ set : Nat, set < 1048576 →
        let cleared := fun (i : Nat) (st : SourceState) => set.testBit i && st.pending
        Answers (.noticeClear tag (u32 set)) .noticeClear tag s
          (put (s.lnk.table.mapIdx (fun i st =>
            if cleared i st then { st with pending := false, count := 0, record := none, sent := false } else st))) .ok
          (u32 ((s.lnk.table.mapIdx (fun i st => if cleared i st then 2 ^ i else 0)).sum)))) ∧
  (∀ (tag : Byte) (s : State), s.ready →
      (∀ source on level routes : Nat, source ≤ 255 → on ≤ 255 → level ≤ 255 → routes ≤ 255 →
        19 < source ∨ 1 < on ∨ 3 < level ∨ 7 < routes →
        Answers (.noticeConfig tag (u8 source ++ u8 on ++ u8 level ++ u8 routes)) .noticeConfig tag s s .badValue []) ∧
      (∀ m : Nat, 3 < m → m ≤ 255 → Answers (.noticeMask tag (u8 m)) .noticeMask tag s s .badValue []) ∧
      ∀ set : Nat, set < 4294967296 → (∃ i, 19 < i ∧ set.testBit i = true) →
        Answers (.noticeClear tag (u32 set)) .noticeClear tag s s .badValue [])

/-- ATTN (R180). At the end of every command that acts, and so at once on every occurrence, clear, configuration change and
mask change, the line is asserted exactly while a source is pending, enabled, routed to host and above the mask; the sent
flag plays no part. During a reset the line is released; at its end PART_STARTED is pending, enabled, routed to host at
level 3 and the mask is 0, so the line is asserted. -/
def Obligations.AttnFollows : Prop :=
  (∀ (c : Instr) (s t : State), exec c s = .next t →
    (s.works ∧ ∀ p q a b, c ≠ .resetEnd p q a b) ∨ c = .powerOnReset ∨
      (¬ s.works ∧ ∃ p q a b, c = .resetEnd p q a b) →
    (t.lnk.attn = true ↔ ∃ src, (t.lnk.source src).pending = true ∧ (t.lnk.source src).enabled = true ∧
      (t.lnk.source src).routes.host = true ∧ t.lnk.mask < (t.lnk.source src).level) ∧
    (t.pwc.resetting.isSome = true → t.lnk.attn = false)) ∧
  ∀ (s t : State) (p q a b : Bool), ¬ s.works → exec (.resetEnd p q a b) s = .next t →
    t.lnk.attn = true ∧ t.lnk.mask = 0 ∧ (t.lnk.source .partStarted).pending = true ∧
      (t.lnk.source .partStarted).enabled = true ∧ (t.lnk.source .partStarted).routes.host = true ∧
      (t.lnk.source .partStarted).level = 3

/-- The notice messages follow the table at the end of every command that acts (R179): each waiting notice message is
that of a source that qualifies; a qualifying source whose sent flag is clear finds no place; and while a message waits,
one is being sent. A sent flag that a command sets has its source's message in the outbound queue, waiting or being
sent, and a message that leaves the queue unsent leaves its source's sent flag clear. What `Lnk.follow` does to the
table and the queue: the waiting messages of sources that qualify no longer are withdrawn and their sent flags cleared;
of the qualifying sources whose sent flags are clear, in the arbiter's order, the first ones join, their sent flags set,
one left over only when no place is free; every other sent flag stands (that of an excluded source with no message
waiting too: DESIGN CHOICE, log entry 55); then the line begins a message when it is idle. TALLY (R169) and the alert
line (R167) at the end of every command that acts: the lamp is dark in STANDBY and with VOG disabled, else blinking
while a source is pending, enabled and routed to tally, else lit while the Recorder is RECORDING or CLOSING, else dark.
While VOG works, its rotation is that of the table, and an alert shown stands in it. The rotation of the table (R166) is
the first eight, or all if fewer, of the sources that are pending, enabled and routed to the viewfinder, each once, by
level descending, first occurrence oldest first (where the first occurrences lie within half the range of serials; log
entry 35 has the others), and source number ascending. An alert shown that the rotation holds stays shown with its dwell
count (not asked in STANDBY: DESIGN CHOICE, log entry 5); for one that a NOTICE_CONFIG, NOTICE_MASK or NOTICE_CLEAR
takes out of it, or any other change that `Vog.follow` is given, the first source that followed it before the change and
is still there is shown, or else the first of the rotation, or none, and the dwell count is 0. -/
def Obligations.ReadersFollow : Prop :=
  let acts := fun (c : Instr) (s : State) =>
    (s.works ∧ ∀ p q a b, c ≠ .resetEnd p q a b) ∨ c = .powerOnReset ∨ (¬ s.works ∧ ∃ p q a b, c = .resetEnd p q a b)
  let follows := fun (before after : Vog) (rotation : List Source) =>
    after.rotation = rotation ∧
    (before.shown = none → after.shown = none ∧ after.dwell = before.dwell) ∧
    ∀ x, before.shown = some x →
      (x ∈ rotation → after.shown = some x ∧ after.dwell = before.dwell) ∧
      (x ∉ rotation → after.dwell = 0 ∧
        ∀ front back, before.rotation = front ++ x :: back → x ∉ front →
          let stays := back.filter (fun y => rotation.contains y)
          (∀ y rest, stays = y :: rest → after.shown = some y) ∧ (stays = [] → after.shown = rotation.head?))
  (∀ (c : Instr) (s t : State), exec c s = .next t → acts c s →
      (∀ src, OutMsg.notice src ∈ t.lnk.waiting → t.lnk.calls src) ∧
      (∀ src, t.lnk.calls src → (t.lnk.source src).sent = false → 16 ≤ t.lnk.places ∨ 12 ≤ t.lnk.noticePlaces) ∧
      (t.lnk.waiting ≠ [] → t.lnk.sending.isSome = true)) ∧
  (∀ (c : Instr) (s t : State), exec c s = .next t → ∀ src, (t.lnk.source src).sent = true →
      (s.lnk.source src).sent = false ∨ OutMsg.notice src ∈ s.lnk.waiting → t.lnk.holds src) ∧
  (∀ lnk : Lnk, lnk.table.length = 20 →
      let after := lnk.follow
      let stands := fun (m : OutMsg) => match m with
        | .reply _ _ _ => true
        | .notice src => decide (lnk.calls src)
      ∃ joined left,
        lnk.Lists (fun src => lnk.calls src ∧ (lnk.source src).sent = false) (joined ++ left) ∧
        (left ≠ [] → 16 ≤ after.places ∨ 12 ≤ after.noticePlaces) ∧
        (∀ src, after.source src = { lnk.source src with
          sent := if src ∈ joined then true
            else if OutMsg.notice src ∈ lnk.waiting ∧ ¬ lnk.calls src then false
            else (lnk.source src).sent }) ∧
        let queue : Lnk := { lnk with waiting := lnk.waiting.filter stands ++ joined.map OutMsg.notice }
        after.waiting = queue.transmit.waiting ∧ after.sending = queue.transmit.sending) ∧
  (∀ (c : Instr) (s t : State), exec c s = .next t → acts c s →
      let calls := fun (src : Source) (route : Routes → Bool) =>
        (t.lnk.source src).pending = true ∧ (t.lnk.source src).enabled = true ∧ route (t.lnk.source src).routes = true
      let vogWorks := t.pwc.inRun = true ∧ t.pwc.enables.vog = true
      (¬ vogWorks → t.vog.tally = .dark) ∧
      (vogWorks → (∃ src, calls src Routes.tally) → t.vog.tally = .blinking) ∧
      (vogWorks → (¬ ∃ src, calls src Routes.tally) →
        (t.rcd.state = .recording ∨ t.rcd.state = .closing → t.vog.tally = .lit) ∧
        (t.rcd.state = .standing ∨ t.rcd.state = .retaining → t.vog.tally = .dark)) ∧
      (vogWorks → t.vog.rotation = t.lnk.rotation ∧ ∀ src, t.vog.shown = some src → src ∈ t.lnk.rotation)) ∧
  (∀ lnk : Lnk, ∃ others, lnk.Lists lnk.alarms (lnk.rotation ++ others) ∧ lnk.rotation.length ≤ 8 ∧
      (others ≠ [] → lnk.rotation.length = 8)) ∧
  (∀ (c : Instr) (tag : Byte) (payload : List Byte) (s t : State), exec c s = .next t → s.ready →
      c = .noticeConfig tag payload ∨ c = .noticeMask tag payload ∨ c = .noticeClear tag payload →
      s.pwc.inRun = true → s.pwc.enables.vog = true → follows s.vog t.vog t.lnk.rotation) ∧
  ∀ (vog : Vog) (rotation : List Source), follows vog (vog.follow rotation) rotation

/-- The eight queries and CATALOGUE_READ (R24, R44, R67, R84, R109, R132, R153, R154, R184): each is answered OK with what
it reads, and changes nothing but, with its clear flag set, the counts it reads, which are 0 after. A clear flag that is no
flag is refused BAD_VALUE, as are a first entry, a count or an end out of the catalogue's 999; CATALOGUE_READ is refused
BUSY while the slot mounts or formats, NO_CARD of an ABSENT or EJECTED one and BAD_STATE of an UNFORMATTED one or without a
summary. The layouts of the replies are the MODEL's choice (DESIGN CHOICE, log entry 15), and so are what CARD_QUERY shows
of a full chunk and a closed extent (log entry 42) and that CATALOGUE_READ's fields are judged before the slot's state (log
entry 17); that a slot in FAULT shows on-card an entry whose write was discarded is DEDUCED (log entry 47). -/
def Obligations.QueriesAnswer : Prop :=
  (∀ (tag : Byte) (clear : Bool) (s : State), s.ready →
    let or := fun (cleared : State) => if clear then cleared else s
    let flag := flagByte clear
    Answers (.timeQuery tag flag) .timeQuery tag s
      (or { s with ftb := { s.ftb with runts := 0, substituted := 0 } }) .ok s.ftb.queryReply ∧
    (s.pwc.enables.lnc = true →
      Answers (.lensQuery tag flag) .lensQuery tag s (or { s with lnc := { s.lnc with totalMisses := 0 } }) .ok s.lensReply) ∧
    (s.pwc.enables.stb = true →
      Answers (.stabQuery tag flag) .stabQuery tag s
        (or { s with stb := { s.stb with badSamples := 0, rejectedSets := 0, droppedSets := 0, droppedResults := 0 } }) .ok
        s.stb.queryReply) ∧
    (s.pwc.enables.aud = true →
      let channel := fun (c : Channel) => { c with overs := 0 }
      let pair := fun (p : Pair) =>
        { p with slips := 0, paddedTotal := 0, droppedTotal := 0, first := channel p.first, second := channel p.second }
      let a := s.aud.pairs.a
      let b := s.aud.pairs.b
      Answers (.audioQuery tag flag) .audioQuery tag s (or { s with aud := { pairs := { a := pair a, b := pair b } } }) .ok
        (a.reply ++ b.reply ++ a.first.reply ++ a.second.reply ++ b.first.reply ++ b.second.reply)) ∧
    Answers (.bufferQuery tag flag) .bufferQuery tag s (or { s with bfm := { s.bfm with counts := .zero } }) .ok
      s.bfm.queryReply ∧
    Answers (.recQuery tag flag) .recQuery tag s (or { s with rcd := { s.rcd with endings := .zero } }) .ok
      s.rcd.queryReply ∧
    Answers (.noticeQuery tag flag) .noticeQuery tag s (or { s with lnk := { s.lnk with counts := .zero } }) .ok
      s.lnk.queryReply ∧
    ∀ side : Side, s.pwc.enables.slots.get side = true →
      let c := s.slot side
      Answers (.cardQuery tag (u8 side.code ++ flag)) .cardQuery tag s
        (or (s.setSlot side { c with completed := 0, errors := 0, timeouts := 0, recovered := 0 })) .ok
        (c.queryReply s.ftb.rate.nominal) ∧
      ∀ (sum : Summary) (first count : Nat), c.summary = some sum → 1 ≤ first → 1 ≤ count → count ≤ 8 → first + count ≤ 1000 →
        c.state = .ready ∨ c.state = .full ∨ c.state = .writeProtected ∨ c.state = .recovering ∨ c.state = .fault →
        Answers (.catalogueRead tag (u8 side.code ++ u16 first ++ u8 count)) .catalogueRead tag s s .ok
          (c.catalogueReply sum first count)) ∧
  ∀ (tag : Byte) (s : State), s.ready →
    (∀ x : Byte, 1 < x.toNat →
      Answers (.timeQuery tag [x]) .timeQuery tag s s .badValue [] ∧
      (s.pwc.enables.lnc = true → Answers (.lensQuery tag [x]) .lensQuery tag s s .badValue []) ∧
      (s.pwc.enables.stb = true → Answers (.stabQuery tag [x]) .stabQuery tag s s .badValue []) ∧
      (s.pwc.enables.aud = true → Answers (.audioQuery tag [x]) .audioQuery tag s s .badValue []) ∧
      Answers (.bufferQuery tag [x]) .bufferQuery tag s s .badValue [] ∧
      Answers (.recQuery tag [x]) .recQuery tag s s .badValue [] ∧
      Answers (.noticeQuery tag [x]) .noticeQuery tag s s .badValue [] ∧
      ∀ side : Side, s.pwc.enables.slots.get side = true →
        Answers (.cardQuery tag (u8 side.code ++ [x])) .cardQuery tag s s .badValue []) ∧
    ∀ (side : Side) (first count : Nat), s.pwc.enables.slots.get side = true → first ≤ 65535 → count ≤ 255 →
      let c := s.slot side
      let refused := fun (status : Status) =>
        Answers (.catalogueRead tag (u8 side.code ++ u16 first ++ u8 count)) .catalogueRead tag s s status []
      let good := 1 ≤ first ∧ 1 ≤ count ∧ count ≤ 8 ∧ first + count ≤ 1000
      (¬ good → refused .badValue) ∧
      (good →
        (c.state = .mounting ∨ c.state = .formatting → refused .busy) ∧
        (c.state = .absent ∨ c.state = .ejected → refused .noCard) ∧
        (c.state = .unformatted → refused .badState) ∧
        (c.state = .ready ∨ c.state = .full ∨ c.state = .writeProtected ∨ c.state = .recovering ∨ c.state = .fault →
          c.summary = none → refused .badState))

/-! ## Power -/

/-- The run state (R186, R188, R192). POWER_STANDBY is taken with the Recorder STANDING, nothing queued or in flight for
a card and no slot MOUNTING, RECOVERING or FORMATTING, and refused BAD_STATE otherwise; each block halts as its chapter
gives: every move ends HALTED, in the order zoom, focus, iris, so that the first one's detail stands (the MODEL's
choice: DESIGN CHOICE, log entry 39), and BFM is cleared, the order in which its pages return being the MODEL's choice
too (DESIGN CHOICE, log entry 41). A substituted start that is due at once, e having reached N before the entry, is not
made in this step (DESIGN CHOICE, log entry 53), and e goes on from where it stands, from the absorbed edge where one
restarted it (DESIGN CHOICE, log entry 56). POWER_RUN and a press on the REC line return the part to RUN, where the
routed pairs start afresh as `FrameConfigTaken` says, pending settings staying pending (DESIGN CHOICE, log entry 54),
and an alert shown that left the rotation in STANDBY and came back stays shown with its dwell count (DESIGN CHOICE, log
entry 5). A change of the run state occurs as POWER_STATE; in the state asked for the request changes nothing. Both
answer the part status. -/
def Obligations.RunStateChanges : Prop :=
  ∀ (tag : Byte) (s : State),
    let status := fun (u : State) =>
      u8 (if u.pwc.inRun then 0 else 1) ++ flagByte u.pwc.enables.lnc ++ flagByte u.pwc.enables.stb ++
        flagByte u.pwc.enables.aud ++ flagByte u.pwc.enables.vog ++ flagByte u.pwc.enables.slots.a ++
        flagByte u.pwc.enables.slots.b ++ u8 u.pwc.lastReset.code ++ u8 u.pwc.lastRunChange.code ++ u16 u.vog.droppedRecords
    let isQuiet := fun (c : CardSlot) =>
      c.queue = [] ∧ c.inFlight = none ∧ c.state ≠ .mounting ∧ c.state ≠ .recovering ∧ c.state ≠ .formatting
    let may := s.rcd.state = .standing ∧ isQuiet s.slots.a ∧ isQuiet s.slots.b
    let late := fun (fs : List FrameStart) => fs.map (fun f => { f with inRun := false })
    let halted := s.endMoves .halted
    let idle := fun (v : Servo) => { v with mode := .idle }
    let lnc := { halted.lnc with zoom := idle halted.lnc.zoom, focus := idle halted.lnc.focus, window := none }
    let still := fun (a : StabAxis) => { a with sum := 0 }
    let stood := ({ halted with
      pwc := { s.pwc with inRun := false, lastRunChange := .request }
      ftb := { s.ftb with state := .standby }
      lnc := lnc
      stb := { s.stb with
        x := still s.stb.x, y := still s.stb.y, samples := 0, reading := false, correlating := false, older := none
        newer := none, waiting := none, result := s.stb.result.map (fun r => { r with used := true }) }
      bfm := s.bfm.clearAll
      vog := { s.vog with waiting := none }
      due := { lnc := late s.due.lnc, stb := late s.due.stb, aud := late s.due.aud, bfm := late s.due.bfm
               rcd := late s.due.rcd, vog := late s.due.vog } } : State).report .powerState
        (u8 1 ++ u8 0 ++ serialBytes s.ftb.serial)
    let wakes := fun (c : CardSlot) =>
      if c.deferred then
        { c with
          state := .mounting, deferred := false, summary := none, mounted := [], reading := some .size, recovery := none
          rebuilt := 0, nearFull := false }
      else c
    let returned := fun (cause : RunCause) => ({ s with
      pwc := { s.pwc with inRun := true, lastRunChange := cause }
      ftb := { s.ftb with state := .acquire }
      stb := if s.stb.state = .off ∨ s.stb.state = .returning then s.stb else { s.stb with state := .settling, settle := 8 }
      aud := s.aud.restart
      slots := { a := wakes s.slots.a, b := wakes s.slots.b } } : State).report .powerState
        (u8 0 ++ u8 cause.code ++ serialBytes s.ftb.serial)
    (s.ready → s.pwc.inRun = true →
      (may → Answers (.powerStandby tag []) .powerStandby tag s stood .ok (status stood)) ∧
      (¬ may → Answers (.powerStandby tag []) .powerStandby tag s s .badState []) ∧
      Answers (.powerRun tag []) .powerRun tag s s .ok (status s)) ∧
    (s.ready → s.pwc.inRun = false →
      Answers (.powerStandby tag []) .powerStandby tag s s .ok (status s) ∧
      Answers (.powerRun tag []) .powerRun tag s (returned .request) .ok (status (returned .request))) ∧
    (s.works → s.pwc.inRun = false → Becomes .recLinePress s (returned .recLine))

/-- BLOCK_ENABLE (R189, R190, R156) and PART_RESET (R191), taken. Each block whose flag changes takes the values of its
chapter: LNC keeps its two reports when it is disabled and starts from the power-on values when it is enabled (R46,
R190; by the MODEL's reading, log entry 13); a slot with a card is mounted, or deferred in STANDBY; AUD, when it is
disabled in RUN, hands its absence marks over, pair A's first (DESIGN CHOICE, log entry 40). That it does so in RUN
only, after the other blocks' changes, is DEDUCED (log entry 29), and so is that an enabled block does no work at a
frame start outstanding then: LNC, AUD and VOG have none left, and STB will send for each the record of a disabled block
(R65, log entry 33). A request that would disable a target of the clip is refused BAD_STATE, one with a flag out of
range BAD_VALUE, whatever its other flags ask (DESIGN CHOICE, log entry 17). PART_RESET only answers: the reset begins
when the reply has been sent. -/
def Obligations.EnablesAndReset : Prop :=
  ∀ (tag : Byte) (s : State), s.ready →
    (∀ lnc stb aud vog a b : Bool, (a = false → s.isTarget .a = false) → (b = false → s.isTarget .b = false) →
      let e := s.pwc.enables
      let slot := fun (c : CardSlot) (was on : Bool) =>
        if on = was then c
        else
          let fresh := { CardSlot.afterReset with present := c.present, protectOn := c.protectOn }
          if !on then { fresh with state := .off }
          else if !c.present then fresh
          else if s.pwc.inRun then { fresh with state := .mounting, reading := some .size }
          else { fresh with deferred := true }
      let u : State := { s with
        pwc := { s.pwc with enables := { lnc := lnc, stb := stb, aud := e.aud, vog := vog, slots := { a := a, b := b } } }
        lnc := if lnc = e.lnc then s.lnc
          else if lnc then .afterReset
          else .resetKeeping s.lnc.latest s.lnc.previous s.lnc.reported
        stb := if stb = e.stb then s.stb else .afterReset
        vog := if vog = e.vog then s.vog else .afterReset
        slots := { a := slot s.slots.a e.slots.a a, b := slot s.slots.b e.slots.b b }
        due := { s.due with
          lnc := if lnc && !e.lnc then [] else s.due.lnc
          stb := if stb && !e.stb then s.due.stb.map (fun f => { f with stbOff := true }) else s.due.stb
          vog := if vog && !e.vog then [] else s.due.vog } }
      let v := if e.aud && !aud && s.pwc.inRun then u.handOverOff else u
      let w : State := { v with
        pwc := { v.pwc with enables := { v.pwc.enables with aud := aud } }
        aud := if aud = e.aud then v.aud else .afterReset
        due := if aud && !e.aud then { v.due with aud := [] } else v.due }
      Answers (.blockEnable tag (flagByte lnc ++ flagByte stb ++ flagByte aud ++ flagByte vog ++ flagByte a ++ flagByte b))
        .blockEnable tag s w .ok w.partStatus) ∧
    (∀ lnc stb aud vog a b : Byte, (∃ x ∈ [lnc, stb, aud, vog, a, b], 1 < x.toNat) →
      Answers (.blockEnable tag [lnc, stb, aud, vog, a, b]) .blockEnable tag s s .badValue []) ∧
    (∀ s : State, s.handOverOff =
      ((s.takeHandOver s.ftb.serial .a (.absence .off)).takeHandOver s.ftb.serial .b (.absence .off)).review) ∧
    (∀ lnc stb aud vog a b : Bool, (a = false ∧ s.isTarget .a = true) ∨ (b = false ∧ s.isTarget .b = true) →
      Answers (.blockEnable tag (flagByte lnc ++ flagByte stb ++ flagByte aud ++ flagByte vog ++ flagByte a ++ flagByte b))
        .blockEnable tag s s .badState []) ∧
    Answers (.partReset tag []) .partReset tag s { s with lnk := { s.lnk with resetTaken := true } } .ok []
end

