-- ==== Sys2Proof/Laws/State.lean ====
section
/-! SUPPORT. One lemma per field per update of State, true by unfolding alone, so that no later proof unfolds an update; and what
cycles within the span of the substitution timer do. -/

namespace Sys2Proof.Machine

@[simp] theorem Two.get_set_same {α : Type} (t : Two α) (side : Side) (x : α) : (t.set side x).get side = x := by
  cases side <;> rfl

@[simp] theorem Two.get_set_other {α : Type} (t : Two α) (side : Side) (x : α) :
    (t.set side x).get side.other = t.get side.other := by
  cases side <;> rfl

@[simp] theorem State.slot_setSlot_same (s : State) (side : Side) (c : CardSlot) : (s.setSlot side c).slot side = c := by
  cases side <;> rfl

@[simp] theorem State.slot_setSlot_other (s : State) (side : Side) (c : CardSlot) :
    (s.setSlot side c).slot side.other = s.slot side.other := by
  cases side <;> rfl

@[simp] theorem State.setSlot_slot (s : State) (side : Side) : s.setSlot side (s.slot side) = s := by
  cases side <;> rfl

theorem State.modifySlot_eq (s : State) (side : Side) (f : CardSlot → CardSlot) :
    s.modifySlot side f = s.setSlot side (f (s.slot side)) := rfl

@[simp] theorem State.slot_modifySlot_same (s : State) (side : Side) (f : CardSlot → CardSlot) :
    (s.modifySlot side f).slot side = f (s.slot side) := by rw [State.modifySlot_eq, State.slot_setSlot_same]

@[simp] theorem State.slot_report (s : State) (src : Source) (detail : List Byte) (side : Side) :
    (s.report src detail).slot side = s.slot side := rfl

/-! ## One slot is replaced -/

@[simp] theorem State.setSlot_pending (s : State) (side : Side) (c : CardSlot) : (s.setSlot side c).pending = s.pending := rfl
@[simp] theorem State.setSlot_ftb (s : State) (side : Side) (c : CardSlot) : (s.setSlot side c).ftb = s.ftb := rfl
@[simp] theorem State.setSlot_lnc (s : State) (side : Side) (c : CardSlot) : (s.setSlot side c).lnc = s.lnc := rfl
@[simp] theorem State.setSlot_stb (s : State) (side : Side) (c : CardSlot) : (s.setSlot side c).stb = s.stb := rfl
@[simp] theorem State.setSlot_aud (s : State) (side : Side) (c : CardSlot) : (s.setSlot side c).aud = s.aud := rfl
@[simp] theorem State.setSlot_bfm (s : State) (side : Side) (c : CardSlot) : (s.setSlot side c).bfm = s.bfm := rfl
@[simp] theorem State.setSlot_mem (s : State) (side : Side) (c : CardSlot) : (s.setSlot side c).mem = s.mem := rfl
@[simp] theorem State.setSlot_rcd (s : State) (side : Side) (c : CardSlot) : (s.setSlot side c).rcd = s.rcd := rfl
@[simp] theorem State.setSlot_slots (s : State) (side : Side) (c : CardSlot) : (s.setSlot side c).slots = s.slots.set side c := rfl
@[simp] theorem State.setSlot_vog (s : State) (side : Side) (c : CardSlot) : (s.setSlot side c).vog = s.vog := rfl
@[simp] theorem State.setSlot_lnk (s : State) (side : Side) (c : CardSlot) : (s.setSlot side c).lnk = s.lnk := rfl
@[simp] theorem State.setSlot_pwc (s : State) (side : Side) (c : CardSlot) : (s.setSlot side c).pwc = s.pwc := rfl
@[simp] theorem State.setSlot_due (s : State) (side : Side) (c : CardSlot) : (s.setSlot side c).due = s.due := rfl

/-! ## One slot is changed -/

@[simp] theorem State.modifySlot_pending (s : State) (side : Side) (f : CardSlot → CardSlot) : (s.modifySlot side f).pending = s.pending := rfl
@[simp] theorem State.modifySlot_ftb (s : State) (side : Side) (f : CardSlot → CardSlot) : (s.modifySlot side f).ftb = s.ftb := rfl
@[simp] theorem State.modifySlot_lnc (s : State) (side : Side) (f : CardSlot → CardSlot) : (s.modifySlot side f).lnc = s.lnc := rfl
@[simp] theorem State.modifySlot_stb (s : State) (side : Side) (f : CardSlot → CardSlot) : (s.modifySlot side f).stb = s.stb := rfl
@[simp] theorem State.modifySlot_aud (s : State) (side : Side) (f : CardSlot → CardSlot) : (s.modifySlot side f).aud = s.aud := rfl
@[simp] theorem State.modifySlot_bfm (s : State) (side : Side) (f : CardSlot → CardSlot) : (s.modifySlot side f).bfm = s.bfm := rfl
@[simp] theorem State.modifySlot_mem (s : State) (side : Side) (f : CardSlot → CardSlot) : (s.modifySlot side f).mem = s.mem := rfl
@[simp] theorem State.modifySlot_rcd (s : State) (side : Side) (f : CardSlot → CardSlot) : (s.modifySlot side f).rcd = s.rcd := rfl
@[simp] theorem State.modifySlot_slots (s : State) (side : Side) (f : CardSlot → CardSlot) : (s.modifySlot side f).slots = s.slots.set side (f (s.slots.get side)) := rfl
@[simp] theorem State.modifySlot_vog (s : State) (side : Side) (f : CardSlot → CardSlot) : (s.modifySlot side f).vog = s.vog := rfl
@[simp] theorem State.modifySlot_lnk (s : State) (side : Side) (f : CardSlot → CardSlot) : (s.modifySlot side f).lnk = s.lnk := rfl
@[simp] theorem State.modifySlot_pwc (s : State) (side : Side) (f : CardSlot → CardSlot) : (s.modifySlot side f).pwc = s.pwc := rfl
@[simp] theorem State.modifySlot_due (s : State) (side : Side) (f : CardSlot → CardSlot) : (s.modifySlot side f).due = s.due := rfl

/-! ## LNK is changed -/

@[simp] theorem State.modifyLnk_pending (s : State) (f : Lnk → Lnk) : (s.modifyLnk f).pending = s.pending := rfl
@[simp] theorem State.modifyLnk_ftb (s : State) (f : Lnk → Lnk) : (s.modifyLnk f).ftb = s.ftb := rfl
@[simp] theorem State.modifyLnk_lnc (s : State) (f : Lnk → Lnk) : (s.modifyLnk f).lnc = s.lnc := rfl
@[simp] theorem State.modifyLnk_stb (s : State) (f : Lnk → Lnk) : (s.modifyLnk f).stb = s.stb := rfl
@[simp] theorem State.modifyLnk_aud (s : State) (f : Lnk → Lnk) : (s.modifyLnk f).aud = s.aud := rfl
@[simp] theorem State.modifyLnk_bfm (s : State) (f : Lnk → Lnk) : (s.modifyLnk f).bfm = s.bfm := rfl
@[simp] theorem State.modifyLnk_mem (s : State) (f : Lnk → Lnk) : (s.modifyLnk f).mem = s.mem := rfl
@[simp] theorem State.modifyLnk_rcd (s : State) (f : Lnk → Lnk) : (s.modifyLnk f).rcd = s.rcd := rfl
@[simp] theorem State.modifyLnk_slots (s : State) (f : Lnk → Lnk) : (s.modifyLnk f).slots = s.slots := rfl
@[simp] theorem State.modifyLnk_vog (s : State) (f : Lnk → Lnk) : (s.modifyLnk f).vog = s.vog := rfl
@[simp] theorem State.modifyLnk_lnk (s : State) (f : Lnk → Lnk) : (s.modifyLnk f).lnk = f s.lnk := rfl
@[simp] theorem State.modifyLnk_pwc (s : State) (f : Lnk → Lnk) : (s.modifyLnk f).pwc = s.pwc := rfl
@[simp] theorem State.modifyLnk_due (s : State) (f : Lnk → Lnk) : (s.modifyLnk f).due = s.due := rfl

/-! ## LNC is changed -/

@[simp] theorem State.modifyLnc_pending (s : State) (f : Lnc → Lnc) : (s.modifyLnc f).pending = s.pending := rfl
@[simp] theorem State.modifyLnc_ftb (s : State) (f : Lnc → Lnc) : (s.modifyLnc f).ftb = s.ftb := rfl
@[simp] theorem State.modifyLnc_lnc (s : State) (f : Lnc → Lnc) : (s.modifyLnc f).lnc = f s.lnc := rfl
@[simp] theorem State.modifyLnc_stb (s : State) (f : Lnc → Lnc) : (s.modifyLnc f).stb = s.stb := rfl
@[simp] theorem State.modifyLnc_aud (s : State) (f : Lnc → Lnc) : (s.modifyLnc f).aud = s.aud := rfl
@[simp] theorem State.modifyLnc_bfm (s : State) (f : Lnc → Lnc) : (s.modifyLnc f).bfm = s.bfm := rfl
@[simp] theorem State.modifyLnc_mem (s : State) (f : Lnc → Lnc) : (s.modifyLnc f).mem = s.mem := rfl
@[simp] theorem State.modifyLnc_rcd (s : State) (f : Lnc → Lnc) : (s.modifyLnc f).rcd = s.rcd := rfl
@[simp] theorem State.modifyLnc_slots (s : State) (f : Lnc → Lnc) : (s.modifyLnc f).slots = s.slots := rfl
@[simp] theorem State.modifyLnc_vog (s : State) (f : Lnc → Lnc) : (s.modifyLnc f).vog = s.vog := rfl
@[simp] theorem State.modifyLnc_lnk (s : State) (f : Lnc → Lnc) : (s.modifyLnc f).lnk = s.lnk := rfl
@[simp] theorem State.modifyLnc_pwc (s : State) (f : Lnc → Lnc) : (s.modifyLnc f).pwc = s.pwc := rfl
@[simp] theorem State.modifyLnc_due (s : State) (f : Lnc → Lnc) : (s.modifyLnc f).due = s.due := rfl

/-! ## STB is changed -/

@[simp] theorem State.modifyStb_pending (s : State) (f : Stb → Stb) : (s.modifyStb f).pending = s.pending := rfl
@[simp] theorem State.modifyStb_ftb (s : State) (f : Stb → Stb) : (s.modifyStb f).ftb = s.ftb := rfl
@[simp] theorem State.modifyStb_lnc (s : State) (f : Stb → Stb) : (s.modifyStb f).lnc = s.lnc := rfl
@[simp] theorem State.modifyStb_stb (s : State) (f : Stb → Stb) : (s.modifyStb f).stb = f s.stb := rfl
@[simp] theorem State.modifyStb_aud (s : State) (f : Stb → Stb) : (s.modifyStb f).aud = s.aud := rfl
@[simp] theorem State.modifyStb_bfm (s : State) (f : Stb → Stb) : (s.modifyStb f).bfm = s.bfm := rfl
@[simp] theorem State.modifyStb_mem (s : State) (f : Stb → Stb) : (s.modifyStb f).mem = s.mem := rfl
@[simp] theorem State.modifyStb_rcd (s : State) (f : Stb → Stb) : (s.modifyStb f).rcd = s.rcd := rfl
@[simp] theorem State.modifyStb_slots (s : State) (f : Stb → Stb) : (s.modifyStb f).slots = s.slots := rfl
@[simp] theorem State.modifyStb_vog (s : State) (f : Stb → Stb) : (s.modifyStb f).vog = s.vog := rfl
@[simp] theorem State.modifyStb_lnk (s : State) (f : Stb → Stb) : (s.modifyStb f).lnk = s.lnk := rfl
@[simp] theorem State.modifyStb_pwc (s : State) (f : Stb → Stb) : (s.modifyStb f).pwc = s.pwc := rfl
@[simp] theorem State.modifyStb_due (s : State) (f : Stb → Stb) : (s.modifyStb f).due = s.due := rfl

/-! ## BFM is changed -/

@[simp] theorem State.modifyBfm_pending (s : State) (f : Bfm → Bfm) : (s.modifyBfm f).pending = s.pending := rfl
@[simp] theorem State.modifyBfm_ftb (s : State) (f : Bfm → Bfm) : (s.modifyBfm f).ftb = s.ftb := rfl
@[simp] theorem State.modifyBfm_lnc (s : State) (f : Bfm → Bfm) : (s.modifyBfm f).lnc = s.lnc := rfl
@[simp] theorem State.modifyBfm_stb (s : State) (f : Bfm → Bfm) : (s.modifyBfm f).stb = s.stb := rfl
@[simp] theorem State.modifyBfm_aud (s : State) (f : Bfm → Bfm) : (s.modifyBfm f).aud = s.aud := rfl
@[simp] theorem State.modifyBfm_bfm (s : State) (f : Bfm → Bfm) : (s.modifyBfm f).bfm = f s.bfm := rfl
@[simp] theorem State.modifyBfm_mem (s : State) (f : Bfm → Bfm) : (s.modifyBfm f).mem = s.mem := rfl
@[simp] theorem State.modifyBfm_rcd (s : State) (f : Bfm → Bfm) : (s.modifyBfm f).rcd = s.rcd := rfl
@[simp] theorem State.modifyBfm_slots (s : State) (f : Bfm → Bfm) : (s.modifyBfm f).slots = s.slots := rfl
@[simp] theorem State.modifyBfm_vog (s : State) (f : Bfm → Bfm) : (s.modifyBfm f).vog = s.vog := rfl
@[simp] theorem State.modifyBfm_lnk (s : State) (f : Bfm → Bfm) : (s.modifyBfm f).lnk = s.lnk := rfl
@[simp] theorem State.modifyBfm_pwc (s : State) (f : Bfm → Bfm) : (s.modifyBfm f).pwc = s.pwc := rfl
@[simp] theorem State.modifyBfm_due (s : State) (f : Bfm → Bfm) : (s.modifyBfm f).due = s.due := rfl

/-! ## PWC is changed -/

@[simp] theorem State.modifyPwc_pending (s : State) (f : Pwc → Pwc) : (s.modifyPwc f).pending = s.pending := rfl
@[simp] theorem State.modifyPwc_ftb (s : State) (f : Pwc → Pwc) : (s.modifyPwc f).ftb = s.ftb := rfl
@[simp] theorem State.modifyPwc_lnc (s : State) (f : Pwc → Pwc) : (s.modifyPwc f).lnc = s.lnc := rfl
@[simp] theorem State.modifyPwc_stb (s : State) (f : Pwc → Pwc) : (s.modifyPwc f).stb = s.stb := rfl
@[simp] theorem State.modifyPwc_aud (s : State) (f : Pwc → Pwc) : (s.modifyPwc f).aud = s.aud := rfl
@[simp] theorem State.modifyPwc_bfm (s : State) (f : Pwc → Pwc) : (s.modifyPwc f).bfm = s.bfm := rfl
@[simp] theorem State.modifyPwc_mem (s : State) (f : Pwc → Pwc) : (s.modifyPwc f).mem = s.mem := rfl
@[simp] theorem State.modifyPwc_rcd (s : State) (f : Pwc → Pwc) : (s.modifyPwc f).rcd = s.rcd := rfl
@[simp] theorem State.modifyPwc_slots (s : State) (f : Pwc → Pwc) : (s.modifyPwc f).slots = s.slots := rfl
@[simp] theorem State.modifyPwc_vog (s : State) (f : Pwc → Pwc) : (s.modifyPwc f).vog = s.vog := rfl
@[simp] theorem State.modifyPwc_lnk (s : State) (f : Pwc → Pwc) : (s.modifyPwc f).lnk = s.lnk := rfl
@[simp] theorem State.modifyPwc_pwc (s : State) (f : Pwc → Pwc) : (s.modifyPwc f).pwc = f s.pwc := rfl
@[simp] theorem State.modifyPwc_due (s : State) (f : Pwc → Pwc) : (s.modifyPwc f).due = s.due := rfl

/-! ## The clip record is changed -/

@[simp] theorem State.modifyClip_pending (s : State) (f : Clip → Clip) : (s.modifyClip f).pending = s.pending := rfl
@[simp] theorem State.modifyClip_ftb (s : State) (f : Clip → Clip) : (s.modifyClip f).ftb = s.ftb := rfl
@[simp] theorem State.modifyClip_lnc (s : State) (f : Clip → Clip) : (s.modifyClip f).lnc = s.lnc := rfl
@[simp] theorem State.modifyClip_stb (s : State) (f : Clip → Clip) : (s.modifyClip f).stb = s.stb := rfl
@[simp] theorem State.modifyClip_aud (s : State) (f : Clip → Clip) : (s.modifyClip f).aud = s.aud := rfl
@[simp] theorem State.modifyClip_bfm (s : State) (f : Clip → Clip) : (s.modifyClip f).bfm = s.bfm := rfl
@[simp] theorem State.modifyClip_mem (s : State) (f : Clip → Clip) : (s.modifyClip f).mem = s.mem := rfl
@[simp] theorem State.modifyClip_rcd (s : State) (f : Clip → Clip) : (s.modifyClip f).rcd = { s.rcd with clip := s.rcd.clip.map f } := rfl
@[simp] theorem State.modifyClip_slots (s : State) (f : Clip → Clip) : (s.modifyClip f).slots = s.slots := rfl
@[simp] theorem State.modifyClip_vog (s : State) (f : Clip → Clip) : (s.modifyClip f).vog = s.vog := rfl
@[simp] theorem State.modifyClip_lnk (s : State) (f : Clip → Clip) : (s.modifyClip f).lnk = s.lnk := rfl
@[simp] theorem State.modifyClip_pwc (s : State) (f : Clip → Clip) : (s.modifyClip f).pwc = s.pwc := rfl
@[simp] theorem State.modifyClip_due (s : State) (f : Clip → Clip) : (s.modifyClip f).due = s.due := rfl

/-! ## Queued units are changed -/

@[simp] theorem State.modifyUnits_pending (s : State) (which : RecUnit → Bool) (f : RecUnit → RecUnit) : (s.modifyUnits which f).pending = s.pending := rfl
@[simp] theorem State.modifyUnits_ftb (s : State) (which : RecUnit → Bool) (f : RecUnit → RecUnit) : (s.modifyUnits which f).ftb = s.ftb := rfl
@[simp] theorem State.modifyUnits_lnc (s : State) (which : RecUnit → Bool) (f : RecUnit → RecUnit) : (s.modifyUnits which f).lnc = s.lnc := rfl
@[simp] theorem State.modifyUnits_stb (s : State) (which : RecUnit → Bool) (f : RecUnit → RecUnit) : (s.modifyUnits which f).stb = s.stb := rfl
@[simp] theorem State.modifyUnits_aud (s : State) (which : RecUnit → Bool) (f : RecUnit → RecUnit) : (s.modifyUnits which f).aud = s.aud := rfl
@[simp] theorem State.modifyUnits_bfm (s : State) (which : RecUnit → Bool) (f : RecUnit → RecUnit) : (s.modifyUnits which f).bfm = s.bfm.modifyUnits which f := rfl
@[simp] theorem State.modifyUnits_mem (s : State) (which : RecUnit → Bool) (f : RecUnit → RecUnit) : (s.modifyUnits which f).mem = s.mem := rfl
@[simp] theorem State.modifyUnits_rcd (s : State) (which : RecUnit → Bool) (f : RecUnit → RecUnit) : (s.modifyUnits which f).rcd = s.rcd := rfl
@[simp] theorem State.modifyUnits_slots (s : State) (which : RecUnit → Bool) (f : RecUnit → RecUnit) : (s.modifyUnits which f).slots = s.slots := rfl
@[simp] theorem State.modifyUnits_vog (s : State) (which : RecUnit → Bool) (f : RecUnit → RecUnit) : (s.modifyUnits which f).vog = s.vog := rfl
@[simp] theorem State.modifyUnits_lnk (s : State) (which : RecUnit → Bool) (f : RecUnit → RecUnit) : (s.modifyUnits which f).lnk = s.lnk := rfl
@[simp] theorem State.modifyUnits_pwc (s : State) (which : RecUnit → Bool) (f : RecUnit → RecUnit) : (s.modifyUnits which f).pwc = s.pwc := rfl
@[simp] theorem State.modifyUnits_due (s : State) (which : RecUnit → Bool) (f : RecUnit → RecUnit) : (s.modifyUnits which f).due = s.due := rfl

/-! ## The timebase state is set -/

@[simp] theorem State.setTimebase_pending (s : State) (x : TimebaseState) : (s.setTimebase x).pending = s.pending := rfl
@[simp] theorem State.setTimebase_ftb (s : State) (x : TimebaseState) : (s.setTimebase x).ftb = { s.ftb with state := x } := rfl
@[simp] theorem State.setTimebase_lnc (s : State) (x : TimebaseState) : (s.setTimebase x).lnc = s.lnc := rfl
@[simp] theorem State.setTimebase_stb (s : State) (x : TimebaseState) : (s.setTimebase x).stb = s.stb := rfl
@[simp] theorem State.setTimebase_aud (s : State) (x : TimebaseState) : (s.setTimebase x).aud = s.aud := rfl
@[simp] theorem State.setTimebase_bfm (s : State) (x : TimebaseState) : (s.setTimebase x).bfm = s.bfm := rfl
@[simp] theorem State.setTimebase_mem (s : State) (x : TimebaseState) : (s.setTimebase x).mem = s.mem := rfl
@[simp] theorem State.setTimebase_rcd (s : State) (x : TimebaseState) : (s.setTimebase x).rcd = s.rcd := rfl
@[simp] theorem State.setTimebase_slots (s : State) (x : TimebaseState) : (s.setTimebase x).slots = s.slots := rfl
@[simp] theorem State.setTimebase_vog (s : State) (x : TimebaseState) : (s.setTimebase x).vog = s.vog := rfl
@[simp] theorem State.setTimebase_lnk (s : State) (x : TimebaseState) : (s.setTimebase x).lnk = s.lnk := rfl
@[simp] theorem State.setTimebase_pwc (s : State) (x : TimebaseState) : (s.setTimebase x).pwc = s.pwc := rfl
@[simp] theorem State.setTimebase_due (s : State) (x : TimebaseState) : (s.setTimebase x).due = s.due := rfl

/-! ## A source has an occurrence -/

@[simp] theorem State.notify_pending (s : State) (src : Source) (detail : List (Option Byte)) : (s.notify src detail).pending = s.pending := rfl
@[simp] theorem State.notify_ftb (s : State) (src : Source) (detail : List (Option Byte)) : (s.notify src detail).ftb = s.ftb := rfl
@[simp] theorem State.notify_lnc (s : State) (src : Source) (detail : List (Option Byte)) : (s.notify src detail).lnc = s.lnc := rfl
@[simp] theorem State.notify_stb (s : State) (src : Source) (detail : List (Option Byte)) : (s.notify src detail).stb = s.stb := rfl
@[simp] theorem State.notify_aud (s : State) (src : Source) (detail : List (Option Byte)) : (s.notify src detail).aud = s.aud := rfl
@[simp] theorem State.notify_bfm (s : State) (src : Source) (detail : List (Option Byte)) : (s.notify src detail).bfm = s.bfm := rfl
@[simp] theorem State.notify_mem (s : State) (src : Source) (detail : List (Option Byte)) : (s.notify src detail).mem = s.mem := rfl
@[simp] theorem State.notify_rcd (s : State) (src : Source) (detail : List (Option Byte)) : (s.notify src detail).rcd = s.rcd := rfl
@[simp] theorem State.notify_slots (s : State) (src : Source) (detail : List (Option Byte)) : (s.notify src detail).slots = s.slots := rfl
@[simp] theorem State.notify_vog (s : State) (src : Source) (detail : List (Option Byte)) : (s.notify src detail).vog = s.vog := rfl
@[simp] theorem State.notify_lnk (s : State) (src : Source) (detail : List (Option Byte)) : (s.notify src detail).lnk = s.lnk.occur s.ftb.serial src detail := rfl
@[simp] theorem State.notify_pwc (s : State) (src : Source) (detail : List (Option Byte)) : (s.notify src detail).pwc = s.pwc := rfl
@[simp] theorem State.notify_due (s : State) (src : Source) (detail : List (Option Byte)) : (s.notify src detail).due = s.due := rfl

/-! ## A source has an occurrence with every byte stated -/

@[simp] theorem State.report_pending (s : State) (src : Source) (detail : List Byte) : (s.report src detail).pending = s.pending := rfl
@[simp] theorem State.report_ftb (s : State) (src : Source) (detail : List Byte) : (s.report src detail).ftb = s.ftb := rfl
@[simp] theorem State.report_lnc (s : State) (src : Source) (detail : List Byte) : (s.report src detail).lnc = s.lnc := rfl
@[simp] theorem State.report_stb (s : State) (src : Source) (detail : List Byte) : (s.report src detail).stb = s.stb := rfl
@[simp] theorem State.report_aud (s : State) (src : Source) (detail : List Byte) : (s.report src detail).aud = s.aud := rfl
@[simp] theorem State.report_bfm (s : State) (src : Source) (detail : List Byte) : (s.report src detail).bfm = s.bfm := rfl
@[simp] theorem State.report_mem (s : State) (src : Source) (detail : List Byte) : (s.report src detail).mem = s.mem := rfl
@[simp] theorem State.report_rcd (s : State) (src : Source) (detail : List Byte) : (s.report src detail).rcd = s.rcd := rfl
@[simp] theorem State.report_slots (s : State) (src : Source) (detail : List Byte) : (s.report src detail).slots = s.slots := rfl
@[simp] theorem State.report_vog (s : State) (src : Source) (detail : List Byte) : (s.report src detail).vog = s.vog := rfl
@[simp] theorem State.report_lnk (s : State) (src : Source) (detail : List Byte) : (s.report src detail).lnk = s.lnk.occur s.ftb.serial src (detail.map some) := rfl
@[simp] theorem State.report_pwc (s : State) (src : Source) (detail : List Byte) : (s.report src detail).pwc = s.pwc := rfl
@[simp] theorem State.report_due (s : State) (src : Source) (detail : List Byte) : (s.report src detail).due = s.due := rfl

/-! ## Cycles pass -/

@[simp] theorem State.pass_pending (s : State) (cycles : Nat) : (s.pass cycles).pending = s.pending := rfl
@[simp] theorem State.pass_lnc (s : State) (cycles : Nat) : (s.pass cycles).lnc = s.lnc := rfl
@[simp] theorem State.pass_stb (s : State) (cycles : Nat) : (s.pass cycles).stb = s.stb := rfl
@[simp] theorem State.pass_aud (s : State) (cycles : Nat) : (s.pass cycles).aud = s.aud := rfl
@[simp] theorem State.pass_bfm (s : State) (cycles : Nat) : (s.pass cycles).bfm = s.bfm := rfl
@[simp] theorem State.pass_mem (s : State) (cycles : Nat) : (s.pass cycles).mem = s.mem := rfl
@[simp] theorem State.pass_rcd (s : State) (cycles : Nat) : (s.pass cycles).rcd = s.rcd := rfl
@[simp] theorem State.pass_slots (s : State) (cycles : Nat) : (s.pass cycles).slots = s.slots := rfl
@[simp] theorem State.pass_vog (s : State) (cycles : Nat) : (s.pass cycles).vog = s.vog := rfl
@[simp] theorem State.pass_lnk (s : State) (cycles : Nat) : (s.pass cycles).lnk = s.lnk := rfl
@[simp] theorem State.pass_pwc (s : State) (cycles : Nat) : (s.pass cycles).pwc = s.pwc := rfl
@[simp] theorem State.pass_due (s : State) (cycles : Nat) : (s.pass cycles).due = s.due := rfl
@[simp] theorem State.pass_elapsed (s : State) (cycles : Nat) : (s.pass cycles).ftb.elapsed = s.ftb.elapsed + cycles := rfl

/-- The statements' due time is the timer's span. -/
theorem Ftb.dueAt_eq (ftb : Ftb) : ftb.dueAt = ftb.span := by
  unfold Ftb.dueAt Ftb.span
  cases ftb.state <;> rfl

/-- Cycles that do not go beyond the span of the substitution timer only pass. -/
theorem State.elapse_within (s : State) (cycles : Nat) (h : s.ftb.within cycles) : s.elapse cycles = s.pass cycles := by
  have fits : cycles ≤ s.ftb.toDue := by
    unfold Ftb.toDue
    rcases h with h | h <;> have := s.ftb.dueAt_eq <;> omega
  simp only [State.elapse, State.elapseBy, if_pos fits]

/-! ## LNC leaves its record -/

@[simp] theorem State.leaveRecord_pending (s : State) (n : Serial) : (s.leaveRecord n).pending = s.pending := rfl
@[simp] theorem State.leaveRecord_ftb (s : State) (n : Serial) : (s.leaveRecord n).ftb = s.ftb := rfl
@[simp] theorem State.leaveRecord_lnc (s : State) (n : Serial) : (s.leaveRecord n).lnc = s.lnc := rfl
@[simp] theorem State.leaveRecord_stb (s : State) (n : Serial) : (s.leaveRecord n).stb = s.stb := rfl
@[simp] theorem State.leaveRecord_aud (s : State) (n : Serial) : (s.leaveRecord n).aud = s.aud := rfl
@[simp] theorem State.leaveRecord_bfm (s : State) (n : Serial) : (s.leaveRecord n).bfm = s.bfm := rfl
@[simp] theorem State.leaveRecord_mem (s : State) (n : Serial) : (s.leaveRecord n).mem = s.mem := rfl
@[simp] theorem State.leaveRecord_rcd (s : State) (n : Serial) : (s.leaveRecord n).rcd = s.rcd := rfl
@[simp] theorem State.leaveRecord_slots (s : State) (n : Serial) : (s.leaveRecord n).slots = s.slots := rfl
@[simp] theorem State.leaveRecord_vog (s : State) (n : Serial) : (s.leaveRecord n).vog = s.vog := rfl
@[simp] theorem State.leaveRecord_lnk (s : State) (n : Serial) : (s.leaveRecord n).lnk = s.lnk := rfl
@[simp] theorem State.leaveRecord_pwc (s : State) (n : Serial) : (s.leaveRecord n).pwc = s.pwc := rfl
@[simp] theorem State.leaveRecord_due_lnc (s : State) (n : Serial) : (s.leaveRecord n).due.lnc = s.due.lnc := rfl
@[simp] theorem State.leaveRecord_due_aud (s : State) (n : Serial) : (s.leaveRecord n).due.aud = s.due.aud := rfl
@[simp] theorem State.leaveRecord_due_rcd (s : State) (n : Serial) : (s.leaveRecord n).due.rcd = s.due.rcd := rfl
@[simp] theorem FrameStart.leave_serial (n : Serial) (r : LensRecord) (f : FrameStart) : (FrameStart.leave n r f).serial = f.serial := by
  unfold FrameStart.leave; split <;> rfl
@[simp] theorem FrameStart.leave_inRun (n : Serial) (r : LensRecord) (f : FrameStart) : (FrameStart.leave n r f).inRun = f.inRun := by
  unfold FrameStart.leave; split <;> rfl
@[simp] theorem FrameStart.leave_substituted (n : Serial) (r : LensRecord) (f : FrameStart) : (FrameStart.leave n r f).substituted = f.substituted := by
  unfold FrameStart.leave; split <;> rfl
@[simp] theorem FrameStart.leave_stbOff (n : Serial) (r : LensRecord) (f : FrameStart) : (FrameStart.leave n r f).stbOff = f.stbOff := by
  unfold FrameStart.leave; split <;> rfl
@[simp] theorem FrameStart.beforeStb_serial (f : FrameStart) : f.beforeStb.serial = f.serial := rfl
@[simp] theorem FrameStart.beforeStb_substituted (f : FrameStart) : f.beforeStb.substituted = f.substituted := rfl
@[simp] theorem FrameStart.beforeStb_inRun (f : FrameStart) : f.beforeStb.inRun = f.inRun := rfl
@[simp] theorem FrameStart.beforeStb_lens (f : FrameStart) : f.beforeStb.lens = f.lens := rfl
@[simp] theorem FrameStart.beforeStb_stbOff (f : FrameStart) : f.beforeStb.stbOff = true := rfl
@[simp] theorem FrameStart.inStandby_stbOff (f : FrameStart) : f.inStandby.stbOff = f.stbOff := rfl

/-- While LNC is enabled, the record that a block reads at a frame start which LNC has acted on is the one LNC left with it. -/
theorem State.lensRecordFor_left (s : State) (f : FrameStart) (r : LensRecord) (on : s.pwc.enables.lnc = true)
    (h : f.lens = some r) : s.lensRecordFor f = r := by
  simp only [State.lensRecordFor, on, h, Bool.not_true, Bool.false_eq_true, if_false]

/-- While LNC is disabled, the record that a block reads is the one LNC keeps. -/
theorem State.lensRecordFor_disabled (s : State) (f : FrameStart) (off : s.pwc.enables.lnc = false) :
    s.lensRecordFor f = s.lensRecord := by
  simp only [State.lensRecordFor, off, Bool.not_false, if_true]

/-- The lens record of a disabled LNC is stale. -/
theorem State.lensRecord_stale_disabled (s : State) (off : s.pwc.enables.lnc = false) : s.lensRecord.stale = true := by
  simp only [State.lensRecord, State.lensStale, off, Bool.not_false, Bool.true_or]

end Sys2Proof.Machine
end

