-- ==== Sys2Proof/Laws/Buffer.lean ====
section
/-! SUPPORT. The pages of the buffer memory (R88): how often a page stands among the free pages, the units' and the entries', what
each shared operation of the Buffer Manager makes of that, and that each keeps `Bfm.lawful`. -/

namespace Sys2Proof.Machine

/-! ## The tally of a page -/

/-- How often a page stands among the free pages, the units' and the entries'. -/
def Bfm.tally (b : Bfm) (p : Nat) : Nat :=
  b.free.pages.count p + (b.queue.map RecUnit.pages).flatten.count p + (b.entries.map Entry.pages).flatten.count p

/-- The law of the pages, by the tallies. -/
theorem Bfm.lawful_iff (b : Bfm) : b.lawful ↔
    (∀ p, b.tally p = (List.range 16384).count p) ∧ (b.entries.map Entry.serial).Nodup ∧
      ∀ e ∈ b.entries, ∀ p, e.picture = .arriving p → ∃ placed remaining, b.port = .data e.serial placed remaining := by
  unfold Bfm.lawful Bfm.tally
  rw [List.perm_iff_count]
  simp only [List.count_append]

theorem FreeList.count_give (f : FreeList) (l : List Nat) (p : Nat) :
    (f.give l).pages.count p = f.pages.count p + l.count p := by
  simp [FreeList.give, FreeList.pages, Nat.add_assoc]

/-- The pages that an allocation takes and those that stay are the free ones. -/
theorem FreeList.count_take {f g : FreeList} {k : Nat} {l : List Nat} (h : f.take k = some (l, g)) (p : Nat) :
    l.count p + g.pages.count p = f.pages.count p := by
  unfold FreeList.take at h
  split at h
  · simp only [Option.some.injEq, Prod.mk.injEq] at h
    obtain ⟨rfl, rfl⟩ := h
    have hr : List.range' f.fresh (min k (pageCount - f.fresh)) ++
        List.range' (f.fresh + min k (pageCount - f.fresh)) (pageCount - (f.fresh + min k (pageCount - f.fresh))) =
        List.range' f.fresh (pageCount - f.fresh) := by
      have := List.range'_append (s := f.fresh) (m := min k (pageCount - f.fresh))
        (n := pageCount - (f.fresh + min k (pageCount - f.fresh))) (step := 1)
      rw [Nat.one_mul] at this
      rw [this]
      congr 1
      omega
    have ht := congrArg (List.count p) (List.take_append_drop (k - min k (pageCount - f.fresh)) f.released)
    have hc := congrArg (List.count p) hr
    simp only [List.count_append, FreeList.pages] at ht hc ⊢
    omega
  · cases h

theorem FreeList.length_take {f g : FreeList} {k : Nat} {l : List Nat} (h : f.take k = some (l, g)) : l.length = k := by
  unfold FreeList.take at h
  split at h
  · next hk =>
    simp only [Option.some.injEq, Prod.mk.injEq] at h
    obtain ⟨rfl, -⟩ := h
    simp only [List.length_append, List.length_range', List.length_take, FreeList.count] at hk ⊢
    omega
  · cases h

/-! ## The queue -/

/-- `b'` differs from `b` in the queue, the free list and the fields that no page depends on, and no page is made or lost. -/
structure Bfm.Keeps (b b' : Bfm) : Prop where
  tally : ∀ p, b'.tally p = b.tally p
  entries : b'.entries = b.entries
  port : b'.port = b.port

theorem Bfm.Keeps.refl (b : Bfm) : b.Keeps b := ⟨fun _ => rfl, rfl, rfl⟩

theorem Bfm.Keeps.trans {b c d : Bfm} (h : b.Keeps c) (k : c.Keeps d) : b.Keeps d :=
  ⟨fun p => (k.tally p).trans (h.tally p), k.entries.trans h.entries, k.port.trans h.port⟩

theorem Bfm.Keeps.lawful {b b' : Bfm} (h : b.Keeps b') (law : b.lawful) : b'.lawful := by
  rw [Bfm.lawful_iff] at law ⊢
  simp only [h.tally, h.entries, h.port]
  exact law

/-- A count changes no page. -/
theorem Bfm.keeps_counts (b : Bfm) (c : BfmCounts) : b.Keeps { b with counts := c } := ⟨fun _ => rfl, rfl, rfl⟩

theorem Bfm.keeps_foldl {α : Type} {f : Bfm → α → Bfm} (step : ∀ (b : Bfm) (x : α), b.Keeps (f b x)) :
    ∀ (l : List α) (b : Bfm), b.Keeps (l.foldl f b)
  | [], b => .refl b
  | x :: xs, b => (step b x).trans (keeps_foldl step xs (f b x))

theorem count_filter_pages {α : Type} (f : α → List Nat) (gone : α → Bool) (p : Nat) : ∀ l : List α,
    ((l.filter gone).map f).flatten.count p + ((l.filter (fun x => !gone x)).map f).flatten.count p =
      (l.map f).flatten.count p
  | [] => rfl
  | x :: xs => by
    have ih := count_filter_pages f gone p xs
    cases h : gone x <;> simp [h, List.count_append] <;> omega

theorem Bfm.keeps_dropUnits (b : Bfm) (gone : RecUnit → Bool) : b.Keeps (b.dropUnits gone) := by
  refine ⟨fun p => ?_, rfl, rfl⟩
  have h := count_filter_pages RecUnit.pages gone p b.queue
  show (b.free.give _).pages.count p + _ + _ = _
  rw [FreeList.count_give]
  simp only [Bfm.tally, Bfm.dropUnits, Bfm.judgeWindows]
  omega

theorem Bfm.keeps_modifyUnits (b : Bfm) (which : RecUnit → Bool) (f : RecUnit → RecUnit)
    (same : ∀ u, (f u).pages = u.pages) : b.Keeps (b.modifyUnits which f) := by
  refine ⟨fun p => ?_, rfl, rfl⟩
  have h : (b.queue.map (fun u => if which u then f u else u)).map RecUnit.pages = b.queue.map RecUnit.pages := by
    rw [List.map_map]
    apply List.map_congr_left
    intro u _
    simp only [Function.comp]
    split
    · exact same u
    · rfl
  simp only [Bfm.tally, Bfm.modifyUnits, h]

theorem Bfm.keeps_ringRule (b : Bfm) : b.Keeps b.ringRule := by
  unfold Bfm.ringRule
  exact keeps_foldl (fun b (u : RecUnit) => Bfm.Keeps.trans (c := b.dropUnit u.serial) (b.keeps_dropUnits _) (keeps_counts _ _)) _ b

theorem Bfm.keeps_releaseUnits (b : Bfm) (which : RecUnit → Bool) : b.Keeps (b.releaseUnits which) :=
  ((b.keeps_modifyUnits _ RecUnit.toRing (fun _ => rfl)).trans (keeps_dropUnits _ _)).trans (keeps_counts _ _)

/-- What an allocation does: the entries and the port stand, and what it gives, what stays free and what the units keep are the
pages that were free or theirs. -/
theorem Bfm.allocate_spec (b : Bfm) (k : Nat) :
    (b.allocate k).2.entries = b.entries ∧ (b.allocate k).2.port = b.port ∧
      ∀ p, ((b.allocate k).1.getD []).count p + (b.allocate k).2.tally p = b.tally p := by
  unfold Bfm.allocate
  dsimp only
  generalize hm : (if k ≤ b.free.count then b else _ : Bfm) = m
  have keep : b.Keeps m := by
    rw [← hm]
    split
    · exact .refl b
    · split
      · refine keeps_foldl (fun c u => ?_) _ b
        split
        · exact .refl c
        · exact (c.keeps_dropUnits _).trans (keeps_counts _ _)
      · exact .refl b
  cases h : m.free.take k with
  | none => exact ⟨keep.entries, keep.port, fun p => by simpa using keep.tally p⟩
  | some r =>
    obtain ⟨l, g⟩ := r
    refine ⟨keep.entries, keep.port, fun p => ?_⟩
    have ht := FreeList.count_take h p
    have hk := keep.tally p
    simp only [Bfm.tally, Option.getD_some] at hk ⊢
    omega

/-- An allocation gives as many pages as were asked for. -/
theorem Bfm.allocate_length (b : Bfm) (k : Nat) : ∀ l, (b.allocate k).1 = some l → l.length = k := by
  intro l h
  unfold Bfm.allocate at h
  dsimp only at h
  split at h
  · next ht =>
    obtain rfl : _ = l := by simpa using h
    exact FreeList.length_take ht
  · cases h

/-! ## The entries -/

theorem find_serial {l : List Entry} {n : Serial} {e : Entry} (h : l.find? (fun e => e.serial == n) = some e) :
    e ∈ l ∧ e.serial = n := ⟨List.mem_of_find?_eq_some h, by simpa using List.find?_some h⟩

/-- An entry that leaves the table takes its own pages out of the tally, and no others. -/
theorem count_leave {l : List Entry} {e : Entry} (once : (l.map Entry.serial).Nodup) (mem : e ∈ l) (p : Nat) :
    ((l.filter (fun x => x.serial != e.serial)).map Entry.pages).flatten.count p + e.pages.count p =
      (l.map Entry.pages).flatten.count p := by
  induction l with
  | nil => cases mem
  | cons x xs ih =>
    simp only [List.map_cons, List.nodup_cons, List.mem_map, not_exists, not_and] at once
    rcases List.mem_cons.mp mem with rfl | mem
    · have : xs.filter (fun x => x.serial != e.serial) = xs :=
        List.filter_eq_self.mpr (fun y hy => by simpa using once.1 y hy)
      simp [this, List.count_append]; omega
    · have hne : x.serial ≠ e.serial := fun h => once.1 e mem h.symm
      have := ih once.2 mem
      simp [hne, List.count_append]; omega

/-- A change of an entry changes the tally by the pages it adds. -/
theorem count_modify {l : List Entry} {e : Entry} (f : Entry → Entry) (once : (l.map Entry.serial).Nodup) (mem : e ∈ l)
    (p : Nat) :
    ((l.map (fun x => if x.serial == e.serial then f x else x)).map Entry.pages).flatten.count p + e.pages.count p =
      (l.map Entry.pages).flatten.count p + (f e).pages.count p := by
  induction l with
  | nil => cases mem
  | cons x xs ih =>
    simp only [List.map_cons, List.nodup_cons, List.mem_map, not_exists, not_and] at once
    rcases List.mem_cons.mp mem with rfl | mem
    · have : xs.map (fun x => if x.serial == e.serial then f x else x) = xs := by
        conv_rhs => rw [← List.map_id xs]
        apply List.map_congr_left
        intro y hy
        have : y.serial ≠ e.serial := fun h => once.1 y hy h
        simp [this]
      simp only [List.map_cons, this, beq_self_eq_true, if_true, List.flatten_cons, List.count_append]; omega
    · have hne : x.serial ≠ e.serial := fun h => once.1 e mem h.symm
      have := ih once.2 mem
      simp only [List.map_cons, List.flatten_cons, List.count_append, beq_iff_eq, hne, if_false] at this ⊢; omega

theorem serials_modify (l : List Entry) (n : Serial) (f : Entry → Entry) (same : ∀ e, (f e).serial = e.serial) :
    (l.map (fun x => if x.serial == n then f x else x)).map Entry.serial = l.map Entry.serial := by
  rw [List.map_map]
  apply List.map_congr_left
  intro x _
  simp only [Function.comp]
  split
  · exact same x
  · rfl

theorem mem_leave {l : List Entry} {n : Serial} {e : Entry} (h : e ∈ l.filter (fun x => x.serial != n)) :
    e ∈ l ∧ e.serial ≠ n := by simpa using h

/-- A change of an entry that keeps its serial and its picture, and adds no page. -/
theorem Bfm.lawful_modifyEntry {b : Bfm} (law : b.lawful) (n : Serial) (f : Entry → Entry)
    (serial : ∀ e, (f e).serial = e.serial) (pages : ∀ e, (f e).pages = e.pages) (picture : ∀ e, (f e).picture = e.picture) :
    (b.modifyEntry n f).lawful := by
  rw [Bfm.lawful_iff] at law ⊢
  obtain ⟨ht, hn, ha⟩ := law
  refine ⟨fun p => ?_, ?_, ?_⟩
  · rw [← ht p]
    have h : (b.entries.map (fun e => if e.serial == n then f e else e)).map Entry.pages = b.entries.map Entry.pages := by
      rw [List.map_map]
      apply List.map_congr_left
      intro x _
      simp only [Function.comp]
      split
      · exact pages x
      · rfl
    simp only [Bfm.tally, Bfm.modifyEntry, h]
  · show ((b.entries.map _).map Entry.serial).Nodup
    rw [serials_modify _ _ _ serial]; exact hn
  · intro e he p hp
    obtain ⟨x, hx, rfl⟩ := List.mem_map.mp he
    by_cases h : x.serial == n
    · simp only [h, if_true] at hp ⊢
      rw [picture] at hp; rw [serial]; exact ha x hx p hp
    · simp only [h, Bool.false_eq_true, if_false] at hp ⊢
      exact ha x hx p hp

/-- What an abandonment makes of BFM (R96, R94). -/
theorem State.abandon_bfm (s : State) (e : Entry) (reason : AbandonReason) :
    (s.abandon e reason).bfm =
      { s.bfm with
        entries := s.bfm.entries.filter (fun x => x.serial != e.serial)
        free := s.bfm.free.give e.pages
        port := s.bfm.port.abandoned e.serial
        counts := s.bfm.counts.abandon reason
        gapPending := s.bfm.gapPending || s.inClipRange e } := by
  unfold State.abandon
  dsimp only
  split <;> rfl

theorem EssencePort.abandoned_data {p : EssencePort} {n m : Serial} {placed remaining : Nat}
    (h : p = .data n placed remaining) (ne : n ≠ m) : p.abandoned m = .data n placed remaining := by
  subst h
  simp [EssencePort.abandoned, ne]

theorem State.lawful_abandon {s : State} {e : Entry} (law : s.bfm.lawful) (mem : e ∈ s.bfm.entries) (reason : AbandonReason) :
    (s.abandon e reason).bfm.lawful := by
  rw [State.abandon_bfm]
  rw [Bfm.lawful_iff] at law ⊢
  obtain ⟨ht, hn, ha⟩ := law
  refine ⟨fun p => ?_, hn.sublist (List.filter_sublist.map _), fun x hx p hp => ?_⟩
  · have h := count_leave hn mem p
    rw [← ht p]
    simp only [Bfm.tally, FreeList.count_give]
    omega
  · obtain ⟨hx, ne⟩ := mem_leave hx
    obtain ⟨i, r, h⟩ := ha x hx p hp
    exact ⟨i, r, EssencePort.abandoned_data h ne⟩

/-- A unit joins the queue with pages that are in no other hand. -/
theorem State.placeUnit_spec (s : State) (u : RecUnit) :
    (s.placeUnit u).bfm.entries = s.bfm.entries ∧ (s.placeUnit u).bfm.port = s.bfm.port ∧
      ∀ p, (s.placeUnit u).bfm.tally p = s.bfm.tally p + u.pages.count p := by
  unfold State.placeUnit
  split
  · refine ⟨rfl, rfl, fun p => ?_⟩
    simp only [Bfm.tally, List.map_append, List.flatten_append, List.count_append, List.map_cons, List.map_nil,
      List.flatten_cons, List.flatten_nil, List.append_nil, RecUnit.pages]
    omega
  · refine ⟨rfl, rfl, fun p => ?_⟩
    simp only [Bfm.tally, FreeList.count_give]
    omega
  · have k := Bfm.keeps_ringRule { s.bfm with queue := s.bfm.queue ++ [u] }
    refine ⟨k.entries, k.port, fun p => (k.tally p).trans ?_⟩
    simp only [Bfm.tally, List.map_append, List.flatten_append, List.count_append, List.map_cons, List.map_nil,
      List.flatten_cons, List.flatten_nil, List.append_nil]
    omega

theorem State.lawful_join {s : State} {e : Entry} {p : PictureData} (law : s.bfm.lawful) (mem : e ∈ s.bfm.entries)
    (whole : e.picture = .present p) : (s.join e p).bfm.lawful := by
  have pages : (e.toUnit p).pages = e.pages := by simp [Entry.toUnit, RecUnit.pages, Entry.pages, whole, Picture.pages]
  have leave : ∀ b : Bfm, s.bfm.Keeps b →
      (({ s with bfm := { b with entries := b.entries.filter (fun x => x.serial != e.serial) } } : State).placeUnit
        (e.toUnit p)).bfm.lawful := by
    intro b keep
    have law := keep.lawful law
    obtain ⟨he, hp, ht⟩ := State.placeUnit_spec
      ({ s with bfm := { b with entries := b.entries.filter (fun x => x.serial != e.serial) } } : State) (e.toUnit p)
    rw [Bfm.lawful_iff] at law ⊢
    obtain ⟨lt, ln, la⟩ := law
    rw [he, hp]
    refine ⟨fun q => ?_, ln.sublist (List.filter_sublist.map _), fun x hx => la x (mem_leave hx).1⟩
    have h := count_leave ln (by rw [keep.entries]; exact mem) q
    rw [ht, pages, ← lt q]
    simp only [Bfm.tally]
    omega
  unfold State.join
  dsimp only
  split
  · exact leave s.bfm (.refl _)
  · split
    · next old _ =>
      exact leave { s.bfm.dropUnit old.serial with
        counts := { (s.bfm.dropUnit old.serial).counts with queueLimit := bump16 (s.bfm.dropUnit old.serial).counts.queueLimit } }
        ((s.bfm.keeps_dropUnits _).trans (Bfm.keeps_counts _ _))
    · exact State.lawful_abandon law mem _

/-- The checking of an entry keeps the law. -/
theorem State.lawful_checkComplete {s : State} (law : s.bfm.lawful) (n : Serial) : (s.checkComplete n).bfm.lawful := by
  unfold State.checkComplete
  split
  · exact law
  · next e h =>
    split
    · next p hp =>
      split
      · exact State.lawful_join law (find_serial h).1 hp
      · exact law
    · exact law
    · exact law

/-- A hand-over keeps the law (R92). -/
theorem State.lawful_takeHandOver {s : State} (law : s.bfm.lawful) (n : Serial) (side : Side) (h : HandOver) :
    (s.takeHandOver n side h).bfm.lawful := by
  unfold State.takeHandOver
  split
  · exact law
  · next e he =>
    obtain ⟨mem, rfl⟩ := find_serial he
    split
    · exact law
    · next und =>
      have empty : (e.sound.get side).pages = [] := by
        cases hs : e.sound.get side <;> simp [hs, Sound.decided, Sound.pages] at und ⊢
      have adds : ∀ (x : Sound) (q : Nat), ({ e with sound := e.sound.set side x } : Entry).pages.count q =
          e.pages.count q + x.pages.count q := by
        intro x q
        cases side <;> simp only [Two.get] at empty <;>
          simp only [Entry.pages, Two.set, empty, List.append_nil, List.count_append] <;> omega
      have sets : ∀ (c : State) (x : Sound), c.bfm.entries = s.bfm.entries → c.bfm.port = s.bfm.port →
          (∀ q, c.bfm.tally q + x.pages.count q = s.bfm.tally q) → (c.setSound e.serial side x).bfm.lawful := by
        intro c x ce cp ct
        rw [Bfm.lawful_iff] at law ⊢
        obtain ⟨lt, ln, la⟩ := law
        refine ⟨fun q => ?_, ?_, ?_⟩
        · have hm := count_modify (fun e => { e with sound := e.sound.set side x }) ln mem q
          have := ct q
          rw [← lt q]
          simp only [adds] at hm
          simp only [Bfm.tally, State.setSound, Bfm.modifyEntry, ce] at this ⊢
          omega
        · show ((c.bfm.entries.map _).map Entry.serial).Nodup
          rw [serials_modify _ _ (fun e => { e with sound := e.sound.set side x }) (fun _ => rfl), ce]; exact ln
        · intro y hy p hp
          obtain ⟨z, hz, rfl⟩ := List.mem_map.mp hy
          show ∃ i r, c.bfm.port = _
          rw [cp]
          rw [ce] at hz
          by_cases k : z.serial == e.serial
          · simp only [k, if_true] at hp ⊢; exact la z hz p hp
          · simp only [k, Bool.false_eq_true, if_false] at hp ⊢; exact la z hz p hp
      split
      · exact State.lawful_checkComplete (sets s _ rfl rfl (fun q => by simp [Sound.pages])) _
      · next g =>
        obtain ⟨ae, ap, at'⟩ := Bfm.allocate_spec s.bfm 1
        have given := Bfm.allocate_length s.bfm 1
        generalize s.bfm.allocate 1 = r at ae ap at' given ⊢
        obtain ⟨pages, b⟩ := r
        dsimp only at ae ap at' given ⊢
        split
        · next page rest =>
          obtain rfl : rest = [] := by simpa using given _ rfl
          exact State.lawful_checkComplete (sets _ _ ae ap (fun q => by simpa [Sound.pages, Nat.add_comm] using at' q)) _
        · next no =>
          obtain rfl : pages = none := by
            cases pages with
            | none => rfl
            | some l =>
              cases l with
              | nil => simpa using given _ rfl
              | cons page rest => exact absurd rfl (no page rest)
          refine State.lawful_abandon ?_ (by rw [show _ = b.entries from rfl, ae]; exact mem) _
          exact (⟨by simpa using at', ae, ap⟩ : s.bfm.Keeps b).lawful law

/-- An access unit's header takes no page but its entry's (R93): where nothing arrives yet, the law is kept. -/
theorem State.lawful_beginPicture {s : State} {e : Entry} (law : s.bfm.lawful) (mem : e ∈ s.bfm.entries)
    (idle : ∀ x ∈ s.bfm.entries, ∀ p, x.picture ≠ .arriving p) (empty : e.picture = .none) (length : Nat) (key : Bool) :
    (s.beginPicture e length key).bfm.lawful := by
  have skip : ∀ t : State, t.bfm.lawful → (∀ x ∈ t.bfm.entries, ∀ p, x.picture ≠ .arriving p) →
      (t.skipPicture length).bfm.lawful := fun t law no => ⟨law.1, law.2.1, fun x hx p hp => absurd hp (no x hx p)⟩
  have gone : ∀ (t : State) (reason : AbandonReason), (∀ x ∈ t.bfm.entries, ∀ p, x.picture ≠ .arriving p) →
      ∀ x ∈ (t.abandon e reason).bfm.entries, ∀ p, x.picture ≠ .arriving p := by
    intro t reason no x hx
    rw [State.abandon_bfm] at hx
    exact no x (mem_leave hx).1
  unfold State.beginPicture
  split
  · exact skip _ (State.lawful_abandon law mem _) (gone s _ idle)
  · obtain ⟨ae, ap, at'⟩ := Bfm.allocate_spec s.bfm (pagesOf length)
    generalize s.bfm.allocate (pagesOf length) = r at ae ap at' ⊢
    obtain ⟨pages, b⟩ := r
    dsimp only at ae ap at' ⊢
    split
    · have keep : s.bfm.Keeps b := ⟨by simpa using at', ae, ap⟩
      refine skip _ (State.lawful_abandon (keep.lawful law) ?_ _) (gone _ _ ?_)
      · rw [show _ = b.entries from rfl, ae]; exact mem
      · rw [show _ = b.entries from rfl, ae]; exact idle
    · next pages =>
      rw [Bfm.lawful_iff] at law ⊢
      obtain ⟨lt, ln, la⟩ := law
      refine ⟨fun q => ?_, ?_, ?_⟩
      · have hm := count_modify (fun e => { e with
            picture := .arriving { key := key, length := length, pages := pages } }) ln mem q
        have := at' q
        rw [← lt q]
        simp only [Entry.pages, Picture.pages, empty, List.nil_append, List.count_append, Option.getD_some] at hm this
        simp only [Bfm.tally, State.modifyBfm, Bfm.modifyEntry, ae] at this ⊢
        omega
      · show ((b.entries.map _).map Entry.serial).Nodup
        rw [serials_modify _ _ (fun e => { e with picture := .arriving { key := key, length := length, pages := pages } })
          (fun _ => rfl), ae]; exact ln
      · intro y hy p hp
        obtain ⟨z, hz, rfl⟩ := List.mem_map.mp hy
        rw [ae] at hz
        by_cases k : z.serial = e.serial
        · exact ⟨0, length, by simp [State.modifyBfm, k]⟩
        · simp only [beq_iff_eq, k, if_false] at hp
          exact absurd hp (idle z hz p)

/-- The clearing of R110 keeps the law: every page is free. -/
theorem Bfm.lawful_clearAll {b : Bfm} (law : b.lawful) : b.clearAll.lawful := by
  rw [Bfm.lawful_iff] at law ⊢
  refine ⟨fun p => ?_, List.nodup_nil, fun e he => by cases he⟩
  rw [← law.1 p]
  simp only [Bfm.tally, Bfm.clearAll, FreeList.count_give, List.map_nil, List.flatten_nil, List.count_nil]
  omega

end Sys2Proof.Machine
end

