-- ==== Sys2Proof/Laws/Bytes.lean ====
section
/-! SUPPORT. Numbers as bytes and back (R194): what `num`, `rangeAt` and `flagAt` read where a field was written. -/

namespace Sys2Proof.Machine

@[simp] theorem beBytes_length (n x : Nat) : (beBytes n x).length = n := by
  induction n with
  | zero => rfl
  | succ n ih => simp [beBytes, ih]

theorem ofBytes_foldl (bytes : List Byte) (n : Nat) :
    bytes.foldl (fun n b => n * 256 + b.toNat) n = n * 256 ^ bytes.length + ofBytes bytes := by
  unfold ofBytes
  induction bytes generalizing n with
  | nil => simp
  | cons b rest ih =>
    rw [List.foldl_cons, ih, List.foldl_cons, ih (0 * 256 + b.toNat), List.length_cons, pow_succ]
    ring

/-- What was written as `n` bytes reads as the number modulo their range. -/
theorem ofBytes_beBytes (n x : Nat) : ofBytes (beBytes n x) = x % 256 ^ n := by
  induction n with
  | zero => simp [beBytes, ofBytes, Nat.mod_one]
  | succ n ih =>
    have h : ofBytes (beBytes (n + 1) x) = (BitVec.ofNat 8 (x / 256 ^ n)).toNat * 256 ^ n + ofBytes (beBytes n x) := by
      conv_lhs => unfold ofBytes beBytes
      rw [List.foldl_cons, ofBytes_foldl, beBytes_length]
      simp
    rw [h, ih, BitVec.toNat_ofNat, show (2 : Nat) ^ 8 = 256 from rfl, pow_succ, Nat.mod_mul, mul_comm]
    ring

/-- A field of `n` bytes reads as the number written there. -/
theorem num_field (front back : List Byte) (n x : Nat) (h : x < 256 ^ n) :
    num (front ++ (beBytes n x ++ back)) front.length n = x := by
  unfold num field
  rw [List.drop_left', List.take_left', ofBytes_beBytes, Nat.mod_eq_of_lt h] <;> simp

theorem rangeAt_of_num {bytes : List Byte} {first count lo hi x : Nat} (h : num bytes first count = x) (hlo : lo ≤ x)
    (hhi : x ≤ hi) : rangeAt bytes first count lo hi = some x := by
  unfold rangeAt
  simp only [h]
  simp [hlo, hhi]

theorem signedRangeAt_of_num {bytes : List Byte} {first count : Nat} {lo hi x : Int} (h : signedNum bytes first count = x)
    (hlo : lo ≤ x) (hhi : x ≤ hi) : signedRangeAt bytes first count lo hi = some x := by
  unfold signedRangeAt
  simp only [h]
  simp [hlo, hhi]

theorem flagAt_of_num {bytes : List Byte} {first : Nat} {b : Bool} (h : num bytes first 1 = if b then 1 else 0) :
    flagAt bytes first = some b := by
  unfold flagAt
  cases b <;> simp [h]

end Sys2Proof.Machine
end

