-- ==== Sys2Proof/Laws/Correlator.lean ====
section
/-! SUPPORT. The correlator's sum of absolute differences (R52), pixel by pixel, the offsets of its
candidates and their ascending order. -/

namespace Sys2Proof.Machine

/-- A sum over rows of sums along a row, as one sum over the pixels. -/
theorem sum_range_mul (g : Nat → Nat → Nat) (n : Nat) (hn : 0 < n) (m : Nat) :
    ((List.range (m * n)).map (fun i => g (i / n) (i % n))).sum =
      ((List.range m).map (fun y => ((List.range n).map (g y)).sum)).sum := by
  induction m with
  | zero => simp
  | succ m ih =>
    rw [Nat.succ_mul, List.range_add, List.map_append, List.sum_append, ih, List.range_succ, List.map_append,
      List.sum_append, List.map_map]
    congr 1
    simp only [List.map_cons, List.map_nil, List.sum_cons, List.sum_nil, Nat.add_zero]
    congr 1
    refine List.map_congr_left fun x hx => ?_
    have hx := List.mem_range.mp hx
    simp only [Function.comp_apply]
    rw [Nat.add_comm, Nat.add_mul_div_right _ _ hn, Nat.div_eq_of_lt hx, Nat.zero_add, Nat.add_mul_mod_self_right,
      Nat.mod_eq_of_lt hx]

/-- The sum of absolute differences along two rows of one length, by position. -/
theorem rowSad_eq : ∀ (xs ys : List Byte), xs.length = ys.length →
    rowSad xs ys = ((List.range xs.length).map (fun k => distance (xs.getD k 0).toNat (ys.getD k 0).toNat)).sum
  | [], [], _ => rfl
  | x :: xs, y :: ys, h => by
    rw [rowSad, rowSad_eq xs ys (by simpa using h), List.length_cons, List.range_succ_eq_map, List.map_cons, List.map_map,
      List.sum_cons]
    rfl

/-- An element of a stretch of a list. -/
theorem getD_window (pixels : List Byte) (skip len k : Nat) (h : k < len) :
    ((pixels.drop skip).take len).getD k 0 = pixels.getD (skip + k) 0 := by
  simp [List.getD_eq_getElem?_getD, h]

/-- SAD(dx, dy) as R52 sums it, over two tile sets of 9,216 pixels. -/
theorem sadAt_eq (a b : List Byte) (i j : Nat) (ha : a.length = 9216) (hb : b.length = 9216) (hi : i < 15) (hj : j < 9) :
    sadAt (tileRows a) (tileRows b) i j = ((List.range 7296).map (fun n =>
      distance (a.getD (128 * (n / 114 + 4) + (n % 114 + 7)) 0).toNat
        (b.getD (128 * (n / 114 + j) + (n % 114 + i)) 0).toNat)).sum := by
  rw [show 7296 = 64 * 114 from rfl, sum_range_mul (fun y x => distance (a.getD (128 * (y + 4) + (x + 7)) 0).toNat
    (b.getD (128 * (y + j) + (x + i)) 0).toNat) 114 (by decide) 64, sadAt]
  congr 1
  refine List.ext_getElem (by simp [tileRows]; omega) fun y h1 h2 => ?_
  have hy : y < 64 := by simpa using h2
  simp only [List.getElem_zipWith, List.getElem_take, List.getElem_drop, tileRows, List.getElem_map, List.getElem_range]
  have hl : ∀ (p : List Byte) (r s : Nat), p.length = 9216 → r < 72 → s ≤ 14 →
      ((((p.drop (128 * r)).take 128).drop s).take 114).length = 114 := by
    intro p r s hp hr hs
    simp only [List.length_take, List.length_drop, hp]; omega
  rw [rowSad_eq _ _ (by rw [hl a _ _ ha (by omega) (by omega), hl b _ _ hb (by omega) (by omega)]),
    hl a _ _ ha (by omega) (by omega)]
  congr 1
  refine List.map_congr_left fun x hx => ?_
  have hx := List.mem_range.mp hx
  have hg : ∀ (p : List Byte) (r s : Nat), s ≤ 14 →
      ((((p.drop (128 * r)).take 128).drop s).take 114).getD x 0 = p.getD (128 * r + (x + s)) 0 := by
    intro p r s hs
    rw [getD_window _ _ _ _ hx, getD_window _ _ _ _ (by omega)]
    congr 1; omega
  rw [hg a _ _ (by omega), hg b _ _ (by omega), Nat.add_comm 4 y, Nat.add_comm j y]

/-- The 135 candidates (R52): each stands for one offset, with its SAD. -/
theorem mem_candidatesOf {a b : List Byte} {c : Candidate} (h : c ∈ candidatesOf a b) :
    ∃ i j : Nat, i < 15 ∧ j < 9 ∧ c.dx = (i : Int) - 7 ∧ c.dy = (j : Int) - 4 ∧
      c.sad = sadAt (tileRows a) (tileRows b) i j := by
  simp only [candidatesOf, List.mem_flatten, List.mem_map, List.mem_range] at h
  obtain ⟨l, ⟨j, hj, rfl⟩, hc⟩ := h
  obtain ⟨i, hi, rfl⟩ := List.mem_map.mp hc
  exact ⟨i, j, List.mem_range.mp hi, hj, rfl, rfl, rfl⟩

/-! ## The ascending order -/

theorem perm_insertCandidate (c : Candidate) : ∀ l, (insertCandidate c l).Perm (c :: l)
  | [] => .refl _
  | x :: xs => by
    unfold insertCandidate
    split
    · exact .refl _
    · exact ((perm_insertCandidate c xs).cons x).trans (.swap c x xs)

/-- The ascending order holds the candidates it was made of. -/
theorem perm_bySad : ∀ l, (bySad l).Perm l
  | [] => .refl _
  | x :: xs => (perm_insertCandidate x (bySad xs)).trans ((perm_bySad xs).cons x)

/-- A candidate stands before another in scan order (R52). -/
abbrev Candidate.scannedBefore (c d : Candidate) : Prop := c.dy < d.dy ∨ (c.dy = d.dy ∧ c.dx < d.dx)

/-- A candidate is better than another: by its SAD, and at equal SADs by scan order (R52). -/
abbrev Candidate.better (c d : Candidate) : Prop := c.sad < d.sad ∨ (c.sad = d.sad ∧ c.scannedBefore d)

theorem better_insertCandidate (c : Candidate) : ∀ l, l.Pairwise Candidate.better → (∀ d ∈ l, c.scannedBefore d) →
    (insertCandidate c l).Pairwise Candidate.better
  | [], _, _ => by simp [insertCandidate]
  | x :: xs, h, hb => by
    rw [List.pairwise_cons] at h
    unfold insertCandidate
    split
    · rw [List.pairwise_cons, List.pairwise_cons]
      refine ⟨fun d hd => ?_, h.1, h.2⟩
      have := hb d hd
      rcases List.mem_cons.mp hd with rfl | hd
      · simp only [Candidate.better, Candidate.scannedBefore] at this ⊢; omega
      · have := h.1 d hd; simp only [Candidate.better, Candidate.scannedBefore] at *; omega
    · rw [List.pairwise_cons]
      refine ⟨fun d hd => ?_, better_insertCandidate c xs h.2 (fun d hd => hb d (.tail _ hd))⟩
      rcases List.mem_cons.mp ((perm_insertCandidate c xs).mem_iff.mp hd) with rfl | hd
      · simp only [Candidate.better]; omega
      · exact h.1 d hd

/-- Candidates in scan order come out with each better than all that follow it. -/
theorem better_bySad : ∀ l : List Candidate, l.Pairwise Candidate.scannedBefore → (bySad l).Pairwise Candidate.better
  | [], _ => .nil
  | x :: xs, h => by
    rw [List.pairwise_cons] at h
    exact better_insertCandidate x _ (better_bySad xs h.2) (fun d hd => h.1 d ((perm_bySad xs).mem_iff.mp hd))

end Sys2Proof.Machine
end

