-- ==== Sys2Proof/Laws/Link.lean ====
section
/-! SUPPORT. What LNK and VOG do by themselves: settling leaves the bare state and the replies, a taken request completes. -/

namespace Sys2Proof.Machine

/-! ## The notice table without its sent flags -/

/-- A change that leaves all but the sent flag of a source's state. -/
theorem map_unsent_modifyAt (f : SourceState → SourceState) (hf : ∀ st, { f st with sent := false } = { st with sent := false }) :
    ∀ (n : Nat) (l : List SourceState),
      (modifyAt f n l).map (fun st => { st with sent := false }) = l.map (fun st => { st with sent := false })
  | _, [] => by simp [modifyAt]
  | 0, x :: xs => by simpa [modifyAt] using hf x
  | n + 1, x :: xs => by simp [modifyAt, map_unsent_modifyAt f hf n xs]

/-- Changing the sent flag of one source leaves LNK as it is without its sent flags. -/
theorem Lnk.unsent_setSent (lnk : Lnk) (src : Source) (b : Bool) :
    (lnk.modifySource src (fun st => { st with sent := b })).unsent = lnk.unsent := by
  unfold Lnk.modifySource Lnk.unsent
  simp only [map_unsent_modifyAt (fun st => { st with sent := b }) (fun _ => rfl)]

theorem Lnk.unsent_foldl_setSent (b : Bool) : ∀ (srcs : List Source) (lnk : Lnk),
    (srcs.foldl (fun l src => l.modifySource src (fun st => { st with sent := b })) lnk).unsent = lnk.unsent
  | [], _ => rfl
  | x :: xs, lnk => by
    rw [List.foldl_cons, Lnk.unsent_foldl_setSent b xs, Lnk.unsent_setSent]

theorem Lnk.sending_foldl_modify (f : SourceState → SourceState) : ∀ (srcs : List Source) (lnk : Lnk),
    (srcs.foldl (fun l src => l.modifySource src f) lnk).sending = lnk.sending
  | [], _ => rfl
  | x :: xs, lnk => by rw [List.foldl_cons, Lnk.sending_foldl_modify f xs]; rfl

/-- Withdrawing leaves LNK as it is without its messages and sent flags. -/
theorem Lnk.unsent_withdraw (lnk : Lnk) : lnk.withdraw.unsent = lnk.unsent := by
  have h := Lnk.unsent_foldl_setSent false
    (allSources.filter (fun src => lnk.waiting.contains (.notice src) && !lnk.qualifies src)) lnk
  simpa [Lnk.withdraw, Lnk.unsent] using h

theorem Lnk.unsent_queueNotice (lnk : Lnk) (src : Source) : (lnk.queueNotice src).unsent = lnk.unsent := by
  unfold Lnk.queueNotice
  split
  · have h := Lnk.unsent_setSent lnk src true
    simpa [Lnk.unsent] using h
  · rfl

theorem Lnk.unsent_foldl_queueNotice : ∀ (srcs : List Source) (lnk : Lnk),
    (srcs.foldl Lnk.queueNotice lnk).unsent = lnk.unsent
  | [], _ => rfl
  | x :: xs, lnk => by rw [List.foldl_cons, Lnk.unsent_foldl_queueNotice xs, Lnk.unsent_queueNotice]

theorem Lnk.unsent_transmit (lnk : Lnk) : lnk.transmit.unsent = lnk.unsent := by
  unfold Lnk.transmit
  split
  · rfl
  · split
    · rfl
    · split <;> rfl

/-- LNK following the table leaves it as it is without its messages, sent flags and ATTN. -/
theorem Lnk.unsent_follow (lnk : Lnk) : lnk.follow.unsent = lnk.unsent := by
  have h : lnk.follow.unsent = (lnk.withdraw.queueNotices).transmit.unsent := by
    unfold Lnk.follow; simp only [Lnk.unsent]
  rw [h, Lnk.unsent_transmit, Lnk.queueNotices, Lnk.unsent_foldl_queueNotice, Lnk.unsent_withdraw]

/-! ## The replies -/

theorem Lnk.replies_withdraw (lnk : Lnk) : lnk.withdraw.replies = lnk.replies := by
  have hs : lnk.withdraw.sending = lnk.sending := by
    show (List.foldl _ lnk _).sending = _
    exact Lnk.sending_foldl_modify _ _ _
  have hw : lnk.withdraw.waiting = lnk.waiting.filter lnk.stands := rfl
  unfold Lnk.replies
  rw [hs, hw, List.filter_filter]
  congr 1
  apply List.filter_congr
  intro m _
  cases m <;> simp [OutMsg.isNotice, Lnk.stands]

theorem Lnk.replies_queueNotice (lnk : Lnk) (src : Source) : (lnk.queueNotice src).replies = lnk.replies := by
  unfold Lnk.queueNotice
  split
  · simp [Lnk.replies, Lnk.modifySource, OutMsg.isNotice]
  · rfl

theorem Lnk.replies_foldl_queueNotice : ∀ (srcs : List Source) (lnk : Lnk),
    (srcs.foldl Lnk.queueNotice lnk).replies = lnk.replies
  | [], _ => rfl
  | x :: xs, lnk => by rw [List.foldl_cons, Lnk.replies_foldl_queueNotice xs, Lnk.replies_queueNotice]

theorem filter_erase_other {p : OutMsg → Bool} (m : OutMsg) (hp : p m = false) :
    ∀ (l : List OutMsg), (l.erase m).filter p = l.filter p
  | [] => rfl
  | x :: xs => by
    by_cases h : x = m
    · subst h; simp [hp]
    · rw [List.erase_cons_tail (by simpa using h)]
      simp [List.filter_cons, filter_erase_other m hp xs]

theorem filter_of_find {p : OutMsg → Bool} (m : OutMsg) :
    ∀ (l : List OutMsg), l.find? p = some m → l.filter p = m :: (l.erase m).filter p
  | [], h => by simp at h
  | x :: xs, h => by
    by_cases hx : p x = true
    · have : x = m := by simpa [List.find?_cons, hx] using h
      subst this
      simp [hx]
    · have h' : xs.find? p = some m := by simpa [List.find?_cons, hx] using h
      have hm : p m = true := List.find?_some h'
      have hne : x ≠ m := fun e => hx (e ▸ hm)
      rw [List.erase_cons_tail (by simpa using hne)]
      simpa [List.filter_cons, hx] using filter_of_find m xs h'

theorem Lnk.replies_transmit (lnk : Lnk) : lnk.transmit.replies = lnk.replies := by
  unfold Lnk.transmit
  split
  · rfl
  · rename_i hs
    have hs : lnk.sending = none := by simpa using hs
    split
    · rename_i code tag payload hr
      have h := filter_of_find (p := fun m => !m.isNotice) _ lnk.waiting hr
      simp only [Lnk.replies, hs, List.nil_append, h]
      rfl
    · split
      · rename_i src _
        have h := filter_erase_other (p := fun m => !m.isNotice) (.notice src) rfl lnk.waiting
        simp only [Lnk.replies, hs, h]
        rfl
      · rfl

theorem Lnk.replies_follow (lnk : Lnk) : lnk.follow.replies = lnk.replies := by
  have h : lnk.follow.replies = (lnk.withdraw.queueNotices).transmit.replies := by
    unfold Lnk.follow; simp only [Lnk.replies]
  rw [h, Lnk.replies_transmit, Lnk.queueNotices, Lnk.replies_foldl_queueNotice, Lnk.replies_withdraw]

/-! ## Settling -/

/-- The alert line's own moves leave VOG as it is without the lines that follow the table. -/
theorem Vog.plain_follow (vog : Vog) (rotation : List Source) : (vog.follow rotation).plain = vog.plain := by
  unfold Vog.follow
  split
  · split <;> rfl
  · rfl

/-- Settling leaves the bare state. -/
theorem State.bare_settle (s : State) : s.settle.bare = s.bare := by
  unfold State.settle
  dsimp only
  split
  · show State.mk _ _ _ _ _ _ _ _ _ _ _ _ _ = State.mk _ _ _ _ _ _ _ _ _ _ _ _ _
    simp only [State.mk.injEq, true_and, and_true]
    refine ⟨?_, Lnk.unsent_follow _⟩
    show (Vog.follow _ _).plain = _
    exact Vog.plain_follow _ _
  · show State.mk _ _ _ _ _ _ _ _ _ _ _ _ _ = State.mk _ _ _ _ _ _ _ _ _ _ _ _ _
    simp only [State.mk.injEq, true_and, and_true]
    exact ⟨rfl, Lnk.unsent_follow _⟩

@[simp] theorem State.settle_lnk (s : State) : s.settle.lnk = s.lnk.follow := by
  unfold State.settle; dsimp only; split <;> rfl

/-- Settling leaves the replies. -/
theorem State.replies_settle (s : State) : s.settle.lnk.replies = s.lnk.replies := by
  rw [State.settle_lnk, Lnk.replies_follow]

/-- A settled state follows the state it came from. -/
theorem Follows.settle (u : State) : Follows u u.settle := ⟨u.bare_settle, u.replies_settle⟩

theorem Follows.trans {u v w : State} (h : Follows u v) (h' : Follows v w) : Follows u w :=
  ⟨h'.1.trans h.1, h'.2.trans h.2⟩

/-! ## Completion -/

/-- A command that acts completes, when the part works. -/
theorem becomes_act {c : Instr} {s u : State} {f : State → State} (hw : s.works) (hc : exec c s = s.act f) (hf : f s = u) :
    Becomes c s u := by
  refine ⟨u.settle, ?_, Follows.settle u⟩
  have : s.inReset = false := by unfold State.inReset; rw [hw]; rfl
  rw [hc, State.act, this, hf]; rfl

/-- The dispatch of an empty inbound queue does nothing. -/
theorem State.dispatch_empty (fuel : Nat) (s : State) (h : s.lnk.inbound = []) : State.dispatch fuel s = s := by
  cases fuel with
  | zero => rfl
  | succ n => simp [State.dispatch, h]

theorem Lnk.inbound_follow (lnk : Lnk) : lnk.follow.inbound = lnk.inbound := by
  have h := congrArg Lnk.inbound (Lnk.unsent_follow lnk)
  simpa only [Lnk.unsent] using h

/-- A request that reaches a ready part is judged, its reply joins the outbound queue, and LNK and VOG follow. -/
theorem State.offer_ready {s u : State} {r : Request} {ans : Answer} (hs : s.ready) (hj : s.judgeRequest r = (u, ans))
    (hi : u.lnk.inbound = []) : s.offer r = (u.modifyLnk (fun lnk => lnk.pushReply r ans)).settle := by
  obtain ⟨-, hin, hrt, hpl⟩ := hs
  unfold State.offer
  rw [if_pos (by rw [hin]; decide)]
  show State.dispatch (3 + 1) _ = _
  unfold State.dispatch
  have h1 : (s.modifyLnk (fun lnk => { lnk with inbound := lnk.inbound ++ [r] })).lnk.inbound = [r] := by
    simp [State.modifyLnk, hin]
  rw [h1]
  dsimp only
  have h2 : ((s.modifyLnk (fun lnk => { lnk with inbound := lnk.inbound ++ [r] })).lnk.hasPlace &&
      !(s.modifyLnk (fun lnk => { lnk with inbound := lnk.inbound ++ [r] })).lnk.resetTaken) = true := by
    simp only [State.modifyLnk, Lnk.hasPlace, Lnk.places] at *
    simp only [hrt, Bool.not_false, Bool.and_true]
    exact decide_eq_true hpl
  rw [if_pos h2]
  have h3 : (s.modifyLnk (fun lnk => { lnk with inbound := lnk.inbound ++ [r] })).modifyLnk
      (fun lnk => { lnk with inbound := [] }) = s := by
    simp only [State.modifyLnk]
    cases s with | mk p f l st a b m rc sl v lk pw d =>
    cases lk
    simp at hin ⊢
    exact hin
  rw [h3]
  have h4 : s.serve r = (u.modifyLnk (fun lnk => lnk.pushReply r ans)).settle := by
    unfold State.serve; rw [hj]
  rw [h4, State.dispatch_empty]
  rw [State.settle_lnk, Lnk.inbound_follow]
  simpa [State.modifyLnk, Lnk.pushReply] using hi

/-- The reply fields that go out: none unless the status is OK or ACCEPTED (R176). -/
def Answer.sentBody (a : Answer) : List Byte :=
  match a.status with
  | .ok => a.body
  | .accepted => a.body
  | _ => []

/-- A request completes in a ready part, with what its judgement answers. -/
theorem answers_of {c : Instr} {req : Req} {tag : Byte} {payload : List Byte} {s u : State} {ans : Answer}
    {status : Status} {body : List Byte}
    (hs : s.ready) (hc : exec c s = s.receive req.code tag payload)
    (hj : s.judgeRequest { code := req.code, tag := tag, payload := payload } = (u, ans))
    (hi : u.lnk.inbound = []) (h1 : ans.status = status) (h2 : ans.sentBody = body) :
    Answers c req tag s u status body := by
  have hb := becomes_act (u := s.offer { code := req.code, tag := tag, payload := payload }) (f := fun s => s.offer _) hs.1 hc rfl
  obtain ⟨t, ht, hf⟩ := hb
  refine ⟨t, ht, ?_⟩
  refine Follows.trans ?_ hf
  rw [State.offer_ready hs hj hi]
  have : u.withReply req tag status body =
      u.modifyLnk (fun lnk => lnk.pushReply { code := req.code, tag := tag, payload := payload } ans) := by
    subst h1 h2
    unfold State.withReply State.modifyLnk Lnk.pushReply Answer.sentBody
    rfl
  rw [this]
  exact Follows.settle _

/-- The code table finds each request's row. -/
theorem reqOfCode_code (req : Req) : reqOfCode req.code = some (rowOfReq req) := by cases req <;> rfl

/-- A request whose length fits its row and whose block is on is taken by its block (R176). -/
theorem judgeRequest_taken {s : State} {req : Req} {tag : Byte} {payload : List Byte}
    (hleast : (rowOfReq req).least ≤ payload.length) (hgreatest : payload.length ≤ (rowOfReq req).greatest)
    (hblock : s.judgeBlock (rowOfReq req).owner payload = none) :
    s.judgeRequest { code := req.code, tag := tag, payload := payload } = takeRequest req payload s := by
  have hreq : (rowOfReq req).req = req := by cases req <;> rfl
  unfold State.judgeRequest State.judgeRow
  rw [reqOfCode_code]
  dsimp only
  rw [if_neg (by simp; omega), hblock, hreq]

/-- A request that its block takes completes in a ready part (R175, R176). -/
theorem answers_taken {req : Req} {tag : Byte} {payload : List Byte} {s u : State} {status : Status} {body sent : List Byte}
    (hs : s.ready) (hc : exec c s = s.receive req.code tag payload)
    (hleast : (rowOfReq req).least ≤ payload.length) (hgreatest : payload.length ≤ (rowOfReq req).greatest)
    (hblock : s.judgeBlock (rowOfReq req).owner payload = none)
    (ht : takeRequest req payload s = (u, { status := status, body := body }))
    (hi : u.lnk.inbound = []) (hb : Answer.sentBody { status := status, body := body } = sent) :
    Answers c req tag s u status sent :=
  answers_of hs hc ((judgeRequest_taken hleast hgreatest hblock).trans ht) hi rfl hb

end Sys2Proof.Machine
end

