-- ==== Sys2Proof/Laws/Memory.lean ====
section
/-! SUPPORT. The laws of the buffer memory: every operation keeps the canonical form, a byte written inside the memory reads
back, and a write leaves every other address as it was. -/

namespace Sys2Proof.Machine

theorem Memory.wfFrom_mono {low high : Nat} {m : Memory} (le : low ≤ high) (h : Memory.wfFrom high m = true) :
    Memory.wfFrom low m = true := by
  cases m with
  | nil => rfl
  | cons c rest =>
    obtain ⟨k, v⟩ := c
    simp only [Memory.wfFrom, Bool.and_eq_true, decide_eq_true_eq] at h ⊢
    exact ⟨⟨⟨by omega, h.1.1.2⟩, h.1.2⟩, h.2⟩

theorem Memory.put_wfFrom {low addr : Nat} {b : Byte} {rest : Memory} (le : low ≤ addr) (lt : addr < memorySize)
    (h : Memory.wfFrom (addr + 1) rest = true) : Memory.wfFrom low (Memory.put addr b rest) = true := by
  unfold Memory.put
  split
  · exact wfFrom_mono (by omega) h
  · simp_all [Memory.wfFrom]

theorem Memory.writeCell_wfFrom {low addr : Nat} {b : Byte} {m : Memory} (le : low ≤ addr) (lt : addr < memorySize)
    (h : Memory.wfFrom low m = true) : Memory.wfFrom low (m.writeCell addr b) = true := by
  induction m generalizing low with
  | nil => exact put_wfFrom le lt rfl
  | cons c rest ih =>
    obtain ⟨k, v⟩ := c
    simp only [Memory.wfFrom, Bool.and_eq_true, decide_eq_true_eq] at h
    simp only [Memory.writeCell]
    split
    · exact put_wfFrom le lt (by simp only [Memory.wfFrom, Bool.and_eq_true, decide_eq_true_eq]; exact ⟨⟨⟨by omega, h.1.1.2⟩, h.1.2⟩, h.2⟩)
    · split
      · subst addr; exact put_wfFrom le lt h.2
      · simp only [Memory.wfFrom, Bool.and_eq_true, decide_eq_true_eq]
        exact ⟨h.1, ih (by omega) h.2⟩

/-- A write keeps the canonical form. -/
theorem Memory.write_wf {m : Memory} {addr : Nat} {b : Byte} (h : m.wf = true) : (m.write addr b).wf = true := by
  unfold Memory.write
  split
  · exact writeCell_wfFrom (Nat.zero_le _) ‹_› h
  · exact h

/-- Writes at consecutive addresses keep the canonical form. -/
theorem Memory.writeBytes_wf {m : Memory} {addr : Nat} {bytes : List Byte} (h : m.wf = true) :
    (m.writeBytes addr bytes).wf = true := by
  induction bytes generalizing m addr with
  | nil => exact h
  | cons b rest ih => exact ih (write_wf h)

/-- The placing of bytes in a page list keeps the canonical form. -/
theorem Memory.place_wf {m : Memory} {pages : List Nat} {i : Nat} {bytes : List Byte} (h : m.wf = true) :
    (m.place pages i bytes).wf = true := by
  induction bytes generalizing m i with
  | nil => exact h
  | cons b rest ih => exact ih (write_wf h)

theorem Memory.read_below {low addr : Nat} {m : Memory} (h : Memory.wfFrom low m = true) (lt : addr < low) :
    m.read addr = emptyByte := by
  cases m with
  | nil => rfl
  | cons c rest =>
    obtain ⟨k, v⟩ := c
    simp only [Memory.wfFrom, Bool.and_eq_true, decide_eq_true_eq] at h
    simp only [Memory.read]
    rw [if_neg (by omega), if_pos (by omega)]

theorem Memory.read_put {addr a : Nat} {b : Byte} {rest : Memory} (h : Memory.wfFrom (addr + 1) rest = true) :
    (Memory.put addr b rest).read a = if a = addr then b else rest.read a := by
  unfold Memory.put
  split
  · split
    · subst a; rw [read_below h (by omega)]; exact (‹b = _›).symm
    · rfl
  · simp only [Memory.read]
    rcases Nat.lt_trichotomy a addr with lt | rfl | gt
    · rw [if_neg (by omega), if_pos lt, if_neg (by omega), read_below h (by omega)]
    · simp
    · rw [if_neg (by omega), if_neg (by omega), if_neg (by omega)]

theorem Memory.read_writeCell {low addr a : Nat} {b : Byte} {m : Memory} (h : Memory.wfFrom low m = true) :
    (m.writeCell addr b).read a = if a = addr then b else m.read a := by
  induction m generalizing low with
  | nil => exact read_put rfl
  | cons c rest ih =>
    obtain ⟨k, v⟩ := c
    have cell := h
    simp only [Memory.wfFrom, Bool.and_eq_true, decide_eq_true_eq] at h
    simp only [Memory.writeCell]
    split
    · exact read_put (by simp only [Memory.wfFrom, Bool.and_eq_true, decide_eq_true_eq]; exact ⟨⟨⟨by omega, h.1.1.2⟩, h.1.2⟩, h.2⟩)
    · split
      · subst addr
        rw [read_put h.2]
        simp only [Memory.read]
        split
        · rfl
        · rw [if_neg (fun e => ‹¬ a = k› e.symm)]
          split
          · exact read_below h.2 (by omega)
          · rfl
      · simp only [Memory.read]
        split
        · subst k; rw [if_neg (by omega)]
        · split
          · rw [if_neg (by omega)]
          · exact ih h.2

/-- A byte after a write inside the memory: the one written, or, at any other address, the one before. -/
theorem Memory.read_write {m : Memory} {addr a : Nat} {b : Byte} (h : m.wf = true) (lt : addr < memorySize) :
    (m.write addr b).read a = if a = addr then b else m.read a := by
  rw [Memory.write, if_pos lt]
  exact read_writeCell h

/-- A write at an address that does not exist changes nothing. -/
theorem Memory.write_outside {m : Memory} {addr : Nat} {b : Byte} (h : memorySize ≤ addr) : m.write addr b = m :=
  if_neg (by omega)

/-- Placing bytes leaves every address outside the pages as it was. -/
theorem Memory.read_place_other {m : Memory} {pages : List Nat} {i a : Nat} {bytes : List Byte} (h : m.wf = true)
    (other : ∀ j, i ≤ j → j < i + bytes.length → a ≠ pageAddress pages j) : (m.place pages i bytes).read a = m.read a := by
  induction bytes generalizing m i with
  | nil => rfl
  | cons b rest ih =>
    simp only [List.length_cons] at other
    rw [Memory.place, ih (write_wf h) (fun j lo hi => other j (by omega) (by omega))]
    by_cases lt : pageAddress pages i < memorySize
    · rw [read_write h lt, if_neg (other i (by omega) (by omega))]
    · rw [write_outside (by omega)]

/-- The buffer memory lists nothing at reset. -/
theorem State.reset_mem : State.reset.mem = [] := rfl

end Sys2Proof.Machine
end

