-- ==== Sys2Proof/Laws/Notice.lean ====
section
/-! SUPPORT. The notice table and the outbound queue (R166, R177 to R180): what a change of one source leaves, the order by level,
age and number, and what withdrawing, queueing and beginning a message can do. -/

namespace Sys2Proof.Machine

/-! ## One source of the table -/

theorem getElem?_modifyAt {α : Type} (f : α → α) : ∀ (n i : Nat) (l : List α),
    (modifyAt f n l)[i]? = if i = n then (l[i]?).map f else l[i]?
  | _, _, [] => by simp [modifyAt]
  | 0, 0, _ :: _ => by simp [modifyAt]
  | 0, _ + 1, _ :: _ => by simp [modifyAt]
  | _ + 1, 0, _ :: _ => by simp [modifyAt]
  | n + 1, i + 1, _ :: xs => by simp [modifyAt, getElem?_modifyAt f n i xs]

@[simp] theorem length_modifyAt {α : Type} (f : α → α) : ∀ (n : Nat) (l : List α), (modifyAt f n l).length = l.length
  | _, [] => by simp [modifyAt]
  | 0, _ :: _ => by simp [modifyAt]
  | n + 1, _ :: xs => by simp [modifyAt, length_modifyAt f n xs]

theorem Source.number_inj {x y : Source} (h : x.number = y.number) : x = y := by
  cases x <;> cases y <;> first | rfl | cases h

theorem Source.number_lt (x : Source) : x.number < 20 := by cases x <;> decide

theorem mem_allSources (x : Source) : x ∈ allSources := by cases x <;> decide

theorem allSources_nodup : allSources.Nodup := by decide

/-- A change of one source is that source's, and leaves every other. -/
theorem Lnk.source_modifySource {lnk : Lnk} (table : lnk.table.length = 20) (src : Source) (f : SourceState → SourceState)
    (x : Source) : (lnk.modifySource src f).source x = if x = src then f (lnk.source x) else lnk.source x := by
  have here : x.number < lnk.table.length := table ▸ x.number_lt
  simp only [Lnk.source, Lnk.modifySource, getElem?_modifyAt]
  by_cases h : x = src
  · subst h; simp [List.getElem?_eq_getElem here]
  · have : x.number ≠ src.number := fun e => h (Source.number_inj e)
    simp [h, this]

@[simp] theorem Lnk.table_modifySource (lnk : Lnk) (src : Source) (f : SourceState → SourceState) :
    (lnk.modifySource src f).table.length = lnk.table.length := by simp [Lnk.modifySource]

/-! ## The order of sources (R166, R177) -/

theorem Lnk.mem_insertInOrder (lnk : Lnk) (x y : Source) : ∀ l : List Source, y ∈ lnk.insertInOrder x l ↔ y = x ∨ y ∈ l
  | [] => by simp [Lnk.insertInOrder]
  | z :: zs => by
    unfold Lnk.insertInOrder
    split
    · simp
    · simp only [List.mem_cons, Lnk.mem_insertInOrder lnk x y zs]; tauto

theorem Lnk.insertInOrder_perm (lnk : Lnk) (x : Source) : ∀ l : List Source, (lnk.insertInOrder x l).Perm (x :: l)
  | [] => by simp [Lnk.insertInOrder]
  | z :: zs => by
    unfold Lnk.insertInOrder
    split
    · exact .refl _
    · exact ((Lnk.insertInOrder_perm lnk x zs).cons z).trans (.swap x z zs)

/-- The order neither adds a source nor loses one. -/
theorem Lnk.inOrder_perm (lnk : Lnk) : ∀ l : List Source, (lnk.inOrder l).Perm l
  | [] => .refl _
  | x :: xs => (lnk.insertInOrder_perm x _).trans ((Lnk.inOrder_perm lnk xs).cons x)

/-- Within half the range of serials, `older` is the order of the ages (R3). -/
theorem older_iff_age {x y base : Serial} (hx : (x - base).toNat < 2147483648) (hy : (y - base).toNat < 2147483648) :
    older x y = true ↔ (x - base).toNat < (y - base).toNat := by
  have e : (y - x).toNat = ((y - base).toNat + (4294967296 - (x - base).toNat)) % 4294967296 := by
    have : y - x = (y - base) - (x - base) := by
      apply BitVec.eq_of_toNat_eq; simp only [BitVec.toNat_sub]; omega
    rw [this, BitVec.toNat_sub]; omega
  simp only [older, e, Bool.and_eq_true, decide_eq_true_eq]
  omega

/-- Within half the range of serials, what is ahead precedes by the keys, and what is not is preceded. -/
theorem Lnk.ahead_iff_precedes {lnk : Lnk} {base : Serial} {x y : Source} (hx : lnk.age base x < 2147483648)
    (hy : lnk.age base y < 2147483648) (ne : x ≠ y) : lnk.ahead x y = true ↔ lnk.precedes base x y := by
  have nn : x.number ≠ y.number := fun e => ne (Source.number_inj e)
  have h1 := older_iff_age (x := (lnk.source x).firstSerial) (y := (lnk.source y).firstSerial) hx hy
  have h2 := older_iff_age (x := (lnk.source y).firstSerial) (y := (lnk.source x).firstSerial) hy hx
  unfold Lnk.ahead Lnk.precedes
  dsimp only
  by_cases hl : (lnk.source x).level = (lnk.source y).level
  · simp only [hl, bne_self_eq_false, Bool.false_eq_true, if_false, Nat.lt_irrefl, false_or, true_and]
    by_cases a : older (lnk.source x).firstSerial (lnk.source y).firstSerial = true
    · simp only [if_pos a, true_iff]; exact .inl (h1.mp a)
    · have na : ¬ lnk.age base x < lnk.age base y := fun k => a (h1.mpr k)
      by_cases b : older (lnk.source y).firstSerial (lnk.source x).firstSerial = true
      · have nb : lnk.age base y < lnk.age base x := h2.mp b
        simp only [if_neg a, if_pos b, Bool.false_eq_true, false_iff]; omega
      · have nb : ¬ lnk.age base y < lnk.age base x := fun k => b (h2.mpr k)
        simp only [if_neg a, if_neg b, decide_eq_true_eq]; omega
  · have : ((lnk.source x).level != (lnk.source y).level) = true := by simpa using hl
    simp only [this, if_true, decide_eq_true_eq]
    omega

theorem Lnk.precedes_trans {lnk : Lnk} {base : Serial} {x y z : Source} (h : lnk.precedes base x y)
    (k : lnk.precedes base y z) : lnk.precedes base x z := by
  unfold Lnk.precedes at *; omega

theorem Lnk.precedes_total (lnk : Lnk) (base : Serial) {x y : Source} (ne : x ≠ y) :
    lnk.precedes base x y ∨ lnk.precedes base y x := by
  have nn : x.number ≠ y.number := fun e => ne (Source.number_inj e)
  unfold Lnk.precedes; omega

theorem Lnk.insertInOrder_pairwise {lnk : Lnk} {base : Serial} {x : Source} (hx : lnk.age base x < 2147483648) :
    ∀ l : List Source, (∀ y ∈ l, lnk.age base y < 2147483648) → x ∉ l → l.Pairwise (lnk.precedes base) →
      (lnk.insertInOrder x l).Pairwise (lnk.precedes base)
  | [], _, _, _ => by simp [Lnk.insertInOrder]
  | z :: zs, ages, out, sorted => by
    obtain ⟨hz, hzs⟩ := List.pairwise_cons.mp sorted
    have ne : x ≠ z := fun e => out (e ▸ List.mem_cons_self)
    have first := Lnk.ahead_iff_precedes hx (ages z List.mem_cons_self) ne
    unfold Lnk.insertInOrder
    split
    · next h =>
      have xz := first.mp h
      refine List.pairwise_cons.mpr ⟨fun y hy => ?_, sorted⟩
      rcases List.mem_cons.mp hy with rfl | hy
      · exact xz
      · exact Lnk.precedes_trans xz (hz y hy)
    · next h =>
      have zx := (lnk.precedes_total base ne).resolve_left (fun k => h (first.mpr k))
      refine List.pairwise_cons.mpr ⟨fun y hy => ?_, Lnk.insertInOrder_pairwise hx zs
        (fun y hy => ages y (List.mem_cons_of_mem _ hy)) (fun k => out (List.mem_cons_of_mem _ k)) hzs⟩
      rcases (lnk.mem_insertInOrder x y zs).mp hy with rfl | hy
      · exact zx
      · exact hz y hy

/-- Sources in order stand by the keys, where their first occurrences lie within half the range of serials. -/
theorem Lnk.inOrder_pairwise {lnk : Lnk} {base : Serial} : ∀ l : List Source, l.Nodup →
    (∀ y ∈ l, lnk.age base y < 2147483648) → (lnk.inOrder l).Pairwise (lnk.precedes base)
  | [], _, _ => by simp [Lnk.inOrder]
  | x :: xs, nodup, ages => by
    obtain ⟨out, nodup⟩ := List.nodup_cons.mp nodup
    have perm := lnk.inOrder_perm xs
    exact Lnk.insertInOrder_pairwise (ages x List.mem_cons_self) _
      (fun y hy => ages y (List.mem_cons_of_mem _ (perm.mem_iff.mp hy))) (fun k => out (perm.mem_iff.mp k))
      (Lnk.inOrder_pairwise xs nodup (fun y hy => ages y (List.mem_cons_of_mem _ hy)))

/-- The sources of which a test holds, in order, are listed by the keys. -/
theorem Lnk.inOrder_lists (lnk : Lnk) (test : Source → Bool) :
    lnk.Lists (fun src => test src = true) (lnk.inOrder (allSources.filter test)) := by
  have perm := lnk.inOrder_perm (allSources.filter test)
  have nodup : (allSources.filter test).Nodup := allSources_nodup.filter _
  refine ⟨perm.nodup_iff.mpr nodup, fun src => ?_, fun base ages => ?_⟩
  · rw [perm.mem_iff, List.mem_filter]
    exact ⟨fun h => h.2, fun h => ⟨mem_allSources src, h⟩⟩
  · exact Lnk.inOrder_pairwise _ nodup (fun y hy => ages y (List.mem_filter.mp hy).2)

theorem Lnk.qualifies_iff_calls (lnk : Lnk) (src : Source) : lnk.qualifies src = true ↔ lnk.calls src := by
  simp [Lnk.qualifies, Lnk.calls, and_assoc]

theorem Lnk.alerts_iff_alarms (lnk : Lnk) (src : Source) : lnk.alerts src = true ↔ lnk.alarms src := by
  simp [Lnk.alerts, Lnk.alarms, and_assoc]

/-! ## Withdrawing -/

/-- Two records of LNK agree on a source but for its sent flag, and on the mask. -/
structure SameBut (l k : Lnk) : Prop where
  table : k.table.length = l.table.length
  mask : k.mask = l.mask
  source : ∀ src, { k.source src with sent := false } = { l.source src with sent := false }

theorem SameBut.qualifies {l k : Lnk} (h : SameBut l k) (src : Source) : k.qualifies src = l.qualifies src := by
  have e := h.source src
  simp only [SourceState.mk.injEq] at e
  simp only [Lnk.qualifies, h.mask, e.1, e.2.1, e.2.2.1, e.2.2.2.1]

theorem SameBut.ahead {l k : Lnk} (h : SameBut l k) (x y : Source) : k.ahead x y = l.ahead x y := by
  have e := h.source x
  have f := h.source y
  simp only [SourceState.mk.injEq] at e f
  have ex : (k.source x).firstSerial = (l.source x).firstSerial := by
    unfold SourceState.firstSerial; rw [e.2.2.2.2.2.1]
  have fy : (k.source y).firstSerial = (l.source y).firstSerial := by
    unfold SourceState.firstSerial; rw [f.2.2.2.2.2.1]
  simp only [Lnk.ahead, ex, fy, e.2.1, f.2.1]

theorem SameBut.insertInOrder {l k : Lnk} (h : SameBut l k) (x : Source) : ∀ srcs, k.insertInOrder x srcs = l.insertInOrder x srcs
  | [] => rfl
  | y :: ys => by simp only [Lnk.insertInOrder, h.ahead, SameBut.insertInOrder h x ys]

theorem SameBut.inOrder {l k : Lnk} (h : SameBut l k) : ∀ srcs, k.inOrder srcs = l.inOrder srcs
  | [] => rfl
  | x :: xs => by
    show k.insertInOrder x (k.inOrder xs) = l.insertInOrder x (l.inOrder xs)
    rw [SameBut.inOrder h xs, h.insertInOrder]

theorem SameBut.trans {l k m : Lnk} (h : SameBut l k) (h' : SameBut k m) : SameBut l m :=
  ⟨h'.table.trans h.table, h'.mask.trans h.mask, fun src => (h'.source src).trans (h.source src)⟩

theorem Lnk.source_foldl_setSent (b : Bool) : ∀ (srcs : List Source) (lnk : Lnk), lnk.table.length = 20 → ∀ x,
    (srcs.foldl (fun l src => l.modifySource src (fun st => { st with sent := b })) lnk).source x =
      if x ∈ srcs then { lnk.source x with sent := b } else lnk.source x
  | [], _, _, _ => by simp
  | y :: ys, lnk, table, x => by
    rw [List.foldl_cons, Lnk.source_foldl_setSent b ys _ (by simpa using table) x, Lnk.source_modifySource table]
    by_cases h : x = y <;> by_cases k : x ∈ ys <;> simp [h, k]

/-- What withdrawing does to the table (R179): the sent flag of each source that has a message waiting and qualifies no longer is
cleared, and nothing else changes. -/
theorem Lnk.source_withdraw {lnk : Lnk} (table : lnk.table.length = 20) (src : Source) :
    lnk.withdraw.source src =
      if OutMsg.notice src ∈ lnk.waiting ∧ ¬ lnk.calls src then { lnk.source src with sent := false } else lnk.source src := by
  have h := Lnk.source_foldl_setSent false
    (allSources.filter (fun src => lnk.waiting.contains (.notice src) && !lnk.qualifies src)) lnk table src
  have e : src ∈ allSources.filter (fun src => lnk.waiting.contains (.notice src) && !lnk.qualifies src) ↔
      OutMsg.notice src ∈ lnk.waiting ∧ ¬ lnk.calls src := by
    rw [List.mem_filter, ← Lnk.qualifies_iff_calls]
    simp [mem_allSources]
  simp only [e] at h
  exact h

theorem Lnk.table_foldl_setSent (b : Bool) : ∀ (srcs : List Source) (lnk : Lnk),
    (srcs.foldl (fun l src => l.modifySource src (fun st => { st with sent := b })) lnk).table.length = lnk.table.length
  | [], _ => rfl
  | _ :: ys, lnk => by rw [List.foldl_cons, Lnk.table_foldl_setSent b ys]; simp

theorem Lnk.mask_foldl_setSent (b : Bool) : ∀ (srcs : List Source) (lnk : Lnk),
    (srcs.foldl (fun l src => l.modifySource src (fun st => { st with sent := b })) lnk).mask = lnk.mask
  | [], _ => rfl
  | _ :: ys, lnk => by rw [List.foldl_cons, Lnk.mask_foldl_setSent b ys]; rfl

theorem Lnk.withdraw_same {lnk : Lnk} (table : lnk.table.length = 20) : SameBut lnk lnk.withdraw where
  table := Lnk.table_foldl_setSent false _ lnk
  mask := Lnk.mask_foldl_setSent false _ lnk
  source src := by rw [Lnk.source_withdraw table]; split <;> rfl

@[simp] theorem Lnk.waiting_withdraw (lnk : Lnk) : lnk.withdraw.waiting = lnk.waiting.filter lnk.stands := rfl

@[simp] theorem Lnk.sending_withdraw (lnk : Lnk) : lnk.withdraw.sending = lnk.sending := by
  show (List.foldl _ lnk _).sending = _
  exact Lnk.sending_foldl_modify _ _ _

theorem Lnk.drawn_foldl_setSent (b : Bool) : ∀ (srcs : List Source) (lnk : Lnk),
    (srcs.foldl (fun l src => l.modifySource src (fun st => { st with sent := b })) lnk).drawn = lnk.drawn
  | [], _ => rfl
  | _ :: ys, lnk => by rw [List.foldl_cons, Lnk.drawn_foldl_setSent b ys]; rfl

@[simp] theorem Lnk.drawn_withdraw (lnk : Lnk) : lnk.withdraw.drawn = lnk.drawn := Lnk.drawn_foldl_setSent false _ lnk

/-! ## Queueing -/

/-- What queueing the messages of some sources did: those of `joined` are queued, in their order, and their sent flags set. -/
structure Queued (l k : Lnk) (joined : List Source) : Prop where
  table : k.table.length = l.table.length
  mask : k.mask = l.mask
  waiting : k.waiting = l.waiting ++ joined.map OutMsg.notice
  sending : k.sending = l.sending
  drawn : k.drawn = l.drawn
  source : ∀ src, k.source src = if src ∈ joined then { l.source src with sent := true } else l.source src

theorem Queued.refl (l : Lnk) : Queued l l [] := ⟨rfl, rfl, by simp, rfl, rfl, by simp⟩

theorem Queued.trans {l k m : Lnk} {xs ys : List Source} (h : Queued l k xs) (h' : Queued k m ys) : Queued l m (xs ++ ys) where
  table := h'.table.trans h.table
  mask := h'.mask.trans h.mask
  waiting := by rw [h'.waiting, h.waiting]; simp
  sending := h'.sending.trans h.sending
  drawn := h'.drawn.trans h.drawn
  source src := by
    rw [h'.source, h.source]
    by_cases a : src ∈ xs <;> by_cases b : src ∈ ys <;> simp [a, b]

/-- A source that qualifies unsent and finds a place is queued; any other is not. -/
theorem Lnk.queueNotice_cases {lnk : Lnk} (table : lnk.table.length = 20) (src : Source) :
    ((lnk.unsentNow src && lnk.hasNoticePlace) = true ∧ Queued lnk (lnk.queueNotice src) [src]) ∨
      ((lnk.unsentNow src && lnk.hasNoticePlace) = false ∧ lnk.queueNotice src = lnk) := by
  unfold Lnk.queueNotice
  by_cases h : (lnk.unsentNow src && lnk.hasNoticePlace) = true
  · rw [if_pos h]
    refine .inl ⟨h, by simp, rfl, by simp, rfl, rfl, fun x => ?_⟩
    have := Lnk.source_modifySource table src (fun st => { st with sent := true }) x
    simpa [Lnk.source, Lnk.modifySource] using this
  · rw [if_neg h]
    exact .inr ⟨by simpa using h, rfl⟩

theorem Queued.unsentNow {l k : Lnk} {joined : List Source} (h : Queued l k joined) {src : Source} (out : src ∉ joined) :
    k.unsentNow src = l.unsentNow src := by
  have e := h.source src
  rw [if_neg out] at e
  simp only [Lnk.unsentNow, Lnk.qualifies, e, h.mask]

/-- Without a place for a notice message, none is queued. -/
theorem Lnk.foldl_queueNotice_full : ∀ (srcs : List Source) (lnk : Lnk), lnk.hasNoticePlace = false →
    srcs.foldl Lnk.queueNotice lnk = lnk
  | [], _, _ => rfl
  | x :: xs, lnk, full => by
    have : lnk.queueNotice x = lnk := by simp [Lnk.queueNotice, full]
    rw [List.foldl_cons, this, Lnk.foldl_queueNotice_full xs lnk full]

/-- Of sources that qualify unsent, a first part is queued, and with a rest left over no place is free. -/
theorem Lnk.foldl_queueNotice : ∀ (srcs : List Source) (lnk : Lnk), lnk.table.length = 20 → srcs.Nodup →
    (∀ src ∈ srcs, lnk.unsentNow src = true) →
    ∃ joined left, srcs = joined ++ left ∧ Queued lnk (srcs.foldl Lnk.queueNotice lnk) joined ∧
      (left ≠ [] → (srcs.foldl Lnk.queueNotice lnk).hasNoticePlace = false)
  | [], lnk, _, _, _ => ⟨[], [], rfl, .refl lnk, fun h => absurd rfl h⟩
  | x :: xs, lnk, table, nodup, unsent => by
    obtain ⟨out, nodup⟩ := List.nodup_cons.mp nodup
    rw [List.foldl_cons]
    rcases Lnk.queueNotice_cases table x with ⟨_, q⟩ | ⟨h, e⟩
    · obtain ⟨joined, left, split, q', full⟩ := Lnk.foldl_queueNotice xs (lnk.queueNotice x) (q.table.trans table) nodup
        (fun y hy => by
          rw [q.unsentNow (by simp; exact fun e => out (e ▸ hy))]; exact unsent y (List.mem_cons_of_mem _ hy))
      exact ⟨x :: joined, left, by rw [split]; rfl, q.trans q', full⟩
    · have full : lnk.hasNoticePlace = false := by simpa [unsent x List.mem_cons_self] using h
      rw [e, Lnk.foldl_queueNotice_full xs lnk full]
      exact ⟨[], x :: xs, rfl, .refl lnk, fun _ => full⟩

/-- What queueing does (R179): of the qualifying sources with a clear sent flag, listed by the keys, a first part is queued in that
order, and with a rest left over no place is free. -/
theorem Lnk.queueNotices_queues {lnk : Lnk} (table : lnk.table.length = 20) :
    ∃ joined left, lnk.Lists (fun src => lnk.unsentNow src = true) (joined ++ left) ∧
      Queued lnk lnk.queueNotices joined ∧ (left ≠ [] → lnk.queueNotices.hasNoticePlace = false) := by
  have lists := lnk.inOrder_lists lnk.unsentNow
  obtain ⟨joined, left, split, q, full⟩ := Lnk.foldl_queueNotice (lnk.inOrder (allSources.filter lnk.unsentNow)) lnk table
    lists.1 (fun src h => (lists.2.1 src).mp h)
  exact ⟨joined, left, split ▸ lists, q, full⟩

/-! ## Beginning a message -/

/-- What the arbiter can do (R177): nothing while a message is being sent or none waits; else one of the waiting messages begins. -/
theorem Lnk.transmit_cases (lnk : Lnk) :
    (lnk.sending.isSome = true ∧ lnk.transmit = lnk) ∨ (lnk.sending = none ∧ lnk.waiting = [] ∧ lnk.transmit = lnk) ∨
      (lnk.sending = none ∧ ∃ x : Sending, x.msg ∈ lnk.waiting ∧ lnk.transmit.sending = some x ∧
        lnk.transmit.waiting = lnk.waiting.erase x.msg ∧ lnk.transmit.table = lnk.table ∧ lnk.transmit.mask = lnk.mask) := by
  unfold Lnk.transmit
  by_cases h : lnk.sending.isSome = true
  · exact .inl ⟨h, by rw [if_pos h]⟩
  have idle : lnk.sending = none := by simpa using h
  rw [if_neg h]
  by_cases none' : lnk.waiting = []
  · refine .inr (.inl ⟨idle, none', ?_⟩)
    simp [Lnk.oldestReply, Lnk.nextNotice, none', Lnk.inOrder]
  refine .inr (.inr ⟨idle, ?_⟩)
  split
  · next code tag payload find => exact ⟨{ msg := .reply code tag payload, frame := _ }, List.mem_of_find?_eq_some find, rfl, rfl, rfl, rfl⟩
  · next noReply =>
    split
    · next src first =>
      refine ⟨_, ?_, rfl, rfl, rfl, rfl⟩
      have mem := (lnk.inOrder_perm _).mem_iff.mp (List.mem_of_head? first)
      simpa using (List.mem_filter.mp mem).2
    · next noNotice =>
      exfalso
      obtain ⟨m, hm⟩ := List.exists_mem_of_ne_nil _ none'
      cases m with
      | reply code tag payload =>
        have : ∃ r, lnk.oldestReply = some r := by
          rw [← Option.isSome_iff_exists, Lnk.oldestReply, List.find?_isSome]
          exact ⟨_, hm, by simp [OutMsg.isNotice]⟩
        obtain ⟨r, hr⟩ := this
        have notNotice := List.find?_some hr
        cases r with
        | reply c t p => exact noReply c t p hr
        | notice s => simp [OutMsg.isNotice] at notNotice
      | notice src =>
        have mem : src ∈ lnk.inOrder (allSources.filter (fun src => lnk.waiting.contains (.notice src))) := by
          rw [(lnk.inOrder_perm _).mem_iff, List.mem_filter]
          exact ⟨mem_allSources src, by simpa using hm⟩
        rw [Lnk.nextNotice, List.head?_eq_none_iff] at noNotice
        rw [noNotice] at mem
        cases mem

/-- The arbiter leaves the places as they are taken, since a message keeps its place until it has been sent (R177). -/
theorem Lnk.places_transmit (lnk : Lnk) :
    lnk.transmit.places = lnk.places ∧ lnk.transmit.noticePlaces = lnk.noticePlaces := by
  rcases lnk.transmit_cases with ⟨_, e⟩ | ⟨_, _, e⟩ | ⟨idle, x, mem, hs, hw, -, -⟩
  · rw [e]; exact ⟨rfl, rfl⟩
  · rw [e]; exact ⟨rfl, rfl⟩
  · have len := List.length_erase_of_mem mem
    have pos : 0 < lnk.waiting.length := List.length_pos_of_mem mem
    constructor
    · simp only [Lnk.places, hs, hw, idle, len]; simp; omega
    · simp only [Lnk.noticePlaces, hs, hw, idle]
      have cons := (List.perm_cons_erase mem).filter OutMsg.isNotice
      have := cons.length_eq
      rw [this]
      by_cases n : x.msg.isNotice = true <;> simp [n]

end Sys2Proof.Machine
end

