-- ==== Sys2Proof/Laws/Writer.lean ====
section
/-! SUPPORT. What the card writers' shared operations leave alone: everything but their slots and LNK's notice side; and what they
do to the room on a card. -/

namespace Sys2Proof.Machine

/-- `v` differs from `u` in the card slots and in LNK alone, and there not in the inbound queue, the messages, the mask and the
counts. -/
structure CardsOnly (u v : State) : Prop where
  pending : v.pending = u.pending
  ftb : v.ftb = u.ftb
  lnc : v.lnc = u.lnc
  stb : v.stb = u.stb
  aud : v.aud = u.aud
  bfm : v.bfm = u.bfm
  mem : v.mem = u.mem
  rcd : v.rcd = u.rcd
  vog : v.vog = u.vog
  pwc : v.pwc = u.pwc
  due : v.due = u.due
  inbound : v.lnk.inbound = u.lnk.inbound
  waiting : v.lnk.waiting = u.lnk.waiting
  sending : v.lnk.sending = u.lnk.sending
  kept : v.lnk.kept = u.lnk.kept
  resetTaken : v.lnk.resetTaken = u.lnk.resetTaken

theorem CardsOnly.refl (u : State) : CardsOnly u u := by constructor <;> rfl

theorem CardsOnly.trans {u v w : State} (h : CardsOnly u v) (k : CardsOnly v w) : CardsOnly u w := by
  constructor
  · rw [k.pending, h.pending]
  · rw [k.ftb, h.ftb]
  · rw [k.lnc, h.lnc]
  · rw [k.stb, h.stb]
  · rw [k.aud, h.aud]
  · rw [k.bfm, h.bfm]
  · rw [k.mem, h.mem]
  · rw [k.rcd, h.rcd]
  · rw [k.vog, h.vog]
  · rw [k.pwc, h.pwc]
  · rw [k.due, h.due]
  · rw [k.inbound, h.inbound]
  · rw [k.waiting, h.waiting]
  · rw [k.sending, h.sending]
  · rw [k.kept, h.kept]
  · rw [k.resetTaken, h.resetTaken]

/-- An occurrence changes LNK's table and free-byte counter alone. -/
theorem Lnk.occur_keeps (lnk : Lnk) (n : Serial) (src : Source) (detail : List (Option Byte)) :
    (lnk.occur n src detail).inbound = lnk.inbound ∧ (lnk.occur n src detail).waiting = lnk.waiting ∧
      (lnk.occur n src detail).sending = lnk.sending ∧ (lnk.occur n src detail).kept = lnk.kept ∧
      (lnk.occur n src detail).resetTaken = lnk.resetTaken := by
  unfold Lnk.occur
  dsimp only
  by_cases h : (!(lnk.source src).enabled) = true
  · simp only [if_pos h, and_self]
  · simp only [if_neg h]
    by_cases k : (lnk.source src).pending = true
    · simp only [if_pos k]; exact ⟨rfl, rfl, rfl, rfl, rfl⟩
    · simp only [if_neg k]; exact ⟨rfl, rfl, rfl, rfl, rfl⟩

theorem CardsOnly.notify (u : State) (src : Source) (detail : List (Option Byte)) : CardsOnly u (u.notify src detail) := by
  obtain ⟨h1, h2, h3, h4, h5⟩ := Lnk.occur_keeps u.lnk u.ftb.serial src detail
  constructor <;> first | rfl | assumption

theorem CardsOnly.report (u : State) (src : Source) (detail : List Byte) : CardsOnly u (u.report src detail) :=
  CardsOnly.notify u src _

theorem CardsOnly.setSlot (u : State) (side : Side) (c : CardSlot) : CardsOnly u (u.setSlot side c) := by
  constructor <;> rfl

theorem CardsOnly.modifySlot (u : State) (side : Side) (f : CardSlot → CardSlot) : CardsOnly u (u.modifySlot side f) :=
  CardsOnly.setSlot u side _

theorem CardsOnly.reportFull (u : State) (side : Side) : CardsOnly u (u.reportFull side) := by
  unfold State.reportFull
  split
  · exact .refl u
  · exact .report u _ _

theorem CardsOnly.judgeFull (u : State) (side : Side) : CardsOnly u (u.judgeFull side) := by
  unfold State.judgeFull
  split
  · exact .refl u
  · split
    · exact (CardsOnly.modifySlot u side _).trans (.reportFull _ side)
    · exact .refl u

theorem CardsOnly.judgeNearFull (u : State) (side : Side) : CardsOnly u (u.judgeNearFull side) := by
  unfold State.judgeNearFull
  dsimp only
  split
  · exact .refl u
  · split
    · exact .modifySlot u side _
    · split
      · exact .refl u
      · exact (CardsOnly.modifySlot u side _).trans (.report _ _ _)

theorem CardsOnly.openExtent (u : State) (side : Side) : CardsOnly u (u.openExtent side) := by
  unfold State.openExtent
  dsimp only
  split
  · exact ((CardsOnly.setSlot u side _).trans (.judgeFull _ side)).trans (.judgeNearFull _ side)
  · exact .refl u

theorem CardsOnly.writerWork {u v : State} {side : Side} (h : u.writerWork side = some v) : CardsOnly u v := by
  unfold State.writerWork at h
  dsimp only at h
  split at h
  · cases h
  · split at h
    · cases h
    · split at h
      · split at h
        · cases h; exact (CardsOnly.setSlot u side _).trans (.openExtent _ side)
        · cases h; exact .setSlot u side _
      · cases h; exact .openExtent u side
      · split at h
        · split at h
          · cases h; exact .setSlot u side _
          · cases h
        · split at h
          · cases h; exact .setSlot u side _
          · cases h
        · cases h

theorem CardsOnly.writerLoop (side : Side) : ∀ (fuel : Nat) (u : State), CardsOnly u (State.writerLoop fuel side u)
  | 0, u => .refl u
  | fuel + 1, u => by
    unfold State.writerLoop
    split
    · next v h => exact (CardsOnly.writerWork h).trans (CardsOnly.writerLoop side fuel v)
    · split
      · next c _ => exact (CardsOnly.setSlot u side c).trans (CardsOnly.writerLoop side fuel _)
      · exact .refl u

/-- The writer at work touches its slot and reports to LNK, and nothing else. -/
theorem CardsOnly.runWriter (u : State) (side : Side) : CardsOnly u (u.runWriter side) :=
  (CardsOnly.writerLoop side 64 u).trans (.modifySlot _ side _)

theorem CardsOnly.nameLast (u : State) (side : Side) (last : LastUnit) : CardsOnly u (u.nameLast side last) :=
  (CardsOnly.modifySlot u side _).trans (.runWriter _ side)

theorem CardsOnly.openCopy (u : State) (side : Side) (flags : CopyFlags) (continues : Option CopyRef) :
    CardsOnly u (u.openCopy side flags continues).1 := by
  unfold State.openCopy
  dsimp only
  split
  · exact .refl u
  · exact ((CardsOnly.setSlot u side _).trans (.judgeFull _ side)).trans (.runWriter _ side)

theorem CardsOnly.takeUnit (u : State) (side : Side) (x : RecUnit) : CardsOnly u (u.takeUnit side x) := by
  unfold State.takeUnit
  refine CardsOnly.trans ?_ (.runWriter _ side)
  refine CardsOnly.trans ?_ (.modifySlot _ side _)
  unfold State.readyExtent
  split
  · exact .openExtent u side
  · split
    · exact (CardsOnly.modifySlot u side _).trans (.openExtent _ side)
    · exact .refl u

/-! ## The room on a card -/

theorem getD_ite_none (p : Prop) [Decidable p] (x n : Nat) :
    (if (!decide p) = true then (none : Option Nat) else some x).getD n = if p then x else n := by
  by_cases h : p
  · rw [if_pos h, if_neg (by simp [h])]; rfl
  · rw [if_neg h, if_pos (by simp [h])]; rfl

/-- The remaining time of a slot that holds a summary, 65,535 while it is unknown (R150, R194). -/
theorem CardSlot.remainingTime_eq (c : CardSlot) (nominal : Nat) {sum : Summary} (h : c.summary = some sum) :
    (c.remainingTime nominal).getD 65535 =
      if (c.state = .ready ∨ c.state = .full) ∧ c.sizes ≠ [] then
        min 999 (sum.freeExtents * essenceBytes / (c.sizes.sum / c.sizes.length * nominal * 60))
      else 65535 := by
  have room : (!(c.state == .ready || c.state == .full) || c.sizes.isEmpty) =
      !decide ((c.state = .ready ∨ c.state = .full) ∧ c.sizes ≠ []) := by
    cases hs : c.sizes <;> cases c.state <;> simp
  unfold CardSlot.remainingTime
  rw [h]
  dsimp only
  rw [room]
  exact getD_ite_none _ _ _

/-- The byte of CARD_FULL's slot and cause (R195). -/
theorem packFlags_slot_cause (side : Side) (free : Nat) :
    packFlags [side == .b, free != 0] = side.code + if free = 0 then 0 else 2 := by
  by_cases h : free = 0 <;> cases side <;> simp [h, packFlags, Side.code]

/-- Judging the room changes the slot's state and LNK, as `State.roomJudged` says (R149). -/
theorem State.judgeFull_judges (s : State) (side : Side) {sum : Summary} (h : (s.slot side).summary = some sum) :
    let judged := s.roomJudged side sum.header.label sum.freeExtents sum.entries.length
    (s.judgeFull side).slot side = { s.slot side with state := judged.1 } ∧ (s.judgeFull side).lnk = judged.2 := by
  unfold State.judgeFull State.roomJudged
  rw [h]
  dsimp only
  by_cases k : (s.slot side).state = .ready ∧ (sum.freeExtents = 0 ∨ 999 ≤ sum.entries.length)
  · rw [if_pos k, if_pos (by simpa [Summary.isFull] using k)]
    have sm : ((s.modifySlot side fun c => { c with state := .full }).slot side).summary = some sum := by
      rw [State.slot_modifySlot_same]; exact h
    unfold State.reportFull
    rw [sm]
    dsimp only
    refine ⟨?_, ?_⟩
    · rw [State.slot_report, State.slot_modifySlot_same]
    · rw [packFlags_slot_cause]; rfl
  · rw [if_neg k, if_neg (by simpa [Summary.isFull] using k)]
    exact ⟨rfl, rfl⟩

/-- The next free extent becomes current (R146), and the slot's state, its near-full flag and LNK are what `State.extentUsed` says
(R149). -/
theorem State.openExtent_consumes (s : State) (side : Side) {sum : Summary} {copy : WriterCopy}
    (h : (s.slot side).summary = some sum) (hc : (s.slot side).copy = some copy) :
    (s.openExtent side).slot side = { s.slot side with
      state := (s.extentUsed side sum).1
      nearFull := (s.extentUsed side sum).2.1
      summary := some { sum with nextFree := sum.nextFree + 1 }
      copy := some { copy with
        consumed := copy.consumed + 1
        current := some { chunk := .empty sum.nextFree 1, listed := [] } } } ∧
    (s.openExtent side).lnk = (s.extentUsed side sum).2.2 := by
  unfold State.openExtent
  dsimp only
  rw [h, hc]
  dsimp only
  generalize hu : s.setSlot side _ = u
  have us : u.slot side = { s.slot side with
      summary := some { sum with nextFree := sum.nextFree + 1 }
      copy := some { copy with
        consumed := copy.consumed + 1
        current := some { chunk := .empty sum.nextFree 1, listed := [] } } } := by
    rw [← hu, State.slot_setSlot_same]
  have ul : u.lnk = s.lnk := by rw [← hu]; rfl
  have uf : u.ftb = s.ftb := by rw [← hu]; rfl
  obtain ⟨a, b⟩ := u.judgeFull_judges side (sum := { sum with nextFree := sum.nextFree + 1 }) (by rw [us])
  have r : u.roomJudged side sum.header.label (sum.header.extents - (sum.nextFree + 1)) sum.entries.length =
      s.roomJudged side sum.header.label (sum.header.extents - (sum.nextFree + 1)) sum.entries.length := by
    unfold State.roomJudged
    simp only [us, State.report, State.notify, ul, uf]
  have jf : (u.judgeFull side).ftb = s.ftb := ((CardsOnly.judgeFull u side).ftb).trans uf
  simp only [Summary.freeExtents, r, us] at a b
  generalize hj : u.judgeFull side = j at *
  unfold State.judgeNearFull State.extentUsed
  simp only [a, Summary.freeExtents]
  generalize s.roomJudged side sum.header.label (sum.header.extents - (sum.nextFree + 1)) sum.entries.length = rj at *
  obtain ⟨st, lk⟩ := rj
  simp only at *
  by_cases hn : (s.slot side).threshold < sum.header.extents - (sum.nextFree + 1)
  · rw [if_pos hn]
    have : ¬ (sum.header.extents - (sum.nextFree + 1) ≤ (s.slot side).threshold) := by omega
    simp only [this, decide_false, Bool.false_and, Bool.false_eq_true, if_false]
    refine ⟨?_, b⟩
    rw [State.slot_modifySlot_same, a]
  · rw [if_neg hn]
    have : (sum.header.extents - (sum.nextFree + 1) ≤ (s.slot side).threshold) := by omega
    simp only [this, decide_true, Bool.true_and]
    by_cases hf : (s.slot side).nearFull = true
    · rw [if_pos hf]
      simp only [hf, Bool.not_true, Bool.false_eq_true, if_false]
      exact ⟨a.trans (by simp [hf]), b⟩
    · rw [if_neg hf]
      simp only [hf, Bool.not_false, if_true]
      refine ⟨?_, ?_⟩
      · rw [State.slot_report, State.slot_modifySlot_same, a]
      · simp only [State.report, State.notify, State.modifySlot_lnk, State.modifySlot_ftb, b, jf]
        congr 3
        unfold CardSlot.remainingBytes
        rw [CardSlot.remainingTime_eq (sum := { sum with nextFree := sum.nextFree + 1 }) _ _ rfl,
          show essenceBytes = 3932160 from rfl]
        rfl

/-- Closing the current extent leaves the slot's state and summary. -/
theorem CardSlot.closeExtent_keeps (c : CardSlot) : c.closeExtent.summary = c.summary ∧ c.closeExtent.state = c.state := by
  unfold CardSlot.closeExtent
  split
  · exact ⟨rfl, rfl⟩
  · split <;> exact ⟨rfl, rfl⟩

/-- Filling a place of the write queue leaves the slot's state and summary. -/
theorem CardSlot.fillPlace_keeps {c c' : CardSlot} (h : c.fillPlace = some c') : c'.summary = c.summary ∧ c'.state = c.state := by
  unfold CardSlot.fillPlace at h
  split at h
  · cases h
  · split at h
    · cases h; exact ⟨rfl, rfl⟩
    · split at h
      · cases h
      · split at h
        · cases h; exact ⟨rfl, rfl⟩
        · split at h
          · cases h; exact ⟨rfl, rfl⟩
          · cases h

/-- Issuing a command leaves the slot's state and summary. -/
theorem CardSlot.issue_keeps (c : CardSlot) : c.issue.summary = c.summary ∧ c.issue.state = c.state := by
  unfold CardSlot.issue
  split
  · exact ⟨rfl, rfl⟩
  · split <;> exact ⟨rfl, rfl⟩

end Sys2Proof.Machine
end

