-- ==== Sys2Proof/WellFormed.lean ====
section
/-! DEFINITION. Which commands are well formed: the operands a sender of commands may give. The meanings are total, so an
ill-formed command harms nothing; no port of the part can carry one. -/

namespace Sys2Proof

/-- A request payload fits a frame (R172). -/
def payloadOk (payload : List Byte) : Bool := payload.length ≤ 1024

/-- A read answer gives a whole sector, a whole index block, or the size alone (R134, R139). -/
def ReadAnswer.wellFormed : ReadAnswer → Bool
  | .error => true
  | .done _ bytes => bytes.length == 0 || bytes.length == 512 || bytes.length == 4096

/-- The well-formed commands. -/
def Instr.wellFormed : Instr → Bool
  | .frameStartEdge _ => true
  | .substitutionTimer => true
  | .lncFrameStart => true
  | .lensReport _ => true
  | .reportWindowExpiry => true
  | .gyroReadDue => true
  | .gyroAnswer _ _ _ => true
  | .tileSetComplete _ _ => true
  | .correlationComplete => true
  | .stbFrameStart => true
  | .sampleFrame _ _ _ => true
  | .audFrameStart => true
  | .bfmFrameStart => true
  | .essenceHeader _ _ _ => true
  | .essenceData bytes => !bytes.isEmpty
  | .rcdFrameStart => true
  | .vogFrameStart => true
  | .overlaySent => true
  | .recLinePress => true
  | .unitTake _ => true
  | .commandComplete _ _ => true
  | .cardReadComplete _ answer => answer.wellFormed
  | .cardTimeout _ => true
  | .cardDetectChange _ _ => true
  | .protectChange _ _ => true
  | .byteArrival _ => true
  | .lineFramingError => true
  | .gapTimeout => true
  | .messageSent => true
  | .powerOnReset => true
  | .resetEnd _ _ _ _ => true
  | .unknownRequest code _ payload => (reqOfCode code).isNone && payloadOk payload
  | .frameConfig _ payload => payloadOk payload
  | .tcPreset _ payload => payloadOk payload
  | .tcMode _ payload => payloadOk payload
  | .tcUserbits _ payload => payloadOk payload
  | .tcTrigger _ payload => payloadOk payload
  | .intervalConfig _ payload => payloadOk payload
  | .timeQuery _ payload => payloadOk payload
  | .zoomRate _ payload => payloadOk payload
  | .focusRate _ payload => payloadOk payload
  | .lensGoto _ payload => payloadOk payload
  | .lensStop _ payload => payloadOk payload
  | .presetStore _ payload => payloadOk payload
  | .presetRecall _ payload => payloadOk payload
  | .irisSet _ payload => payloadOk payload
  | .irisAuto _ payload => payloadOk payload
  | .zoomCurveLoad _ payload => payloadOk payload
  | .lensConfig _ payload => payloadOk payload
  | .lensQuery _ payload => payloadOk payload
  | .stabConfig _ payload => payloadOk payload
  | .stabMode _ payload => payloadOk payload
  | .stabRecentre _ payload => payloadOk payload
  | .stabQuery _ payload => payloadOk payload
  | .audioRoute _ payload => payloadOk payload
  | .audioGain _ payload => payloadOk payload
  | .audioLimiter _ payload => payloadOk payload
  | .audioQuery _ payload => payloadOk payload
  | .auxAttach _ payload => payloadOk payload
  | .markFrame _ payload => payloadOk payload
  | .prerecConfig _ payload => payloadOk payload
  | .holdSet _ payload => payloadOk payload
  | .holdClear _ payload => payloadOk payload
  | .holdRetain _ payload => payloadOk payload
  | .bufferQuery _ payload => payloadOk payload
  | .slotMode _ payload => payloadOk payload
  | .recStart _ payload => payloadOk payload
  | .recStop _ payload => payloadOk payload
  | .recQuery _ payload => payloadOk payload
  | .cardFormat _ payload => payloadOk payload
  | .cardEject _ payload => payloadOk payload
  | .catalogueRead _ payload => payloadOk payload
  | .cardConfig _ payload => payloadOk payload
  | .cardQuery _ payload => payloadOk payload
  | .vfItemSet _ payload => payloadOk payload
  | .vfItemClear _ payload => payloadOk payload
  | .vfText _ payload => payloadOk payload
  | .vfConfig _ payload => payloadOk payload
  | .noticeConfig _ payload => payloadOk payload
  | .noticeMask _ payload => payloadOk payload
  | .noticeClear _ payload => payloadOk payload
  | .noticeQuery _ payload => payloadOk payload
  | .powerStandby _ payload => payloadOk payload
  | .powerRun _ payload => payloadOk payload
  | .blockEnable _ payload => payloadOk payload
  | .partReset _ payload => payloadOk payload

end Sys2Proof
end

