-- ==== Sys2Proof/Tests/Slice0.lean ====
section
/-! SUPPORT. Tests: what WellFormed refuses, worked examples of the manual (each names its rule or example), and for each
statement with hypotheses a named state that meets them (`witness_<statement>`), at the boundary values of its clauses. -/

namespace Sys2Proof.Tests

open Sys2Proof Sys2Proof.Machine

/-! ## States to start from -/

/-- The part after reset: ready for requests, in RUN, every block enabled. -/
abbrev base : State := State.reset

/-- The part held in a reset. -/
abbrev held : State := { base with pwc := { base.pwc with resetting := some .powerOn } }

/-- The part in STANDBY. -/
abbrev standby : State := { base with pwc := { base.pwc with inRun := false }, ftb := { base.ftb with state := .standby } }

abbrev withFtb (f : Ftb → Ftb) : State := { base with ftb := f base.ftb }

abbrev withLnc (f : Lnc → Lnc) : State := { base with lnc := f base.lnc }

abbrev withStb (f : Stb → Stb) : State := { base with stb := f base.stb }

abbrev withBfm (f : Bfm → Bfm) : State := { base with bfm := f base.bfm }

abbrev withRcd (f : Rcd → Rcd) : State := { base with rcd := f base.rcd }

abbrev withA (f : CardSlot → CardSlot) : State := base.setSlot .a (f (base.slot .a))

abbrev frame : FrameStart := { serial := 1, substituted := false, inRun := true, lens := none, stbOff := false }

/-- The part in a timebase state, so many cycles after its last frame start. -/
abbrev elapsedAt (state : TimebaseState) (cycles : Nat) : State :=
  withFtb (fun f => { f with state := state, elapsed := cycles })

abbrev everyDue : Due :=
  { lnc := [frame], stb := [frame], aud := [frame], bfm := [frame], rcd := [frame], vog := [frame] }

abbrev noon : Timecode := { hours := 12, minutes := 0, seconds := 0, frames := 0 }

abbrev copyOf (state : CopyState) : Copy :=
  { clip := 12, label := [], firstSerial := none, placed := 0, written := 0, continues := none, state := state }

abbrev clipOf (kind : ClipKind) (mode : SlotMode) (a b : Option Copy) : Clip :=
  { sequence := 7, kind := kind, mode := mode, primary := .a, start := some 0, head := none, last := none, reason := none,
    burstHead := none, copies := { a := a, b := b }, switches := 0, claimed := 0, written := 0, newestPlaced := none }

/-- The Recorder in a state, with a clip. -/
abbrev withClip (state : RecState) (clip : Clip) : State := withRcd (fun r => { r with state := state, clip := some clip })

abbrev single : Clip := clipOf .normal .single (some (copyOf .writing)) none

/-- A card of ten extents with one used entry, clip 1, in extents 1 and 2. -/
abbrev summary : Summary :=
  { header := { label := List.replicate 16 0x41, extents := 10, formatNumber := 1 }
    entries := [{ clip := 1, state := .closed, continuation := false, retained := false, mirrored := false, start := 1
                  extents := 2, frames := 3, label := { time := .zero, userBits := 0 }, labelValid := true, rateCode := 2
                  dropFrame := false, continues := none }]
    nextFree := 3 }

abbrev slotReady : CardSlot :=
  { CardSlot.afterReset with state := .ready, present := true, summary := some summary, cardSectors := 81920 }

theorem witness_ready : base.ready ∧ standby.ready := ⟨⟨rfl, rfl, rfl, by decide⟩, ⟨rfl, rfl, rfl, by decide⟩⟩

/-! ## Well-formed commands -/

theorem test_long_payload_is_ill_formed : Instr.wellFormed (.timeQuery 0 (List.replicate 1025 0)) = false := by decide +kernel

theorem test_longest_payload_is_well_formed : Instr.wellFormed (.timeQuery 0 (List.replicate 1024 0)) = true := by
  decide +kernel

theorem test_known_code_is_no_unknown_request : Instr.wellFormed (.unknownRequest 0x7B 0 []) = false := by decide

theorem test_unknown_code_with_long_payload_is_ill_formed :
    Instr.wellFormed (.unknownRequest 0xFF 0 (List.replicate 1025 0)) = false := by decide +kernel

theorem test_unknown_request_is_well_formed : Instr.wellFormed (.unknownRequest 0xFF 0 []) = true := by decide

theorem test_essence_data_has_a_byte : Instr.wellFormed (.essenceData []) = false := by decide

theorem test_read_answer_is_whole_sectors : Instr.wellFormed (.cardReadComplete .a (.done 0 [1])) = false := by decide

theorem test_no_word_spells_a_command (nbits w : Nat) : decodeTableWord nbits w = none := rfl

/-! ## The machine, frame starts and timecode -/

theorem witness_StepTakesFront :
    ({ base with pending := [.gapTimeout, .messageSent] } : State).pending = .gapTimeout :: [.messageSent] ∧
    (base.pending = [] ∧ base.works ∧ (elapsedAt .acquire 1619999).ftb.within 1) ∧
    (¬ (elapsedAt .acquire 1620000).ftb.within 1 ∧ ∃ v, exec .substitutionTimer (elapsedAt .acquire 1620000) = .next v) ∧
    (held.pending = [] ∧ ¬ held.works) := by
  refine ⟨rfl, ⟨rfl, rfl, ?_⟩, ⟨?_, _, rfl⟩, ⟨rfl, ?_⟩⟩
  · unfold Ftb.within; decide
  · unfold Ftb.within; decide
  · unfold State.works; decide

theorem witness_EveryStepGoesOn : ∃ t, exec .gapTimeout { base with pending := [.messageSent] } = .next t := ⟨_, rfl⟩

/-- The law of the time values stands beyond reset, at R14's limits: the last label of a day with drop-frame on, one and a half
periods after a frame start. -/
theorem witness_LawsKept :
    (∃ t, step { base with mem := [(0, 1), (268435455, 255)] } = .next t) ∧
    Memory.wf [(0, 1), (268435455, 255)] = true ∧
    (withFtb (fun f => { f with
      rate := .r30d, dropFrame := true, generator := ⟨23, 59, 59, 29⟩, preset := some ⟨0, 1, 0, 2⟩, elapsed := 1351350 })).ftb.lawful ∧
    ({ base.lnk with waiting := List.replicate 15 (.reply 0 0 [0]), sending := base.lnk.sending
                     inbound := List.replicate 4 ⟨0, 0, []⟩ } : Lnk).lawful := by
  refine ⟨⟨_, rfl⟩, by decide, ?_, ?_⟩
  · simp [Ftb.lawful, Timecode.lawful]; decide
  · unfold Lnk.lawful; decide

theorem witness_ResetHolds :
    ¬ held.works ∧ Instr.gapTimeout ≠ .powerOnReset ∧ ∀ p q a b, Instr.gapTimeout ≠ .resetEnd p q a b :=
  ⟨by unfold State.works; decide, by decide, by simp⟩

theorem witness_ResetEndStarts :
    held.pwc.resetting = some .powerOn ∧
    ({ base with pwc := { base.pwc with resetting := some .partReset } } : State).pwc.resetting = some .partReset ∧
    base.works := ⟨rfl, rfl, rfl⟩

/-- At 25 frames a second three quarters of a period are 810,000 cycles, and one and a half are 1,620,000. -/
theorem witness_FrameStartEdges :
    (base.works ∧ base.ftb.unmatched ∧ base.ftb.within 1620000 ∧ base.ftb.state = .acquire) ∧
    ((elapsedAt .holdover 800000).ftb.unmatched ∧ (elapsedAt .holdover 800000).ftb.within 10000 ∧
      (elapsedAt .holdover 800000).ftb.state = .holdover ∧
      3 * (elapsedAt .holdover 800000).ftb.rate.period ≤ 4 * ((elapsedAt .holdover 800000).ftb.elapsed + 10000)) ∧
    ((elapsedAt .locked 810000).ftb.unmatched ∧ (elapsedAt .locked 810000).ftb.state = .locked ∧
      3 * (elapsedAt .locked 810000).ftb.rate.period ≤ 4 * (elapsedAt .locked 810000).ftb.elapsed) ∧
    ((elapsedAt .locked 809999).ftb.state = .locked ∧
      4 * (elapsedAt .locked 809999).ftb.elapsed < 3 * (elapsedAt .locked 809999).ftb.rate.period) ∧
    ((elapsedAt .holdover 809999).ftb.state = .holdover ∧
      4 * (elapsedAt .holdover 809999).ftb.elapsed < 3 * (elapsedAt .holdover 809999).ftb.rate.period) ∧
    standby.ftb.state = .standby ∧
    (¬ (elapsedAt .locked 1620000).ftb.within 1 ∧ ∃ v, exec .substitutionTimer (elapsedAt .locked 1620000) = .next v) := by
  refine ⟨⟨rfl, ?_, ?_, rfl⟩, ⟨?_, ?_, rfl, by decide⟩, ⟨?_, rfl, by decide⟩, ⟨rfl, by decide⟩, ⟨rfl, by decide⟩, rfl,
    ⟨?_, _, rfl⟩⟩
  all_goals first
    | (intro t h; cases h)
    | (unfold Ftb.within; decide)

/-- The timer one cycle before its time and at it, in each state that has its own span. -/
theorem witness_TimerStartsFrame :
    let armed := withFtb (fun f => { f with trigger := some { time := noon, action := .start }, elapsed := 1620000 })
    (armed.works ∧ armed.ftb.unmatched ∧ armed.ftb.state = .acquire ∧ armed.ftb.dueAt ≤ armed.ftb.elapsed) ∧
    ((elapsedAt .locked 1619999).ftb.elapsed < (elapsedAt .locked 1619999).ftb.dueAt ∧
      (elapsedAt .locked 1620000).ftb.dueAt ≤ (elapsedAt .locked 1620000).ftb.elapsed) ∧
    ((elapsedAt .holdover 1079999).ftb.elapsed < (elapsedAt .holdover 1079999).ftb.dueAt ∧
      (elapsedAt .holdover 1080000).ftb.dueAt ≤ (elapsedAt .holdover 1080000).ftb.elapsed) ∧
    (elapsedAt .standby 1080000).ftb.dueAt ≤ (elapsedAt .standby 1080000).ftb.elapsed := by
  refine ⟨⟨rfl, ?_, rfl, by decide⟩, by decide, by decide, by decide⟩
  intro t h; cases h; decide

/-- The trigger label is the first one after reset, at an edge and at the timer in every timebase state that has them. -/
theorem witness_TriggerFires :
    let armed := fun (s : State) (a : TriggerAction) =>
      ({ s with ftb := { s.ftb with trigger := some { time := .zero, action := a } } } : State)
    let recorder := fun (r : RecState) (a : TriggerAction) =>
      armed ({ base with rcd := { base.rcd with state := r } }) a
    let late := fun (t : TimebaseState) (e : Nat) => armed (elapsedAt t e) .start
    (∀ a, (armed base a).works ∧ (armed base a).ftb.trigger = some { time := .zero, action := a } ∧
      Timecode.zero = (armed base a).ftb.nextTime ∧ (armed base a).ftb.state = .acquire) ∧
    ((armed standby .start).works ∧ Timecode.zero = (armed standby .start).ftb.nextTime ∧
      (armed standby .start).ftb.state = .standby ∧ (armed standby .start).pwc.inRun = false) ∧
    (3 * (late .locked 810000).ftb.rate.period ≤ 4 * (late .locked 810000).ftb.elapsed ∧
      3 * (late .holdover 810000).ftb.rate.period ≤ 4 * (late .holdover 810000).ftb.elapsed ∧
      (late .acquire 1620000).ftb.dueAt ≤ (late .acquire 1620000).ftb.elapsed ∧
      (late .locked 1620000).ftb.dueAt ≤ (late .locked 1620000).ftb.elapsed ∧
      (late .holdover 1080000).ftb.dueAt ≤ (late .holdover 1080000).ftb.elapsed ∧
      (late .standby 1080000).ftb.dueAt ≤ (late .standby 1080000).ftb.elapsed) ∧
    ((withClip .recording single).rcd.state = .recording ∧ (withClip .recording single).rcd.clip = some single) ∧
    (base.rcd.state = .standing ∧ base.startStatus ≠ .ok ∧ (withA (fun _ => slotReady)).startStatus = .ok) ∧
    (armed base .stop).rcd.state = .standing ∧
    ((recorder .recording .start).rcd.state = .recording ∧ (recorder .recording .start).pwc.inRun = true) ∧
    (recorder .closing .start).rcd.state = .closing ∧ (recorder .retaining .start).rcd.state = .retaining :=
  ⟨fun _ => ⟨rfl, rfl, rfl, rfl⟩, ⟨rfl, rfl, rfl, rfl⟩, by decide, ⟨rfl, rfl⟩, ⟨rfl, by decide, by decide⟩, rfl, ⟨rfl, rfl⟩,
    rfl, rfl⟩

/-- At 60 frames a second one and a half periods are 675,000 cycles. Rate 2 (25) and flag 1 is no setting. -/
theorem witness_FrameConfigTaken :
    let config := fun (e : Nat) => ({ base.ftb with
      rate := .r60, dropFrame := false, history := [], measurement := 0, generator := .zero, preset := none
      trigger := none, elapsed := e } : Ftb)
    (base.ready ∧ Rate.r30d.dropAllowed = true ∧ base.rcd.state = .standing) ∧
    ((config 674999).elapsed < (config 674999).dueAt ∧ (config 675000).dueAt ≤ (config 675000).elapsed ∧
      (config 675000).unmatched) ∧
    (∀ (r : Rate) (drop : Bool), u8 r.code ++ flagByte drop = ([2, 1] : List Byte) → drop = true ∧ r.dropAllowed = false) ∧
    (∀ (r : Rate) (drop : Bool), u8 r.code ++ flagByte drop ≠ ([0, 2] : List Byte)) ∧
    (withClip .recording single).rcd.state ≠ .standing ∧
    ((base.aud.pairs.get .a).state = .off ∧ ({ base.aud.pairs.get .b with state := .warming } : Pair).state ≠ .off) := by
  refine ⟨⟨witness_ready.1, rfl, rfl⟩, ⟨by decide, by decide, ?_⟩, ?_, ?_, by decide, rfl, by decide⟩
  · intro t h; cases h
  · intro r drop; cases r <;> cases drop <;> decide
  · intro r drop; cases r <;> cases drop <;> decide

theorem witness_UserBitsSet :
    (elapsedAt .acquire 1620000).ready ∧
    ∃ t v, exec (.tcUserbits 0 (u32 (BitVec.toNat (0xFFFFFFFF#32)))) (elapsedAt .acquire 1620000) = .next t ∧
      exec .substitutionTimer t = .next v ∧ v.ftb.serial ≠ t.ftb.serial := by
  refine ⟨⟨rfl, rfl, rfl, by decide⟩, _, _, rfl, rfl, ?_⟩
  decide

theorem witness_TimecodeSettingsTaken :
    base.ready ∧ Timecode.inRange base.ftb.rate ⟨23, 59, 59, 24⟩ = true ∧
    Timecode.isDropped base.ftb.rate base.ftb.dropFrame ⟨23, 59, 59, 24⟩ = false ∧
    (base.bfm.depth = 0 ∧ base.ftb.trigger = none) ∧ base.ftb.mode = .freeRun ∧ base.rcd.state = .standing ∧
    (withFtb (fun f => { f with mode := .recRun })).ftb.mode = .recRun ∧
    Timecode.inRange base.ftb.rate ⟨23, 59, 59, 25⟩ = false ∧ Timecode.isDropped .r30d true ⟨0, 1, 0, 1⟩ = true ∧
    ((withBfm (fun b => { b with depth := 1 })).ready ∧ (withBfm (fun b => { b with depth := 1 })).bfm.depth ≠ 0) ∧
    (withClip .recording single).rcd.state ≠ .standing :=
  ⟨witness_ready.1, rfl, rfl, ⟨rfl, rfl⟩, rfl, rfl, rfl, rfl, rfl, ⟨⟨rfl, rfl, rfl, by decide⟩, by decide⟩, by decide⟩

/-- R23 and R14: the label after 00:00:59:29 with drop-frame at 30/1.001 (worked example of chapter 1). -/
theorem test_drop_frame_minute : Timecode.advance .r30d true ⟨0, 0, 59, 29⟩ = ⟨0, 1, 0, 2⟩ := by decide

theorem test_tenth_minute_drops_nothing : Timecode.advance .r30d true ⟨0, 9, 59, 29⟩ = ⟨0, 10, 0, 0⟩ := by decide

theorem test_day_ends : Timecode.advance .r25 false ⟨23, 59, 59, 24⟩ = ⟨0, 0, 0, 0⟩ := by decide

/-- The runt of the worked example of chapter 1: 300,000 cycles after the start, at 30/1.001, and the last count below the
limit, 675,674. -/
theorem test_runt_limit :
    ({ base.ftb with rate := .r30d, elapsed := 300000 } : Ftb).isEarly = true ∧
    ({ base.ftb with rate := .r30d, elapsed := 675674 } : Ftb).isEarly = true ∧
    ({ base.ftb with rate := .r30d, elapsed := 675675 } : Ftb).isEarly = false := by decide

/-! ## Lens control -/

abbrev waiting (p1 waited : Nat) : Move := { p0 := 0, p1 := p1, duration := 1, phase := .wait waited, origin := .goto }

/-- A move one step before its target. -/
abbrev stepping : Move := { p0 := 128, p1 := 96, duration := 5, phase := .ramp 4, origin := .recall 7 }

/-- LNC with a window open for its latest demand. -/
abbrev lensOpen : State := withLnc (fun l => { l with window := some { serial := 1, twiceLength := 1080000 } })

/-- A frame start with a move one before its last wait, and one with a window open and a move of the iris on its last step. -/
theorem witness_LensFrame :
    let due := fun (s : State) => ({ s with due := everyDue } : State)
    let late := due (withLnc (fun l => { l with
      window := lensOpen.lnc.window, misses := 2, iris := { l.iris with move := some stepping } }))
    let moving := due (withLnc (fun l => { l with zoom := { l.zoom with mode := .move (waiting 2048 48) } }))
    (due standby).works ∧ (due standby).due.lnc = frame :: [] ∧ (due standby).lncActs frame = false ∧
    (moving.works ∧ moving.due.lnc = frame :: [] ∧ frame.inRun = true ∧ moving.pwc.inRun = true ∧
      moving.pwc.enables.lnc = true ∧ moving.lnc.window = none ∧
      ∀ axis m w, moving.lnc.moveOf axis = some m → m.phase = .wait w → w + 1 < 50) ∧
    (late.lnc.window.isSome = true ∧ late.missed.lnc.moveOf .iris = none ∧ lensOpen.missed.lnc.window = none ∧
      stepping.phase = .ramp 4 ∧ rampDemand stepping stepping.duration = stepping.p1) ∧
    (moving.lncActs frame = true ∧ moving.lnc.zoom.least ≤ moving.lnc.zoom.greatest ∧
      moving.lnc.focus.least ≤ moving.lnc.focus.greatest ∧ ∃ t, exec .lncFrameStart moving = .next t) ∧
    ((-127 : Int).natAbs = 16 * 7 + 15 ∧ base.lnc.zoom.speeds[7]? = some 64 ∧ base.lnc.zoom.speeds[8]? = some 96 ∧
      base.lnc.zoom.least ≤ base.lnc.zoom.greatest ∧ base.lnc.iris.demand ≤ 255) ∧
    (4095 = 256 * 15 + 255 ∧ base.lnc.curve[15]?.isSome = true ∧ base.lnc.curve[16]?.isSome = true) := by
  refine ⟨rfl, rfl, rfl, ⟨rfl, rfl, rfl, rfl, rfl, rfl, ?_⟩, ⟨rfl, by decide, by decide, rfl, by decide⟩,
    ⟨rfl, by decide, by decide, _, rfl⟩, by decide, by decide⟩
  intro axis m w hm hw
  cases axis <;> cases hm
  cases hw; decide

/-- A window open with no move, and with a move in WAIT on zoom, a step of one on the iris and a released focus. -/
theorem witness_GoodReportTaken :
    let moving : State := { lensOpen with lnc := { lensOpen.lnc with
      zoom := { lensOpen.lnc.zoom with mode := .move (waiting 2044 3) }
      focus := { lensOpen.lnc.focus with released := true }
      iris := { lensOpen.lnc.iris with move := some stepping }
      latest := { lensOpen.lnc.latest with override := { zoom := false, focus := true, iris := false } } } }
    (lensOpen.works ∧ lensOpen.lnc.window = some { serial := 1, twiceLength := 1080000 } ∧
      ∀ axis, lensOpen.lnc.moveOf axis = none) ∧
    (moving.works ∧ moving.lnc.window = lensOpen.lnc.window ∧ moving.lnc.moveOf .zoom = some (waiting 2044 3) ∧
      moving.lnc.moveOf .iris = some stepping ∧ moving.lnc.latest.override.focus = true) ∧
    (2044 ≤ 2040 + 4 ∧ ¬ 2044 ≤ 2039 + 4 ∧ Nat.testBit 255 1 = true ∧ Nat.testBit 255 3 = true ∧ Nat.testBit 240 1 = false) :=
  ⟨⟨rfl, rfl, by intro axis; cases axis <;> rfl⟩, ⟨rfl, rfl, rfl, rfl, rfl⟩, by decide⟩

/-- A report with zoom 4,096 is malformed, as is one of seven bytes. -/
theorem witness_ReportMissed :
    let body := u16 4096 ++ u16 0 ++ [0, 0]
    lensOpen.works ∧ 4095 < num (body ++ crcBytes body) 0 2 ∧ (List.replicate 7 (0 : Byte)).length ≠ 8 ∧
    base.lnc.window = none ∧ (lensOpen.lnc.window.isSome = true ∧ lensOpen.lnc.misses ≠ 2) ∧
    ({ lensOpen with lnc := { lensOpen.lnc with misses := 2 } } : State).lnc.misses = 2 ∧ lensOpen.lnc.lens ≠ .lost ∧
    base.works :=
  ⟨rfl, by decide, by decide, rfl, ⟨rfl, by decide⟩, rfl, by decide, rfl⟩

theorem witness_MoveEnds :
    let moving := withLnc (fun l => { l with zoom := { l.zoom with mode := .move (waiting 2044 49) } })
    moving.lnc.moveOf .zoom = some (waiting 2044 49) ∧ (waiting 2044 49).phase = .wait 49 ∧
    (moving.lnc.servo .zoom).released = false ∧ (moving.lnc.servo .zoom).mode = .move (waiting 2044 49) :=
  ⟨rfl, rfl, rfl, rfl⟩

theorem witness_LensMotionTaken :
    base.ready ∧ base.pwc.enables.lnc = true ∧ base.pwc.inRun = true ∧ base.lnc.lens ≠ .lost ∧
    base.lnc.zoom.released = false ∧ base.lnc.focus.released = false ∧
    (standby.ready ∧ standby.pwc.enables.lnc = true ∧ standby.pwc.inRun = false) ∧
    (withLnc (fun l => { l with lens := .lost })).lnc.lens = .lost ∧
    (withLnc (fun l => { l with focus := { l.focus with released := true } })).lnc.focus.released = true ∧
    packFlags [true, true] = 3 ∧ (packFlags [true, false] ≠ 2 ∧ packFlags [false, true] ≠ 1) :=
  ⟨witness_ready.1, rfl, rfl, by decide, rfl, rfl, ⟨witness_ready.2, rfl, rfl⟩, rfl, rfl, by decide, by decide⟩

theorem witness_LensSettingsTaken :
    let here := withLnc (fun l => { l with
      lens := .present, presets := l.presets.set 7 (some { zoom := 3800, focus := 1200, iris := some 96 }) })
    here.ready ∧ here.pwc.enables.lnc = true ∧ here.lnc.lens = .present ∧ here.pwc.inRun = true ∧
    here.lnc.presets[7]? = some (some { zoom := 3800, focus := 1200, iris := some 96 }) ∧ here.lnc.lens ≠ .lost ∧
    here.lnc.zoom.released = false ∧ here.lnc.focus.released = false ∧ here.lnc.iris.released = false ∧
    (List.replicate 16 100 ++ [32767]).length = 17 ∧ (∀ k ∈ List.replicate 16 100 ++ [32767], 100 ≤ k ∧ k ≤ 32767) ∧
    (List.replicate 8 0 ++ [255]).length = 9 ∧ (List.replicate 8 0 ++ [255]).Pairwise (· ≤ ·) ∧
    (List.replicate 8 0 ++ [255]).getLast? ≠ some 0 ∧
    (base.lnc.lens ≠ .present ∧ (∀ x, base.lnc.presets[7]? ≠ some (some x)) ∧ standby.pwc.inRun = false) ∧
    (withLnc (fun l => { l with iris := { l.iris with released := true } })).lnc.iris.released = true ∧
    (∃ k ∈ List.replicate 16 100 ++ [32768], k < 100 ∨ 32767 < k) ∧ ¬ (List.replicate 8 1 ++ [0]).Pairwise (· ≤ ·) := by
  refine ⟨⟨rfl, rfl, rfl, by decide⟩, rfl, rfl, rfl, rfl, by decide, rfl, rfl, rfl, by decide, by decide, by decide, by decide,
    by decide, ⟨by decide, ?_, rfl⟩, rfl, by decide, by decide⟩
  intro x h; cases h

/-- The steps of the recall of chapter 2's worked example, and the frames its travels need. -/
theorem test_recall_steps :
    let zoom : Move := { p0 := 600, p1 := 3800, duration := 34, phase := .ramp 0, origin := .recall 3 }
    let focus : Move := { zoom with p0 := 2000, p1 := 1200 }
    let iris : Move := { zoom with p0 := 128, p1 := 96 }
    [1, 2, 10].map (rampDemand zoom) = [694, 788, 1541] ∧ [1, 2, 10].map (rampDemand focus) = [1976, 1953, 1765] ∧
    [1, 2, 10].map (rampDemand iris) = [127, 126, 119] ∧ framesNeeded 3200 96 = 34 ∧ framesNeeded 800 96 = 9 := by decide

/-! ## Image stabilisation -/

theorem witness_GyroSamples :
    let reading := withStb (fun b => { b with reading := true })
    reading.works ∧ (standby.stbRuns = false) ∧ base.stb.reading = false ∧ base.stbRuns = true ∧
    reading.stbRuns = true ∧ reading.stb.reading = true :=
  ⟨rfl, rfl, rfl, rfl, rfl, rfl⟩

abbrev tile (n : Serial) : TileSet := { serial := n, pixels := List.replicate 9216 0 }

/-- A tile set of the latest frame after one of the frame before, with the correlator idle and busy. -/
theorem witness_TilesCorrelated :
    let blank : TileSet := { serial := 4, pixels := [] }
    let idle := { withFtb (fun f => { f with serial := 5 }) with stb := { base.stb with newer := some (tile 4) } }
    let busy : State := { idle with stb := { idle.stb with
      older := some (tile 3), correlating := true, waiting := some (tile 4) } }
    (standby.works ∧ standby.stbRuns = false) ∧
    (idle.works ∧ idle.stbRuns = true ∧ (tile 5).pixels.length = 9216 ∧ newer 5 idle.ftb.serial = false ∧
      newer 5 (tile 4).serial = true ∧ idle.stb.correlating = false) ∧
    (busy.stbRuns = true ∧ busy.stb.correlating = true ∧ busy.stb.older = some (tile 3) ∧ busy.stb.newer = some (tile 4) ∧
      busy.stb.waiting = some (tile 4)) ∧ (tile 4).pixels.dropLast.length ≠ 9216 ∧
    ((correlate blank blank).best.head? = some ⟨-7, -4, 0⟩ ∧ (correlate blank blank).left = none ∧
      (correlate blank blank).right = some 0) := by
  refine ⟨⟨rfl, rfl⟩, ⟨rfl, rfl, List.length_replicate, by decide, by decide, rfl⟩, ⟨rfl, rfl, rfl, rfl, rfl⟩, ?_, by decide +kernel⟩
  rw [List.length_dropLast, List.length_replicate]; decide

/-- The frame of the worked example of chapter 3 on both axes, serial 5,000. -/
abbrev exampleStb : Stb :=
  { base.stb with
    state := .active
    x := { base.stb.x with c := 300, sum := 25000, swing := 6 }, y := { base.stb.y with c := -120, sum := -9000 }
    result := some { older := 4998, newer := 4999, mean := 180000, left := some 61200, right := some 52100
                     up := some 58000, down := some 83400, used := false
                     best := [⟨3, -1, 40800⟩, ⟨4, -1, 52100⟩, ⟨3, -2, 58000⟩, ⟨2, -1, 61200⟩] } }

abbrev exampleReport : LensReport := { base.lnc.latest with zoom := 2100 }

abbrev exampleStab : State :=
  { base with
    due := { base.due with stb := [{ frame with serial := 5000 }] }
    lnc := { base.lnc with
      latest := exampleReport, previous := { exampleReport with zoom := 2088 }, focal := 3782, focalSerial := 5000
      curve := List.replicate 8 1000 ++ [3600, 4500] ++ List.replicate 7 5000 }
    stb := exampleStb }

abbrev cropAfter (s : State) : Option (Int × Int × Nat) :=
  match exec .stbFrameStart s with
  | .next t => some (t.stb.x.c, t.stb.y.c, t.stb.x.swing)
  | _ => none

/-- The four blends of the worked example of chapter 3: trusted or not, gyro GOOD or in FAULT. -/
theorem test_stabiliser_frame :
    let unsure := fun (s : State) => ({ s with lnc := { s.lnc with previous := { exampleReport with zoom := 2060 } } } : State)
    let fault := fun (s : State) => ({ s with stb := { s.stb with gyroFault := true } } : State)
    zoomFocal exampleStab.lnc.curve 2100 = 3782 ∧ gainOf 3782 500 = 541 ∧
    cropAfter exampleStab = some (1105, -413, 7) ∧ (cropAfter (unsure exampleStab)).map Prod.fst = some 1124 ∧
    (cropAfter (fault exampleStab)).map Prod.fst = some 1048 ∧
    (cropAfter (unsure (fault exampleStab))).map (fun c => (c.1, c.2.1)) = some (298, -119) := by decide +kernel

/-- Each state of the stabiliser; the block disabled in RUN, and the part in STANDBY. -/
theorem witness_StabFrame :
    let state := fun (x : StabState) => withStb (fun b => { b with state := x })
    let off : State := { exampleStab with pwc := { base.pwc with enables := { base.pwc.enables with stb := false } } }
    exampleStab.works ∧ exampleStab.due.stb = { frame with serial := 5000 } :: [] ∧ exampleStab.stbRuns = true ∧
    exampleStab.stb.state = .active ∧ base.stb.state = .off ∧
    ({ exampleStb with state := .returning, x := { exampleStb.x with c := 21 }, y := { exampleStb.y with c := -20 } } : Stb).state =
      .returning ∧
    ((state .settling).stb.state = .settling ∧ (state .panning).stb.state = .panning) ∧
    (off.works ∧ off.due.stb = { frame with serial := 5000 } :: [] ∧ off.pwc.inRun = true ∧ off.pwc.enables.stb = false) ∧
    standby.pwc.inRun = false ∧ frame.stbOff = false ∧ ({ frame with stbOff := true } : FrameStart).stbOff = true :=
  ⟨rfl, rfl, rfl, rfl, rfl, rfl, ⟨rfl, rfl⟩, ⟨rfl, rfl, rfl, rfl⟩, rfl, rfl, rfl⟩

/-- R65: a frame start in RUN that is outstanding when STB is enabled gets a window record with zero offsets (log entry 33). -/
theorem test_frame_start_before_stb_has_a_record :
    let off : State := { exampleStab with pwc := { base.pwc with enables := { base.pwc.enables with stb := false } } }
    (match exec (.blockEnable 1 [1, 1, 1, 1, 1, 1]) off with
      | .next t =>
        (match exec .stbFrameStart t with
         | .next u => u.stb.sent.map (fun w => (w.serial, w.cx, w.cy))
         | _ => none)
      | _ => none) = some (5000, 0, 0) := by decide +kernel

/-- Each outcome of the trust test (R58) at its boundary, by a zoom step, a mean, and the SADs of the best two, `dx` apart;
and the correlator's vector of the worked example of chapter 3. -/
theorem test_trust :
    let record := fun (mean best second : Nat) (dx : Int) => ({
      older := 4998, newer := 4999, mean := mean, left := none, right := none, up := none, down := none, used := false
      best := [⟨3, -1, best⟩, ⟨3 + dx, -1, second⟩] } : CorrResult)
    let trust := fun (zoom : Nat) (r : CorrResult) =>
      distrustOf (some r) { base.lensRecord with report := { exampleReport with zoom := zoom }, previousZoom := 2000 }
    trust 2033 (record 400 300 337 2) = some .zoomMoving ∧ trust 2032 (record 400 300 337 2) = none ∧
    trust 2000 (record 0 0 0 2) = some .flat ∧ trust 1968 (record 400 301 400 2) = some .weak ∧
    trust 2000 (record 400 300 336 2) = some .ambiguous ∧ trust 2000 (record 400 300 300 1) = none ∧
    vectorsOf exampleStb.result 15 = (750, -285) := by decide

theorem witness_CropAndPanLaws :
    exampleStab.works ∧ exampleStab.due.stb = { frame with serial := 5000 } :: [] ∧ frame.stbOff = false ∧
    exampleStab.stbRuns = true ∧ exampleStab.stb.state = .active ∧ (∃ t, exec .stbFrameStart exampleStab = .next t) ∧
    (exampleStab.lnk.source .stabEdge).enabled = true ∧ exampleStab.lnk.table.length = 20 ∧
    (2 * exampleStb.x.measured.natAbs < exampleStb.settings.panThreshold ∧
      15 ≤ ({ exampleStb with quiet := 15 } : Stb).quiet) ∧
    (let swung := { exampleStb with x := { exampleStb.x with swing := 7, measured := -320, swingPositive := false } }
     exampleStb.settings.panThreshold ≤ swung.x.measured.natAbs ∧ 8 ≤ swung.x.swing + 1) := by
  refine ⟨rfl, rfl, rfl, rfl, rfl, ⟨_, rfl⟩, by decide, by decide, by decide, by decide⟩

theorem witness_StabRequestsTaken :
    base.ready ∧ base.pwc.enables.stb = true ∧ base.pwc.inRun = true ∧ base.stb.state = .off ∧
    (100 ≤ ({ StabSettings.default with pitch := 100, marginX := 255, decimation := 32, biasX := -32768 } : StabSettings).pitch) ∧
    exampleStab.stb.state ≠ .off ∧ exampleStab.ready ∧
    (standby.ready ∧ standby.pwc.enables.stb = true ∧ standby.pwc.inRun = false) ∧
    (100 ≤ ({ StabSettings.default with pitch := 99 } : StabSettings).pitch) = False :=
  ⟨witness_ready.1, rfl, rfl, rfl, by decide, by decide, ⟨rfl, rfl, rfl, by decide⟩, ⟨witness_ready.2, rfl, rfl⟩, by decide⟩

/-! ## Audio -/

abbrev onAir : State :=
  { base with aud := { pairs := { base.aud.pairs with a := { base.aud.pairs.a with state := .active } } } }

theorem witness_SampleFrameTaken :
    onAir.works ∧ onAir.pwc.inRun = true ∧ onAir.pwc.enables.aud = true ∧ (onAir.aud.pairs.get .a).state ≠ .off ∧
    (onAir.aud.pairs.get .b).state = .off := ⟨rfl, rfl, rfl, by decide, rfl⟩

/-- A channel of chapter 4's worked example: gain 24, a limiter of 12 steps with release 50. -/
abbrev shouting : Channel :=
  { base.aud.pairs.a.first with gain := 24, limiter := { on := true, threshold := 12, release := 50 }, blockPeak := 6000000 }

theorem witness_AudioLaws :
    shouting.limiter.on = true ∧ shouting.pendingGain = none ∧ shouting.pendingLimiter = none ∧
    shouting.limiter.level < shouting.blockPeak ∧
    (({ shouting with blockPeak := 4194304, reduction := 7, releaseCount := 49 } : Channel).blockPeak : Int) ≤
      shouting.limiter.level ∧
    scaleBy (-96) 6000000 ≤ shouting.limiter.level ∧ (4294967291 : Serial).toNat + 4 < 4294967296 ∧
    ((∀ y ∈ ([3, -8388608] : List Int), y.natAbs ≤ 8388608) ∧ (∃ y ∈ ([3, -8388608] : List Int), y.natAbs = 8388608) ∧
      meterOf 8388608 = 0 ∧ meterOf 32768 = 96 ∧ meterOf 32767 = 97) ∧
    ({ base.aud.pairs.a with state := .active } : Pair).state ≠ .off := by
  refine ⟨rfl, rfl, rfl, ?_, ?_, ?_, ?_, ?_, ?_⟩ <;> decide

/-- The attack and the release of chapter 4's worked example. -/
theorem test_limiter_attack :
    shouting.limiter.level = 4194304 ∧ attackSteps 6000000 4194304 = 7 ∧ shouting.endBlock.reduction = 7 ∧
    ({ shouting with reduction := 7 } : Channel).gained 1500000 = 4004517 ∧
    ({ shouting with reduction := 6 } : Channel).gained 1500000 = 4242554 ∧
    ({ shouting with reduction := 7, blockPeak := 4004517, releaseCount := 49 } : Channel).endBlock.reduction = 6 := by decide

/-- R74's example of an over and of none. -/
theorem test_over :
    let c : Channel := { shouting with limiter := { shouting.limiter with on := false } }
    c.gained 2200000 = 8388607 ∧ c.isOver 2200000 = true ∧ ({ c with reduction := 7 } : Channel).gained 2200000 = 5873291 ∧
    ({ c with reduction := 7 } : Channel).isOver 2200000 = false := by decide

/-- The last two cuts of chapter 4's cadence example, by their counts. -/
theorem test_cut_counts :
    let cutOf := fun (n e : Nat) => (({ base.aud.pairs.a with store := List.replicate n ⟨0, 0⟩ } : Pair).cut e 60)
    (List.range 5).map (fun i => Rate.r30d.cadence (BitVec.ofNat 32 (1000 + i))) = [1602, 1601, 1602, 1601, 1602] ∧
    ((cutOf 1601 1602).1.padded, (cutOf 1601 1602).1.dropped, (cutOf 1601 1602).2.store.length) = (1, 0, 0) ∧
    ((cutOf 1638 1602).1.padded, (cutOf 1638 1602).1.dropped, (cutOf 1638 1602).2.store.length) = (0, 4, 32) := by
  decide +kernel

theorem witness_AudFrame :
    let due := fun (s : State) => ({ s with due := everyDue } : State)
    (due onAir).works ∧ (due onAir).due.aud = frame :: [] ∧
    (frame.inRun && (due onAir).pwc.inRun && (due onAir).pwc.enables.aud) = true ∧
    (frame.inRun && (due standby).pwc.inRun && (due standby).pwc.enables.aud) = false := ⟨rfl, rfl, rfl, rfl⟩

/-! ## The buffer memory -/

abbrev lens : LensRecord := base.lensRecord

abbrev entryOf (n : Serial) (picture : Picture) (a b : Sound) : Entry :=
  { serial := n, label := none, lens := lens, window := none, picture := picture, sound := { a := a, b := b },
    attachment := none, mark := none, settings := { rate := .r25, dropFrame := false, mode := .freeRun } }

abbrev pictureOf (key : Bool) (pages : List Nat) : PictureData := { key := key, length := 16384 * pages.length, pages := pages }

abbrev unitOf (n : Serial) (key : Bool) (m : Membership) (a b : Progress) : RecUnit :=
  { (entryOf n (.present (pictureOf key [n.toNat])) (.absent .off) (.absent .off)).toUnit (pictureOf key [n.toNat]) with
    membership := m, progress := { a := a, b := b } }

/-- A queue of three ring units, the second with the key flag, in pages 1 to 3. -/
abbrev ringOfThree : List RecUnit :=
  [unitOf 1 false .ring .none .none, unitOf 2 true .ring .none .none, unitOf 3 false .ring .none .none]

/-- A buffer with a queue, whose pages 0 to 7 are taken. -/
abbrev withQueue (queue : List RecUnit) : State :=
  withBfm (fun b => { b with queue := queue, free := { fresh := 8, released := [] } })

theorem witness_HandOverTaken :
    let here := withBfm (fun b => { b with entries := [entryOf 1 .none .awaited .awaited] })
    let decided := withBfm (fun b => { b with entries := [entryOf 1 .none (.absent .off) .awaited] })
    let starved := withBfm (fun b => { b with
      entries := [entryOf 1 .none .awaited .awaited], free := { fresh := 16384, released := [] } })
    let g : Segment := { samples := List.replicate 2002 ⟨0, 0⟩, padded := 0, dropped := 0, meterFirst := 0, meterSecond := 0 }
    base.bfm.entry 1 = none ∧ here.bfm.entry 1 = some (entryOf 1 .none .awaited .awaited) ∧
    (∃ b, here.bfm.allocate 1 = (some [0], b)) ∧ g.samples.length ≤ 2002 ∧ here.mem.wf = true ∧
    (∃ e, decided.bfm.entry 1 = some e ∧ e.sound.get .a ≠ .awaited) ∧
    (∃ b, starved.bfm.allocate 1 = (none, b)) := by
  refine ⟨rfl, rfl, ⟨_, rfl⟩, ?_, rfl, ⟨_, rfl, by decide⟩, ⟨_, rfl⟩⟩
  rw [List.length_replicate]

theorem witness_AudioRequestsTaken :
    onAir.ready ∧ onAir.pwc.enables.aud = true ∧ onAir.pwc.inRun = true ∧ (onAir.aud.pairs.get .b).state = .off ∧
    ((onAir.aud.pairs.get .b).channel .second).pendingLimiter = none ∧
    ((onAir.aud.pairs.get .b).channel .second).pendingGain = none ∧
    (standby.ready ∧ standby.pwc.enables.aud = true ∧ standby.pwc.inRun = false) :=
  ⟨⟨rfl, rfl, rfl, by decide⟩, rfl, rfl, rfl, rfl, rfl, witness_ready.2, rfl, rfl⟩

theorem witness_BufferFrame :
    let due := fun (entries : List Entry) (s : State) =>
      ({ s with due := everyDue, bfm := { s.bfm with entries := entries } } : State)
    let table := (List.range 16).map (fun i => entryOf (BitVec.ofNat 32 i) .none .awaited .awaited)
    (due [] base).works ∧ (due [] base).due.bfm = frame :: [] ∧ (due table.tail base).bfm.entries.length < 16 ∧
    (frame.inRun && (due table base).pwc.inRun) = true ∧
    (∃ e es, (due table base).bfm.entries = e :: es ∧ 15 ≤ es.length) ∧
    (frame.inRun && (due [] standby).pwc.inRun) = false ∧
    (let e := { entryOf 5 .none .awaited .awaited with
       label := some { serial := 5, label := { time := noon, userBits := 0 }, valid := true, substituted := false
                       recording := true, burst := true } }
     let clip : Clip := { single with head := some 5, last := some 5 }
     let s : State := { withClip .closing clip with ftb := { base.ftb with interval := some { burst := 1, period := 2 } } }
     s.rcd.clip = some clip ∧ s.rcd.state = .closing ∧ clip.head = some 5 ∧ older e.serial 5 = false ∧
       olderOrSame e.serial 5 = true ∧ (∃ h, e.label = some h ∧ h.burst = true) ∧ older 4 (5 : Serial) = true ∧
       olderOrSame 6 (5 : Serial) = false) := by
  refine ⟨rfl, rfl, by decide, rfl, ⟨_, _, rfl, by decide⟩, rfl, rfl, rfl, rfl, by decide, by decide, ⟨_, rfl, rfl⟩, by decide,
    by decide⟩

/-- The longest access unit that is placed is 2,097,152 bytes: the length field holds one less. -/
theorem witness_EssenceHeaderJudged :
    let here := withBfm (fun b => { b with taken := 2, entries := [entryOf 1 .none .awaited .awaited,
      entryOf 2 (.present (pictureOf true [0])) .awaited .awaited] })
    let starved := withBfm (fun _ => { here.bfm with free := { fresh := 16384, released := [] } })
    here.works ∧ here.bfm.port = .header ∧ newer 3 here.bfm.taken = true ∧
    (newer 0 here.bfm.taken = false ∧ here.bfm.entry 0 = none) ∧
    (∃ e p, here.bfm.entry 2 = some e ∧ e.picture = .present p) ∧
    (∃ e, here.bfm.entry 1 = some e ∧ ∀ p, e.picture ≠ .present p) ∧
    2097152 < (0x200000#24).toNat + 1 ∧ (0x1FFFFF#24).toNat + 1 ≤ 2097152 ∧
    (∃ pages b, here.bfm.allocate ((2097152 + 16383) / 16384) = (some pages, b)) ∧
    (∃ b, starved.bfm.allocate 1 = (none, b)) ∧
    (withBfm (fun b => { b with port := .skip 1 })).bfm.port ≠ .header := by
  refine ⟨rfl, rfl, by decide, ⟨by decide, rfl⟩, ⟨_, _, rfl, rfl⟩, ⟨_, rfl, by simp⟩, by decide, by decide, ⟨_, _, rfl⟩,
    ⟨_, rfl⟩, by decide⟩

theorem witness_EssenceDataPlaced :
    let p := pictureOf true [5, 16383]
    let e := entryOf 1 (.arriving p) .awaited .awaited
    let here := withBfm (fun b => { b with port := .data 1 16383 2, entries := [e] })
    here.works ∧ ([1, 2] : List Byte) ≠ [] ∧ base.bfm.port = .header ∧
    (withBfm (fun b => { b with port := .skip 2 })).bfm.port = .skip 2 ∧ here.bfm.port = .data 1 16383 2 ∧
    here.bfm.entry 1 = some e ∧ e.picture = .arriving p ∧ here.mem.wf = true ∧ p.pages.Nodup ∧
    (∀ page ∈ p.pages, page < 16384) ∧ 16383 + (([1, 2] : List Byte).take 2).length ≤ 16384 * p.pages.length := by
  refine ⟨rfl, by decide, rfl, rfl, rfl, rfl, rfl, rfl, by decide, by decide, by decide⟩

theorem witness_CompleteEntryJoins :
    let e := entryOf 4 (.present (pictureOf true [4])) (.absent .off) (.absent .off)
    let waits := entryOf 4 (.present (pictureOf true [4])) .awaited (.absent .off)
    let arrives := entryOf 4 (.arriving (pictureOf true [4])) (.absent .off) (.absent .off)
    let here := fun (e : Entry) (queue : List RecUnit) => withBfm (fun b => { b with entries := [e], queue := queue })
    let long := List.replicate 1024 (unitOf 1 true .retain .owed .none)
    ((here e []).bfm.entry 4 = some e ∧ e.picture = .present (pictureOf true [4]) ∧ e.sound.a ≠ .awaited ∧
      e.sound.b ≠ .awaited ∧ (here e []).rcd.clip = none ∧ (here e []).bfm.queue.length < 1024) ∧
    (waits.sound.a = .awaited ∧ (here arrives []).bfm.entry 4 = some arrives ∧ ∀ p, arrives.picture ≠ .present p) ∧
    (withClip .recording single).rcd.clip = some single ∧
    (1024 ≤ (here e long).bfm.queue.length ∧ (here e long).bfm.queue.find? RecUnit.unheldRing = none) ∧
    (ringOfThree.find? RecUnit.unheldRing).isSome = true ∧ (ringOfThree.map RecUnit.serial).Nodup ∧
    (e.label = none ∧ (e.toUnit (pictureOf true [4])).labelValid = false) := by
  refine ⟨⟨rfl, rfl, by decide, by decide, rfl, by decide⟩, ⟨rfl, rfl, by simp⟩, rfl, ⟨?_, ?_⟩, by decide, by decide, rfl, rfl⟩
  · rw [List.length_replicate]
  · rw [List.find?_eq_none]
    intro u hu
    rw [List.eq_of_mem_replicate hu]; decide

/-- Pages 0 and 1 with a unit and an entry, and the others free: every page once. -/
theorem two_pages_aside (b : Bfm) (free : b.free = { fresh := 2, released := [] })
    (unit : (b.queue.map RecUnit.pages).flatten = [0]) (entry : (b.entries.map Entry.pages).flatten = [1]) :
    (b.free.pages ++ (b.queue.map RecUnit.pages).flatten ++ (b.entries.map Entry.pages).flatten).Perm (List.range 16384) := by
  have whole := List.range'_append (s := 0) (m := 2) (n := 16382) (step := 1)
  rw [free, unit, entry, List.range_eq_range', ← whole, List.append_assoc]
  simp only [FreeList.pages, pageCount, List.append_nil]
  exact List.perm_append_comm

theorem witness_PagesConserved :
    let b := (withQueue ringOfThree).bfm
    b.free.fresh ≤ 16384 ∧ (b.queue.map RecUnit.serial).Nodup ∧ (b.entries.map Entry.serial).Nodup ∧
    (∃ pages b', b.allocate 2 = (some pages, b')) ∧ (∃ b', b.allocate 16385 = (none, b')) ∧
    (let s : State := { base with
       pending := [.bfmFrameStart], due := everyDue
       bfm := { base.bfm with
         free := { fresh := 2, released := [] }
         queue := [{ unitOf 2 true .ring .none .none with picture := pictureOf true [0] }]
         entries := [entryOf 3 (.arriving (pictureOf true [1])) .awaited .awaited]
         port := .data 3 16383 1 } }
     s.bfm.lawful ∧ s.newSerial ∧ ∃ t, step s = .next t) := by
  refine ⟨by decide, by decide, by decide, ⟨_, _, rfl⟩, ⟨_, rfl⟩, ⟨?_, by decide, ?_⟩, ?_, ⟨_, rfl⟩⟩
  · exact two_pages_aside _ rfl rfl rfl
  · intro e he p _
    rw [List.mem_singleton.mp he]
    exact ⟨16383, 1, rfl⟩
  · intro f rest h
    cases h; rfl

theorem witness_BufferRequestsTaken :
    let here := withQueue ringOfThree
    let units := here.bfm.queue.map (fun u => { u with holds := [0] })
    let window : HoldWindow := { first := 1, last := 3 }
    let marked : State := { here with
      bfm := { here.bfm with queue := units, windows := here.bfm.windows.set 0 (some window) }
      slots := { base.slots with a := { base.slots.a with state := .ready } } }
    (here.ready ∧ newer 1 here.ftb.serial = true ∧ (List.replicate 1020 (0 : Byte)).length ≤ 1020 ∧
      here.bfm.attachments.length < 8 ∧ here.rcd.state = .standing ∧ here.ftb.mode = .freeRun) ∧
    (∃ e, (withBfm (fun b => { b with entries := [entryOf 1 .none .awaited .awaited] })).bfm.entry 1 = some e) ∧
    ((∃ tail, here.bfm.queue.getLast? = some tail ∧ newer 3 tail.serial = false) ∧ newer 1 3 = false ∧
      here.bfm.windows[0]? = some none ∧
      here.bfm.queue.filter (fun u => u.membership == .ring && !older u.serial 1 && !newer u.serial 3) ≠ [] ∧
      here.bfm.heldPages + 3 ≤ 12288) ∧
    (marked.ready ∧ marked.bfm.windows[0]? = some (some window) ∧ (∀ u ∈ marked.bfm.queue, u.membership ≠ .retain) ∧
      (∃ head, (marked.bfm.queue.filter (fun u => u.holds.contains 0)).find? (fun u => u.picture.key) = some head) ∧
      marked.rcd.state = .standing ∧ (marked.slot marked.rcd.primary).state = .ready) ∧
    (∀ x, marked.bfm.windows[3]? ≠ some (some x)) ∧
    (let busy : State := { marked with bfm := { marked.bfm with
       queue := units.map (fun u => { u with membership := .retain, progress := { a := .owed, b := .none } })
       attachments := List.replicate 8 (9, [0]), windows := List.replicate 4 (some window), depth := 0 } }
     (busy.ready ∧ (∃ u ∈ busy.bfm.queue.filter (fun u => u.holds.contains 0), u.membership = .retain) ∧
       8 ≤ busy.bfm.attachments.length ∧ ∀ w, w < 4 → ∃ x, busy.bfm.windows[w]? = some (some x))) ∧
    (newer 0 here.ftb.serial = false ∧ here.bfm.entry 3 = none ∧ newer 4 3 = true ∧
      (withClip .recording single).rcd.state ≠ .standing) ∧
    (base.slot base.rcd.primary).state ≠ .ready := by
  refine ⟨⟨⟨rfl, rfl, rfl, by decide⟩, by decide, List.length_replicate.le, by decide, rfl, rfl⟩, ⟨_, rfl⟩,
    ⟨⟨_, rfl, by decide⟩, by decide, rfl, by decide, by decide⟩,
    ⟨⟨rfl, rfl, rfl, by decide⟩, rfl, by decide, ⟨_, rfl⟩, rfl, rfl⟩, ?_,
    ⟨⟨rfl, rfl, rfl, by decide⟩, by decide, by decide, ?_⟩, by decide, by decide⟩
  · intro x h; cases h
  · intro w hw; exact ⟨_, List.getElem?_replicate_of_lt hw⟩

/-- R97's example of a card byte size: a 300,000-byte picture and pair A at 25 frames a second. -/
theorem test_card_byte_size :
    ({ unitOf 1 false .ring .none .none with
        picture := { key := false, length := 300000, pages := [] }
        sound := { a := .present ⟨0, 1920, 0, 0, 0, 0⟩, b := .absent .off } } : RecUnit).cardSize = 311728 := by decide

/-- R72's range of steps reaches four times the input, exactly. -/
theorem test_scale_by_24 : scaleBy 24 2200000 = 8800000 := by decide

/-! ## Clip recording -/

theorem witness_RecStartAnswered :
    let at' := fun (r : RecState) => withClip r single
    base.ready ∧ standby.pwc.inRun = false ∧ base.pwc.inRun = true ∧
    ((at' .recording).ready ∧ (at' .recording).rcd.state = .recording ∧ (at' .recording).rcd.clip = some single) ∧
    (at' .closing).rcd.state = .closing ∧ (base.rcd.state = .standing ∧ base.startStatus ≠ .ok) ∧
    ((withA (fun _ => slotReady)).ready ∧ (withA (fun _ => slotReady)).startStatus = .ok) := by
  refine ⟨witness_ready.1, rfl, rfl, ⟨⟨rfl, rfl, rfl, by decide⟩, rfl, rfl⟩, rfl, ⟨rfl, by decide⟩,
    ⟨⟨rfl, rfl, rfl, by decide⟩, by decide⟩⟩

theorem witness_ClipOpensAndClaims :
    ((withA (fun _ => slotReady)).slot .a).summary = some summary ∧ (∃ j, 1 ≤ j ∧ j ≤ 999 ∧ summary.entry j = none) ∧
    (withClip .recording single).rcd.clip = some single ∧
    ringOfThree.find? (fun u => (u.membership == .ring && !older u.serial 3) && u.picture.key) = none ∧
    (∃ head, ringOfThree.find? (fun u => (u.membership == .ring && !older u.serial 2) && u.picture.key) = some head) ∧
    min (8 - slotReady.queue.length) (slotReady.owed.length + 1) = 1 ∧ slotReady.state = .ready ∧
    (let crowded := { summary with entries := List.replicate 998 (summary.entries.head (by decide)) }
     (∃ j, 1 ≤ j ∧ j ≤ 999 ∧ crowded.entry j = none) ∧ 999 ≤ crowded.entries.length + 1) := by
  refine ⟨rfl, ⟨2, by decide, by decide, by decide⟩, rfl, by decide, ⟨_, rfl⟩, rfl, rfl,
    ⟨2, by decide, by decide, by decide +kernel⟩, by decide +kernel⟩

theorem witness_UnitsJoinTheClip :
    let clip : Clip := { single with last := some 5 }
    let lost : Clip := { single with copies := { a := some (copyOf .lost), b := none } }
    let interval := { withClip .recording single with
      ftb := { base.ftb with interval := some { burst := 1, period := 2 } } }
    let burst := fun (n : Serial) (key : Bool) => { unitOf n key .ring .none .none with burst := true }
    ((withClip .recording single).rcd.clip = some single ∧ (withClip .recording single).rcd.state = .recording ∧
      (single.copies.get .a).any (fun c => c.state == .writing) = true ∧ (withClip .recording single).ftb.interval = none) ∧
    ((withClip .closing clip).rcd.state = .closing ∧ clip.last = some 5 ∧ olderOrSame 5 5 = true ∧ olderOrSame 6 5 = false) ∧
    (lost.copies.get .a).any (fun c => c.state == .writing) = false ∧
    (interval.rcd.state = .recording ∧ interval.ftb.interval = some { burst := 1, period := 2 } ∧ single.start = some 0 ∧
      (burst 3 true).burst = true ∧ single.burstHead ≠ some 1 ∧ (∀ h, single.burstHead = some h → h < 1) ∧
      (burst 3 true).picture.key = true ∧ (burst 3 false).picture.key = false) ∧
    ({ single with burstHead := some 1 } : Clip).burstHead = some ((((3 : Serial) - 0).toNat - 1 : Int) / 2) := by
  refine ⟨⟨rfl, rfl, rfl, rfl⟩, ⟨rfl, rfl, by decide, by decide⟩, rfl, ⟨rfl, rfl, rfl, rfl, by decide, by simp, rfl, rfl⟩,
    by decide⟩

theorem witness_StopsAndPresses :
    let due : State := { base with due := everyDue }
    (due.works ∧ due.due.rcd = frame :: []) ∧ (base.ready ∧ base.rcd.state = .standing ∧ base.pwc.inRun = true) ∧
    ((withClip .recording single).ready ∧ (withClip .recording single).rcd.state = .recording ∧
      (withClip .recording single).rcd.clip = some single) ∧
    (withClip .retaining single).rcd.state = .retaining ∧ (withClip .closing single).rcd.state = .closing ∧
    base.startStatus ≠ .ok ∧ (withA (fun _ => slotReady)).startStatus = .ok ∧ 2 < (0x03#8).toNat := by
  refine ⟨⟨rfl, rfl⟩, ⟨witness_ready.1, rfl, rfl⟩, ⟨⟨rfl, rfl, rfl, by decide⟩, rfl, rfl⟩, rfl, rfl, by decide, by decide,
    by decide⟩

theorem witness_ClipCloses :
    let stopped := fun (copy : CopyState) =>
      ({ single with last := some 5, reason := some .stopped, copies := { a := some (copyOf copy), b := none } } : Clip)
    let here := fun (copy : CopyState) (n : Serial) => ({ withClip .closing (stopped copy) with
      bfm := { base.bfm with entries := [entryOf n .none .awaited .awaited] } } : State)
    ((here .closed 5).rcd.clip = some (stopped .closed) ∧ (here .closed 5).rcd.state = .closing ∧
      (stopped .closed).last = some 5) ∧
    (∃ x ∈ (here .closed 5).bfm.entries, olderOrSame x.serial 5 = true) ∧
    (¬ ∃ x ∈ (here .closed 6).bfm.entries, olderOrSame x.serial 5 = true) ∧
    (¬ ∃ side copy, (stopped .closed).copies.get side = some copy ∧ (copy.state = .writing ∨ copy.state = .closing)) ∧
    (∃ side copy, (stopped .closing).copies.get side = some copy ∧ copy.state = .closing) ∧
    (stopped .closed).reason = some .stopped ∧ (stopped .writing).copies.get .a = some (copyOf .writing) ∧
    (here .closed 6).rcd.latch = false ∧ (here .closed 6).pwc.inRun = true ∧
    (let awaited : State := { here .closed 6 with due := { base.due with bfm := [{ frame with serial := 5 }] } }
     ∃ f ∈ awaited.due.bfm, f.inRun = true ∧ olderOrSame f.serial 5 = true) ∧
    (withClip .retaining (clipOf .retained .single (some (copyOf .closing)) none)).rcd.state = .retaining ∧
    (∀ clip side, (here .writing 6).rcd.clip = some clip → side = .b → ∀ copy, clip.copies.get side = some copy →
      copy.state ≠ .writing) ∧
    ({ here .closed 6 with rcd := { (here .closed 6).rcd with latch := true } } : State).rcd.latch = true ∧
    (let empty : Clip := { stopped .closed with last := none, reason := some .cardFull }
     (withClip .closing empty).rcd.clip = some empty ∧ (withClip .closing empty).rcd.state = .closing ∧ empty.last = none) := by
  refine ⟨⟨rfl, rfl, rfl⟩, ⟨_, List.mem_singleton.mpr rfl, by decide⟩, ?_, ?_, ⟨.a, _, rfl, rfl⟩, rfl, rfl, rfl, rfl,
    ⟨_, List.mem_singleton.mpr rfl, rfl, by decide⟩, rfl, ?_, rfl, rfl, rfl, rfl⟩
  · rintro ⟨x, hx, h⟩
    rw [List.mem_singleton.mp hx] at h; exact absurd h (by decide)
  · rintro ⟨side, copy, hc, h⟩
    cases side
    · cases hc; exact absurd h (by decide)
    · cases hc
  · rintro clip side h rfl copy hc
    cases h; cases hc

/-! ## Card slots -/

abbrev indexEntry (offset : Nat) : IndexEntry := { offset := offset, serial := 1, size := 1, key := true, gap := false }

abbrev block (entries : List IndexEntry) : IndexBlock :=
  { extent := 65535, formatNumber := 4294967295, clip := 65535, start := 1, entries := entries }

theorem witness_CardRoundTrip :
    summary.header.label.length = 16 ∧ summary.header.label.all isCardChar = true ∧ 2 ≤ summary.header.extents ∧
    (∀ e ∈ summary.entries, 1 ≤ e.clip ∧ e.clip ≤ 999 ∧ 1 ≤ e.start ∧ e.start < summary.header.extents ∧ e.extents < 65536 ∧
      e.frames < 4294967296 ∧ e.label.time.hours < 256 ∧ e.label.time.minutes < 256 ∧ e.label.time.seconds < 256 ∧
      e.label.time.frames < 256 ∧ e.rateCode < 256 ∧
      ∀ r, e.continues = some r → r.label.length = 16 ∧ r.clip < 65536 ∧ ∃ b ∈ r.label, b ≠ 0) ∧
    ((block [indexEntry 0, indexEntry 3932159]).entries = [indexEntry 0] ++ [indexEntry 3932159] ∧
      (block [indexEntry 0, indexEntry 3932159]).entries.Pairwise (fun x y => x.offset < y.offset) ∧
      ∀ x ∈ (block [indexEntry 0, indexEntry 3932159]).entries, x.offset < 3932160 ∧ x.size < 4294967296) := by
  refine ⟨by decide, by decide, by decide, ?_, rfl, by decide, by decide⟩
  intro e he
  rw [List.mem_singleton.mp he]
  refine ⟨by decide, by decide, by decide, by decide, by decide, by decide, by decide, by decide, by decide, by decide,
    by decide, ?_⟩
  intro r h; cases h

abbrev writing : WriterCopy :=
  { clip := 12, start := 3, consumed := 0, current := none, ready := none, rest := none, placed := 0, written := 0,
    lastTaken := none, last := .unnamed, stage := .writing, owedIndex := [], lastIndex := none, doneUnits := 0,
    doneBlocks := 0, doneEnd := 0 }

abbrev slotWriting : CardSlot := { slotReady with copy := some writing }

abbrev owedOnA : RecUnit := unitOf 5 true (.clip 7) .owed .none

/-- A clip under way on slot A, with one unit owed there. -/
abbrev recordingA (clip : Clip) (summary' : Summary) : State :=
  { withClip .recording clip with
    bfm := { base.bfm with queue := [owedOnA] }
    slots := { base.slots with a := { slotWriting with summary := some summary' } } }

theorem witness_UnitTaken :
    let here := recordingA single summary
    let full := { summary with nextFree := 10 }
    let relay := clipOf .normal .relay (some (copyOf .writing)) none
    let mirror := clipOf .normal .mirror (some (copyOf .writing)) (some (copyOf .writing))
    (here.works ∧ (here.slot .a).takes = true ∧ (here.slot .a).copy = some writing ∧ (here.slot .a).summary = some summary ∧
      here.bfm.queue.find? (fun x => x.progress.get .a == .owed &&
        (match writing.lastTaken with
         | some t => newer x.serial t
         | none => true)) = some owedOnA ∧ owedOnA.cardSize ≤ (summary.header.extents - summary.nextFree) * 3932160) ∧
    (full.header.extents - full.nextFree) * 3932160 < owedOnA.cardSize ∧ (base.slot .a).takes = false ∧
    ((recordingA relay full).rcd.clip = some relay ∧ relay.kind = .normal ∧ relay.mode = .relay ∧
      ({ recordingA relay full with slots := { (recordingA relay full).slots with b := slotReady } } : State).slots.b.state =
        .ready ∧ relay.copies.get (Side.other .a) = none) ∧
    (mirror.mode = .mirror ∧ mirror.copies.get (Side.other .a) = some (copyOf .writing)) ∧ single.mode = .single ∧
    (let closing := clipOf .normal .mirror (some (copyOf .writing)) (some (copyOf .closing))
     let awaits : State := { recordingA closing full with slots := { (recordingA closing full).slots with
       b := { slotReady with copy := some { writing with last := .unit 5, lastTaken := some 4, stage := .flushing } } } }
     awaits.rcd.clip = some closing ∧ closing.copies.get .b = some (copyOf .closing) ∧ (copyOf .closing).state ≠ .writing ∧
       (awaits.slot .b).copy.map WriterCopy.last = some (.unit 5) ∧ older 5 owedOnA.serial = false ∧
       (awaits.slot .b).copy.bind WriterCopy.lastTaken ≠ some 5) ∧
    (let cur := fun (chunk : Nat) (bytes : List Byte) =>
       ({ chunk := { extent := 3, chunk := chunk, bytes := bytes, units := [], ends := [] }, listed := [] } : CurrentExtent)
     let copy := fun (c : CurrentExtent) => { writing with
       rest := some { serial := 5, size := 2, bytes := [1, 2] }, current := some c }
     let hand := fun (c : CurrentExtent) => withA (fun _ => { slotReady with copy := some (copy c) })
     ((hand (cur 16 [])).slot .a).copy = some (copy (cur 16 [])) ∧ ((hand (cur 16 [])).slot .a).summary = some summary ∧
       (copy (cur 15 [])).ready = none ∧ 16 ≤ (cur 16 []).chunk.chunk ∧ (cur 15 []).chunk.chunk < 16 ∧
       min (262144 - (cur 15 (List.replicate 262143 0)).chunk.bytes.length) 2 = 1) ∧
    ((here.slot .a).state = .ready ∧ summary.nextFree < summary.header.extents ∧ summary.entries.length < 999) ∧
    (let shut := withA (fun _ => { slotReady with state := .fault })
     (shut.slot .a).summary = some summary ∧ (shut.slot .a).state ≠ .ready) := by
  refine ⟨⟨rfl, rfl, rfl, rfl, rfl, by decide⟩, by decide, rfl, ⟨rfl, rfl, rfl, rfl, rfl⟩, ⟨rfl, rfl⟩, rfl,
    ⟨rfl, rfl, by decide, rfl, by decide, by decide⟩, ⟨rfl, rfl, rfl, by decide, by decide, ?_⟩,
    ⟨rfl, by decide, by decide⟩, rfl, by decide⟩
  simp only [List.length_replicate]; rfl

/-- A small unit is taken on a card with so many extents in use, at a near-full threshold of 0: the slot's state, its near-full flag and
the two details told. -/
def roomAfter (nextFree : Nat) : SlotState × Bool × Option (List Byte) × Option (List Byte) :=
  match exec (.unitTake .a) { (recordingA single { summary with nextFree := nextFree }).modifySlot .a
      (fun c => { c with threshold := 0 }) with
    bfm := { base.bfm with queue := [{ owedOnA with picture := { owedOnA.picture with length := 1 } }] } } with
  | .next t => ((t.slot .a).state, (t.slot .a).nearFull, (t.lnk.source .cardFull).record.map Occurrence.detail,
      (t.lnk.source .cardNearFull).record.map Occurrence.detail)
  | _ => (.fault, false, none, none)

/-- R149: the unit that takes the last free extent makes the slot FULL, with CARD_FULL and CARD_NEAR_FULL told; one extent earlier the
slot stays READY. -/
theorem test_last_extent_fills_the_card :
    roomAfter 9 = (.full, true, some (0 :: List.replicate 15 0x41), some [0, 0, 0, 0xFF, 0xFF]) ∧
    roomAfter 8 = (.ready, false, none, none) := by decide +kernel

/-- An OPEN entry, clip 12, at an extent. -/
abbrev opened (start : Nat) : CatEntry :=
  { clip := 12, state := .opened, continuation := false, retained := false, mirrored := false, start := start, extents := 1,
    frames := 0, label := { time := .zero, userBits := 0 }, labelValid := false, rateCode := 2, dropFrame := false,
    continues := none }

abbrev cmd (id first : Nat) (kind : CardCmdKind) : CardCmd :=
  { id := id, kind := kind, first := first, sectors := 1, depends := [], data := List.replicate 512 0 }

/-- A slot with a command in flight. -/
abbrev inFlight (x : CardCmd) : State := withA (fun _ => { slotWriting with queue := [x], inFlight := some x.id, nextId := 2 })

theorem witness_WriteOrder :
    ({ slotReady with queue := [cmd 1 24576 (.essence [] [])] } : CardSlot).inFlight = none ∧
    (∃ id, ({ slotReady with queue := [cmd 1 24576 (.essence [] [])] } : CardSlot).issue.inFlight = some id) ∧
    (∃ id, (inFlight (cmd 1 1 (.catalogue (.opening 12)))).slots.a.inFlight = some id) ∧
    (∃ c', ({ slotReady with owed := [.opening 1] } : CardSlot).fillPlace = some c') ∧
    (let indexed := cmd 7 8192 (.index (block [indexEntry 0]))
     let closes : CardSlot := { slotReady with
       queue := [indexed], nextId := 8, owed := [.closing 12]
       copy := some { writing with stage := .entryClosed, lastIndex := some 7 } }
     (∃ c', closes.fillPlace = some c' ∧ ∃ x ∈ c'.queue, x.depends = [7]) ∧
     ({ closes with owed := [.closing 9], queue := [cmd 1 3 (.catalogue (.closing 9)), indexed] } : CardSlot).issue.inFlight =
       some 1) := by
  refine ⟨rfl, ⟨1, by decide⟩, ⟨_, rfl⟩, ⟨_, rfl⟩, ⟨_, rfl, by decide⟩, by decide⟩

theorem witness_CommandCompletes :
    let kinds : List CardCmdKind := [.catalogue (.opening 12), .catalogue (.progress 12), .catalogue (.closing 12),
      .essence [5] [(5, 100)], .essence [5] [], .essence [5, 6, 7] [(5, 100), (6, 100)], .index (block [indexEntry 0]),
      .catalogue (.freeSector 250), .catalogue .blankHeader, .catalogue (.rebuilt 999), .catalogue .newHeader]
    (∀ kind ∈ kinds, (inFlight (cmd 1 1 kind)).works ∧ ((inFlight (cmd 1 1 kind)).slots.a.queue.map CardCmd.id).Nodup ∧
      cmd 1 1 kind ∈ (inFlight (cmd 1 1 kind)).slots.a.queue ∧
      (inFlight (cmd 1 1 kind)).slots.a.inFlight = some (cmd 1 1 kind).id ∧
      (inFlight (cmd 1 1 kind)).slots.a.copy = some writing) ∧
    (block [indexEntry 0]).entries.getLast? = some (indexEntry 0) ∧ base.slots.a.inFlight = none ∧
    (let recovering := fun (e : CatEntry) => withA (fun _ =>
       { slotWriting with summary := some { summary with entries := [e] }, lastHeader := some summary.header })
     (recovering (opened 10)).slots.a.summary.bind (fun sum => sum.entries.find? (fun e => e.state == .opened)) =
         some (opened 10) ∧
       (∀ e ∈ summary.entries, e.state ≠ .opened) ∧ summary.header.extents - 3 ≠ 0 ∧
       (recovering (opened 10)).slots.a.lastHeader = some summary.header) := by
  refine ⟨fun kind _ => ⟨rfl, ?_, ?_, rfl, rfl⟩, rfl, rfl, by decide, by decide, by decide, rfl⟩
  · simp [State.setSlot, Two.set]
  · exact List.mem_singleton.mpr rfl

theorem witness_CardFailures :
    let here := inFlight (cmd 1 1 (.catalogue (.opening 12)))
    let read := withA (fun c => { c with reading := some .size })
    let two := clipOf .normal .mirror (some (copyOf .writing)) (some (copyOf .writing))
    (here.works ∧ here.slots.a.errors ≤ 65535 ∧ here.slots.a.timeouts ≤ 65535 ∧
      here.slots.a.inFlight = some (cmd 1 1 (.catalogue (.opening 12))).id) ∧
    ((read.slot .a).inFlight = none ∧ (read.slot .a).reading = some .size) ∧
    ((base.slot .a).inFlight = none ∧ (base.slot .a).reading = none) ∧
    ((withClip .recording single).rcd.clip = some single ∧ single.copies.get .a = some (copyOf .writing) ∧
      ∀ other, single.copies.get (Side.other .a) = some other → other.state ≠ .writing ∧ other.state ≠ .closing) ∧
    (two.copies.get (Side.other .a) = some (copyOf .writing) ∧ (copyOf .writing).state = .writing) ∧
    (let shut := clipOf .normal .mirror (some (copyOf .writing)) (some (copyOf .closing))
     (withClip .closing shut).rcd.clip = some shut ∧ shut.copies.get (Side.other .a) = some (copyOf .closing) ∧
       (copyOf .closing).state = .closing) ∧
    (∀ clip copy, base.rcd.clip = some clip → clip.copies.get .a = some copy →
      copy.state ≠ .writing ∧ copy.state ≠ .closing) ∧ (withClip .recording single).rcd.latch = false := by
  refine ⟨⟨rfl, by decide, by decide, rfl⟩, ⟨rfl, rfl⟩, ⟨rfl, rfl⟩, ⟨rfl, rfl, ?_⟩, ⟨rfl, rfl⟩, ⟨rfl, rfl, rfl⟩, ?_, rfl⟩
  · intro other h; cases h
  · intro clip copy h; cases h

theorem take_withCrc (front : List Byte) : (withCrc front).take front.length = front := by simp [withCrc]

theorem field_withCrc (front : List Byte) : field (withCrc front) front.length 2 = crcBytes front := by
  simp [withCrc, field, crcBytes, u16, beBytes]

/-- The bytes of the header before its CRC. -/
abbrev headerFront : List Byte :=
  [0x56, 0x43, 0x41, 0x54] ++ u16 1 ++ summary.header.label ++ u16 summary.header.extents ++
    u32 summary.header.formatNumber ++ List.replicate 482 0

theorem headerFront_length : headerFront.length = 510 := by decide +kernel

theorem test_header_is_accepted : parseHeader summary.header.bytes = some summary.header := by
  have front := take_withCrc headerFront
  have crc := field_withCrc headerFront
  rw [headerFront_length] at front crc
  unfold CardHeader.bytes parseHeader
  rw [front, crc]
  simp only [beq_self_eq_true, Bool.and_true]
  decide +kernel

/-- The bytes of a used entry of clip 1 before its CRC. -/
abbrev entryFront : List Byte :=
  u16 1 ++ u8 2 ++ u8 0 ++ u16 1 ++ u16 2 ++ u32 3 ++ List.replicate 8 0 ++ u8 1 ++ u8 2 ++ u8 0 ++ [0] ++
    List.replicate 18 0 ++ List.replicate 84 0

theorem entryFront_length : entryFront.length = 126 := by decide +kernel

theorem test_place_is_accepted : parsePlace 1 2 (withCrc entryFront) = some (summary.entry 1) := by
  have front := take_withCrc entryFront
  have crc := field_withCrc entryFront
  rw [entryFront_length] at front crc
  unfold parsePlace
  rw [front, crc]
  simp only [beq_self_eq_true, Bool.and_true]
  decide +kernel

/-- A catalogue sector with one used place. -/
theorem sector_of_place (place : List Byte) (e : CatEntry) (len : place.length = 128) (h : parsePlace 1 2 place = some (some e)) :
    parseSector 1 2 (place ++ List.replicate 384 0) = some [e] := by
  have first : field (place ++ List.replicate 384 0) 0 128 = place := by
    simp only [field, List.drop_zero]
    exact List.take_left' len
  have others : ∀ i, 1 ≤ i → i ≤ 3 → field (place ++ List.replicate 384 0) (128 * i) 128 = List.replicate 128 0 := by
    intro i lo hi
    rw [field, List.drop_append, List.drop_eq_nil_of_le (by omega), len, List.nil_append, List.drop_replicate,
      List.take_replicate, Nat.min_eq_left (by omega)]
  have free : ∀ clip, parsePlace clip 2 (List.replicate 128 0) = some none := by
    intro clip
    rw [parsePlace, if_pos (by decide)]
  unfold parseSector
  rw [if_neg (by rw [List.length_append, len, List.length_replicate]; decide)]
  simp only [show List.range 4 = [0, 1, 2, 3] from rfl, List.foldr, Nat.mul_zero, first, others 1 (by decide) (by decide),
    others 2 (by decide) (by decide), others 3 (by decide) (by decide), free, Nat.sub_self, Nat.zero_add, h]
  rfl

/-- The block of clip 12's first and only extent, 9, before its CRC and behind it. -/
abbrev tailBlock : IndexBlock := { extent := 9, formatNumber := 1, clip := 12, start := 9, entries := [indexEntry 0] }

abbrev tailFront : List Byte := [0x49, 0x58, 0, 1, 0, 0, 0, 1, 0, 12, 0, 9, 0, 0]

abbrev tailBack : List Byte := (indexEntry 0).bytes ++ List.replicate 4064 0

theorem tailBlock_bytes : tailBlock.bytes = tailFront ++ crcBytes (tailFront ++ [0, 0] ++ tailBack) ++ tailBack := rfl

theorem index_is_accepted (x y : Byte) (h : [x, y] = crcBytes (tailFront ++ [0, 0] ++ tailBack)) :
    parseIndex (tailFront ++ [x, y] ++ tailBack) =
      some { count := 1, formatNumber := 1, clip := 12, start := 9, ordinal := 0, tailEnd := 1 } := by
  have count : num (tailFront ++ [x, y] ++ tailBack) 2 2 = 1 := rfl
  have size : (tailFront ++ [x, y] ++ tailBack).length = 4096 := by
    simp only [tailBack, List.length_append, List.length_replicate]; rfl
  have rest : allZero ((tailFront ++ [x, y] ++ tailBack).drop 32) = true := by
    show allZero (List.replicate 4064 0) = true
    rw [allZero, List.all_eq_true]
    intro z hz; rw [List.eq_of_mem_replicate hz]; rfl
  have crc : field (tailFront ++ [x, y] ++ tailBack) 14 2 =
      crcBytes ((tailFront ++ [x, y] ++ tailBack).take 14 ++ [0, 0] ++ (tailFront ++ [x, y] ++ tailBack).drop 16) := h
  unfold parseIndex
  simp only [count, size, rest, crc, show 16 + 16 * 1 = 32 from rfl, beq_self_eq_true, Bool.and_true]
  rfl

/-- The block belongs to clip 12 at extent 9. -/
theorem test_index_is_accepted :
    ∃ b, parseIndex tailBlock.bytes = some b ∧ b.formatNumber = 1 ∧ b.clip = 12 ∧ b.start = 9 ∧ b.ordinal + 9 = 9 := by
  rw [tailBlock_bytes, show crcBytes (tailFront ++ [0, 0] ++ tailBack) = [_, _] from rfl, index_is_accepted _ _ rfl]
  exact ⟨_, rfl, rfl, rfl, rfl, rfl⟩

/-- The last sector of a mount is 250; an empty sector passes its checks, one whose first byte is set does not. -/
theorem witness_CardMounts :
    let here := fun (read : CardRead) => withA (fun c => { c with
      state := .mounting, reading := some read, cardSectors := 81920, lastHeader := some summary.header })
    (here .size).works ∧ ((here .size).slot .a).reading = some .size ∧ ((here .header).slot .a).reading = some .header ∧
    parseHeader [] = none ∧ parseHeader summary.header.bytes = some summary.header ∧
    summary.header.extents ≤ 81920 / 8192 ∧ 81919 / 8192 < summary.header.extents ∧
    (((here (.entries 250)).slot .a).reading = some (.entries 250) ∧
      ((here (.entries 250)).slot .a).lastHeader = some summary.header) ∧
    (let sum : Summary := { summary with entries := [opened 9], nextFree := 10 }
     let index := withA (fun c => { c with
       state := .recovering, reading := some (.index 9), summary := some sum
       recovery := some { clip := 12, frames := 0, blocks := 0, tailEnd := 0 } })
     (index.slot .a).reading = some (.index 9) ∧ (index.slot .a).summary = some sum ∧
       (index.slot .a).recovery = some { clip := 12, frames := 0, blocks := 0, tailEnd := 0 } ∧
       sum.entry 12 = some (opened 9) ∧ sum.header.extents ≤ 9 + 1 ∧ 8 + 1 < sum.header.extents ∧
       (∀ b, parseIndex [] = some b → b.clip = 0) ∧
       ∃ b, parseIndex tailBlock.bytes = some b ∧ b.formatNumber = 1 ∧ b.clip = 12 ∧ b.start = 9 ∧ b.ordinal + 9 = 9) ∧
    parseSector 250 10 (List.replicate 512 0) = some [] ∧ parseSector 1 10 (1 :: List.replicate 511 0) = none :=
  ⟨rfl, rfl, rfl, by decide, test_header_is_accepted, by decide, by decide, ⟨rfl, rfl⟩,
    ⟨rfl, rfl, rfl, by decide, by decide, by decide, (fun b h => by cases h), test_index_is_accepted⟩, by decide +kernel, by decide +kernel⟩

/-- A sector whose entry runs past a card of two extents. -/
theorem witness_CardMounts_past_the_end :
    ∃ es, parseSector 1 2 (withCrc entryFront ++ List.replicate 384 0) = some es ∧ ∃ e ∈ es, 2 < e.start + e.extents :=
  ⟨_, sector_of_place _ _ (by rw [withCrc, List.length_append, entryFront_length]; rfl) test_place_is_accepted, _,
    List.mem_singleton.mpr rfl, by decide⟩

theorem witness_CardLines :
    let off := withA (fun c => { c with state := .off })
    let ready := withA (fun _ => slotReady)
    let guarded := withA (fun _ => { slotReady with state := .writeProtected, protectOn := true })
    base.works ∧ (off.slot .a).state = .off ∧ ((base.slot .a).present = false ∧ (base.slot .a).state = .absent) ∧
    ((ready.slot .a).present = true ∧ (ready.slot .a).state ≠ .off) ∧
    ((ready.slot .a).protectOn = false ∧ (ready.slot .a).state = .ready ∧ ready.isTarget .a = false) ∧
    (recordingA single summary).isTarget .a = true ∧
    ((guarded.slot .a).protectOn = true ∧ (guarded.slot .a).state = .writeProtected) ∧
    (let other := fun (state : SlotState) (on : Bool) => withA (fun _ => { slotReady with state := state, protectOn := on })
     ((other .formatting false).slot .a).protectOn = false ∧ ((other .formatting false).slot .a).state ≠ .ready ∧
       ((other .formatting false).slot .a).state ≠ .full ∧ ((other .fault true).slot .a).protectOn = true ∧
       ((other .fault true).slot .a).state ≠ .writeProtected) :=
  ⟨rfl, rfl, ⟨rfl, rfl⟩, ⟨rfl, by decide⟩, ⟨rfl, rfl, rfl⟩, rfl, ⟨rfl, rfl⟩, rfl, by decide, by decide, rfl, by decide⟩

theorem witness_CardRequestsTaken :
    let ready := withA (fun _ => slotReady)
    ready.ready ∧ ready.pwc.enables.slots.get .a = true ∧ (List.replicate 16 (0x7E : Byte)).all isCardChar = true ∧
    ready.pwc.inRun = true ∧ ready.isTarget .a = false ∧ (ready.slot .a).state = .ready ∧
    2 ≤ ({ slotReady with cardSectors := 16384 } : CardSlot).cardSectors / 8192 ∧
    ((withA (fun _ => { slotReady with state := .ejected })).slot .a).state = .ejected ∧
    (ready.slot .a).summary = some summary ∧ (ready.slot .a).threshold = 64 ∧
    ({ slotReady with threshold := 6 } : CardSlot).threshold < summary.header.extents - summary.nextFree ∧
    (standby.ready ∧ standby.pwc.enables.slots.get .a = true ∧ standby.pwc.inRun = false) ∧
    ((recordingA single summary).ready ∧ (recordingA single summary).isTarget .a = true) ∧
    ({ slotReady with cardSectors := 16383 } : CardSlot).cardSectors / 8192 < 2 ∧
    (List.replicate 15 (0x20 : Byte) ++ [0x7F]).all isCardChar = false ∧ (base.slot .a).state = .absent := by
  refine ⟨⟨rfl, rfl, rfl, by decide⟩, rfl, by decide, rfl, rfl, rfl, by decide, rfl, rfl, rfl, by decide,
    ⟨witness_ready.2, rfl, rfl⟩, ⟨⟨rfl, rfl, rfl, by decide⟩, rfl⟩, by decide, by decide, rfl⟩

/-- R150's example: 100 minutes. -/
theorem test_remaining_time :
    let sum : Summary := { summary with header := { summary.header with extents := 12003 } }
    ({ slotReady with summary := some sum, sizes := [311728] } : CardSlot).remainingTime 25 = some 100 := by decide

/-- The places of extents 40 and 41 in chapter 7's worked example. -/
theorem test_chunk_sectors :
    chunkSector 40 0 = 327680 ∧ chunkSector 40 13 = 334336 ∧ chunkSector 41 1 = 336384 ∧ chunkSector 41 2 = 336896 ∧
    entrySector 3 = 1 ∧ entrySector 5 = 2 ∧ entrySector 999 = 250 := by decide

/-! ## Viewfinder, host link, power -/

/-- R158: with LNC disabled, the last byte of items 7 to 9, the stale flag, is set, though LNC left a record without it. -/
theorem test_disabled_lens_is_stale :
    let f := { frame with lens := some { base.lensRecord with stale := false } }
    let off : State := { base with pwc := { base.pwc with enables := { base.pwc.enables with lnc := false } } }
    let flag := fun (s : State) (i : Nat) => (s.systemItem f (s.lensRecordFor f) i).bind List.getLast?
    (∀ i ∈ [7, 8, 9], flag off i = some 1) ∧ ∀ i ∈ [7, 8, 9], flag base i = some 0 := by decide

/-- Records listed and not, VOG working and halted, the link busy and idle; LNC disabled, and a record that it left. -/
theorem witness_VogFrame :
    let left : FrameStart := { frame with lens := some base.lensRecord }
    let off : State := { base with pwc := { base.pwc with enables := { base.pwc.enables with lnc := false } } }
    (off.pwc.enables.lnc = false ∧ base.pwc.enables.lnc = true ∧ left.lens = some base.lensRecord) ∧
    let due := fun (s : State) => ({ s with due := everyDue } : State)
    (due base).works ∧ (due base).due.vog = frame :: [] ∧ (frame.inRun && (due base).pwc.inRun && (due base).pwc.enables.vog) = true ∧
    (∀ x, (due base).vog.shown = some x → x ∈ (due base).lnk.rotation) ∧
    (frame.inRun && (due standby).pwc.inRun && (due standby).pwc.enables.vog) = false ∧ base.vog.inFlight = none ∧
    ({ base.vog with inFlight := some ⟨1, 100, 0, true, []⟩ } : Vog).inFlight.isSome = true := by
  refine ⟨⟨rfl, rfl, rfl⟩, rfl, rfl, rfl, ?_, rfl, rfl, rfl⟩
  intro x h; cases h

theorem witness_ViewfinderRequests :
    base.ready ∧ base.pwc.enables.vog = true ∧ base.pwc.inRun = true ∧ (∃ slot, base.vog.slots[31]? = some slot) ∧
    base.vog.slots.length = 32 ∧ (standby.ready ∧ standby.pwc.enables.vog = true ∧ standby.pwc.inRun = false) ∧
    (24 + (List.replicate 24 (0x7E : Byte)).length ≤ 48) :=
  ⟨witness_ready.1, rfl, rfl, ⟨_, rfl⟩, rfl, ⟨witness_ready.2, rfl, rfl⟩, by decide⟩

/-- Five reply places are needed to see the limit of sixteen: here all sixteen are taken. -/
abbrev fullQueue : State :=
  { base with lnk := { base.lnk with waiting := List.replicate 15 (.reply 0 0 [0]) } }

theorem witness_RequestsJudged :
    let off : State := { base with pwc := { base.pwc with
      enables := { base.pwc.enables with lnc := false, slots := { a := false, b := true } } } }
    let full : State := { fullQueue with lnk := { fullQueue.lnk with inbound := List.replicate 4 ⟨0, 0, []⟩ } }
    (base.ready ∧ ¬ ((rowOfReq .zoomRate).least ≤ ([] : List Byte).length ∧ ([] : List Byte).length ≤ (rowOfReq .zoomRate).greatest)) ∧
    (off.ready ∧ (rowOfReq .zoomRate).owner = .lnc ∧ off.pwc.enables.lnc = false ∧
      ((rowOfReq .zoomRate).least ≤ ([1] : List Byte).length ∧ ([1] : List Byte).length ≤ (rowOfReq .zoomRate).greatest)) ∧
    ((rowOfReq .cardEject).owner = .card ∧ num [0] 0 1 = Side.code .a ∧ off.pwc.enables.slots.get .a = false ∧
      2 ≤ num [2] 0 1) ∧
    (∀ req : Req, req.code ≠ 0xFF) ∧ (fullQueue.works ∧ 16 ≤ fullQueue.lnk.places ∧ fullQueue.lnk.inbound.length < 4) ∧
    (16 ≤ full.lnk.places ∧ 4 ≤ full.lnk.inbound.length) := by
  refine ⟨⟨witness_ready.1, by decide⟩, ⟨⟨rfl, rfl, rfl, by decide⟩, by decide, rfl, by decide⟩,
    ⟨by decide, by decide, rfl, by decide⟩, ?_, ⟨rfl, by decide, by decide⟩, by decide, by decide⟩
  intro req; cases req <;> decide

/-- The last byte of a whole request frame, and one in its middle. -/
theorem witness_FrameReceived :
    let r : Request := { code := 0x7B, tag := 5, payload := [] }
    let frame := linkFrame 0x01#8 r.code r.tag r.payload
    let kept := fun (n : Nat) => ({ base with lnk := { base.lnk with kept := frame.take n } } : State)
    base.works ∧ r.payload.length ≤ 1024 ∧ frame.length = 8 ∧
    (kept 7).lnk.kept ++ [frame[7]?.getD 0] = frame ∧
    (kept 3).lnk.kept ++ (frame[3]?.getD 0) :: frame.drop 4 = frame ∧ frame.drop 4 ≠ [] ∧
    base.lnk.kept = [] ∧ (0x00#8 : Byte) ≠ 0xC3#8 := by
  refine ⟨rfl, by decide, by decide, by decide +kernel, by decide +kernel, by decide, rfl, by decide⟩

/-- R172's check value of the CRC. -/
theorem test_crc_check_value :
    crc16 [0x31, 0x32, 0x33, 0x34, 0x35, 0x36, 0x37, 0x38, 0x39] = 0x29B1#16 := by decide +kernel

theorem witness_DropsAreTakenAgain :
    let kept := fun (bytes : List Byte) => ({ base with lnk := { base.lnk with kept := bytes } } : State)
    let bad : List Byte := [0xC3, 0, 0, 1, 0x7B, 5, 0]
    base.works ∧ base.lnk.kept = [] ∧ (kept [0xC3, 0x04]).lnk.kept = 0xC3 :: [0x04] ∧
    1024 < num ((kept [0xC3, 0x04]).lnk.kept ++ [0x01]) 1 2 ∧ num (kept bad).lnk.kept 1 2 = 0 ∧
    (kept bad).lnk.kept.length = 0 + 7 ∧ field (bad ++ [0]) (0 + 6) 2 ≠ crcBytes (field bad 3 (0 + 3)) := by
  refine ⟨rfl, rfl, rfl, by decide, by decide, by decide, by decide +kernel⟩

theorem witness_MessagesSent :
    let lnk : Lnk := { base.lnk with
      sending := none, waiting := [.notice .partStarted, .notice .linkError]
      table := modifyAt (fun st => { st with pending := true, record := some { detail := [], serial := 0xFFFFFFFF } })
        1 base.lnk.table }
    let reset : State := { base with lnk := { base.lnk with
      resetTaken := true, sending := some { msg := .reply 0x7B 9 [0], frame := [] } } }
    let crowded : State := { base with lnk := { base.lnk with
      waiting := List.replicate 15 (.reply 1 1 [0]), inbound := List.replicate 4 ⟨0x7A, 0, []⟩ } }
    (base.works ∧ base.lnk.sending.isSome = true ∧ base.lnk.resetTaken = false ∧ base.lnk.inbound = []) ∧
    (crowded.works ∧ (∃ m, crowded.lnk.sending = some m) ∧ crowded.lnk.resetTaken = false ∧
      crowded.lnk.inbound = List.replicate 3 ⟨0x7A, 0, []⟩ ++ [⟨0x7A, 0, []⟩] ∧ 16 ≤ crowded.lnk.places) ∧
    (let room : State := { crowded with lnk := { crowded.lnk with sending := none } }
     room.lnk.inbound = ⟨0x7A, 0, []⟩ :: List.replicate 3 ⟨0x7A, 0, []⟩ ∧ room.lnk.places < 16) ∧
    (reset.works ∧ reset.lnk.resetTaken = true ∧ ∃ m, reset.lnk.sending = some m ∧ ∃ tag, m.msg = .reply 0x7B#8 tag [0]) ∧
    ((∀ m ∈ lnk.waiting, m.isNotice = true) ∧ lnk.waiting ≠ [] ∧
      ∀ x, OutMsg.notice x ∈ lnk.waiting → ((lnk.source x).firstSerial - 0xFFFFFFFF).toNat < 2147483648) ∧
    ({ lnk with waiting := [.reply 1 1 [0]] } : Lnk).waiting.find? (fun m => !m.isNotice) = some (.reply 1 1 [0]) ∧
    (let before : State := { reset with lnk := { reset.lnk with
       sending := some { msg := .notice .partStarted, frame := [] }, waiting := [.reply 0x7B 9 [0]] } }
     before.works ∧ before.lnk.resetTaken = true ∧ ∃ m, before.lnk.sending = some m ∧ ∀ tag, m.msg ≠ .reply 0x7B#8 tag [0]) ∧
    (∃ r, ({ base.lnk.source .cardFull with
      record := some { detail := List.replicate 16 0x41, serial := 5 } } : SourceState).record = some r ∧
      r.detail.length ≤ 16) := by
  refine ⟨⟨rfl, by decide, rfl, rfl⟩, ⟨rfl, ⟨_, rfl⟩, rfl, rfl, by decide⟩, ⟨rfl, by decide⟩, ⟨rfl, rfl, _, rfl, 9, rfl⟩, ⟨by decide, by decide, ?_⟩, by decide,
    ⟨rfl, rfl, _, rfl, by simp⟩, _, rfl, by decide⟩
  intro x hx
  simp only [List.mem_cons, OutMsg.notice.injEq, List.not_mem_nil, or_false] at hx
  rcases hx with rfl | rfl <;> decide

theorem witness_NoticeRequestsTaken :
    base.lnk.table.length = 20 ∧ (base.lnk.source .partStarted).pending = true ∧
    (base.lnk.source .partStarted).enabled = true ∧ (base.lnk.source .linkError).enabled = true ∧
    (base.lnk.source .linkError).pending = false ∧
    (({ base.lnk with table := modifyAt (fun st => { st with enabled := false }) 1 base.lnk.table } : Lnk).source
      .linkError).enabled = false ∧ base.ready ∧ Source.number .powerState = 19 ∧
    (19 < 20 ∧ 20 ≤ 255 ∧ 3 < 4 ∧ ∃ i, 19 < i ∧ Nat.testBit 1048576 i = true) := by
  refine ⟨by decide, by decide, by decide, by decide, by decide, by decide, witness_ready.1, rfl, by decide, by decide,
    by decide, 20, by decide, by decide⟩

theorem witness_AttnFollows :
    (∃ t, exec .gapTimeout base = .next t) ∧ base.works ∧ (∀ p q a b, Instr.gapTimeout ≠ .resetEnd p q a b) ∧
    (∃ t, exec .powerOnReset base = .next t) ∧ (∃ t, exec (.resetEnd true false true false) held = .next t) ∧ ¬ held.works :=
  ⟨⟨_, rfl⟩, rfl, by simp, ⟨_, rfl⟩, ⟨_, rfl⟩, by unfold State.works; decide⟩

/-- The notice table's readers at their limits: a message withdrawn, one queued and one left over at a full queue; nine sources that
alert, of which the last by the keys is out of the rotation. -/
theorem test_follow_and_rotation :
    let lnk := (((base.lnk.occur 1 .cardFault []).occur 2 .recState []).occur 3 .linkError [])
    let mixed : Lnk := { lnk with
      waiting := [.notice .linkError, .reply 1 1 [0]], mask := 1
      table := modifyAt (fun st => { st with sent := true }) 1 lnk.table }
    let full : Lnk := { lnk with waiting := List.replicate 14 (.reply 1 1 [0]) }
    let nine := ([.frameLoss, .lensLost, .cardFull, .cardFault, .gyroFault, .audioOver, .unitDropped, .cardNearFull,
      .relaySwitch] : List Source).foldl (fun l src => l.occur 1 src []) base.lnk
    mixed.follow.waiting = [.reply 1 1 [0], .notice .cardFault] ∧ (mixed.follow.source .linkError).sent = false ∧
    (mixed.follow.source .cardFault).sent = true ∧
    full.follow.waiting = List.replicate 14 (.reply 1 1 [0]) ++ [.notice .cardFault] ∧
    (full.follow.source .recState).sent = false ∧
    nine.rotation = [.frameLoss, .lensLost, .cardFull, .cardFault, .gyroFault, .audioOver, .unitDropped, .cardNearFull] ∧
    (nine.source .relaySwitch).pending = true := by decide +kernel

/-- The same commands, a state whose alert list has a source, one whose sent flag a command sets, one whose waiting message begins to be
sent, and one whose alert shown, of three, a clear takes away. -/
theorem witness_ReadersFollow :
    let three := ((base.lnk.occur 1 .cardFault []).occur 2 .cardFull []).occur 3 .gyroFault []
    let shown : State := { base with lnk := three, vog := { base.vog with
      shown := some .cardFull, dwell := 7, rotation := three.rotation } }
    (shown.ready ∧ shown.pwc.inRun = true ∧ shown.pwc.enables.vog = true ∧
      (∃ front back, shown.vog.rotation = front ++ .cardFull :: back ∧ .cardFull ∉ front) ∧
      ∃ t, exec (.noticeClear 1 (u32 (2 ^ Source.number .cardFull))) shown = .next t ∧ .cardFull ∉ t.lnk.rotation) ∧
    let loud : State := { base with lnk := base.lnk.occur 1 .cardFault [] }
    (∃ t, exec .gapTimeout loud = .next t) ∧ loud.works ∧ (loud.lnk.source .cardFault).pending = true ∧
    (loud.lnk.source .cardFault).enabled = true ∧ (loud.lnk.source .cardFault).routes.vf = true ∧
    ((loud.lnk.source .cardFault).sent = false ∧
      ∃ t, exec .gapTimeout loud = .next t ∧ (t.lnk.source .cardFault).sent = true) ∧
    (let told : State := { loud with lnk := loud.lnk.follow }
     OutMsg.notice .cardFault ∈ told.lnk.waiting ∧ told.lnk.table.length = 20 ∧
       ∃ t, exec .messageSent told = .next t ∧ (t.lnk.source .cardFault).sent = true) := by
  refine ⟨⟨⟨rfl, rfl, rfl, by decide⟩, rfl, rfl, ?_, _, rfl, by decide⟩, ⟨_, rfl⟩, rfl, by decide, by decide, by decide,
    ⟨by decide, _, rfl, by decide⟩, by decide, by decide, _, rfl, by decide⟩
  exact ⟨[.cardFault], [.gyroFault], by decide, by decide⟩

theorem witness_QueriesAnswer :
    let ready := withA (fun _ => slotReady)
    ready.ready ∧ ready.pwc.enables = .all ∧ (ready.slot .a).summary = some summary ∧ (ready.slot .a).state = .ready ∧
    999 + 1 ≤ 1000 ∧ ¬ (1 ≤ 1 ∧ 1 ≤ 9 ∧ 9 ≤ 8 ∧ 1 + 9 ≤ 1000) ∧ 1 < (0x02#8).toNat ∧
    ((withA (fun c => { c with state := .mounting })).slot .a).state = .mounting ∧ (base.slot .a).state = .absent ∧
    ((withA (fun c => { c with state := .unformatted })).slot .a).state = .unformatted ∧
    ((withA (fun _ => { slotReady with state := .fault, summary := none })).slot .a).summary = none :=
  ⟨⟨rfl, rfl, rfl, by decide⟩, rfl, rfl, rfl, by decide, by decide, by decide, rfl, rfl, rfl, rfl⟩

theorem witness_RunStateChanges :
    (base.ready ∧ base.pwc.inRun = true ∧ base.rcd.state = .standing ∧ base.slots.a.queue = [] ∧
      base.slots.a.inFlight = none ∧ base.slots.a.state ≠ .mounting ∧ base.slots.a.state ≠ .recovering ∧
      base.slots.a.state ≠ .formatting ∧ base.slots.b = base.slots.a) ∧
    (withClip .closing single).rcd.state ≠ .standing ∧ (standby.ready ∧ standby.pwc.inRun = false) := by
  refine ⟨⟨witness_ready.1, rfl, rfl, rfl, rfl, by decide, by decide, by decide, rfl⟩, by decide, witness_ready.2, rfl⟩

theorem witness_EnablesAndReset :
    base.ready ∧ base.isTarget .a = false ∧ base.isTarget .b = false ∧ base.pwc.enables.aud = true ∧
    (let off : State := { base with due := everyDue, pwc := { base.pwc with enables := { base.pwc.enables with stb := false } } }
     off.ready ∧ off.pwc.enables.stb = false ∧ off.due.stb = [frame]) ∧
    ({ base.pwc with enables := { base.pwc.enables with aud := false } } : Pwc).enables.aud = false ∧
    ((recordingA single summary).ready ∧ (recordingA single summary).isTarget .a = true) ∧
    ∃ x ∈ ([1, 1, 1, 1, 1, 2] : List Byte), 1 < x.toNat :=
  ⟨witness_ready.1, rfl, rfl, rfl, ⟨⟨rfl, rfl, rfl, by decide⟩, rfl, rfl⟩, rfl, ⟨⟨rfl, rfl, rfl, by decide⟩, rfl⟩,
    by decide⟩

end Sys2Proof.Tests
end

namespace Sys2Proof.Machine

/-! # The queue of waiting commands

No operation of the part touches `State.pending` (log entry 3: the outside alone fills it). One lemma per operation, in
the order of the model's definitions, up to what a command does and the theorem on every step. -/

/-! ## Choices and folds -/

@[simp] theorem ite_pending (c : Prop) [Decidable c] (s t : State) :
    (if c then s else t).pending = if c then s.pending else t.pending := apply_ite State.pending c s t

@[simp] theorem ite_fst_pending (c : Prop) [Decidable c] (x y : State × Answer) :
    (if c then x else y).1.pending = if c then x.1.pending else y.1.pending := apply_ite (fun x => x.1.pending) c x y

theorem foldl_pending {α : Type} {f : State → α → State} (hf : ∀ s x, (f s x).pending = s.pending) :
    ∀ (xs : List α) (s : State), (xs.foldl f s).pending = s.pending
  | [], _ => rfl
  | x :: xs, s => (foldl_pending hf xs (f s x)).trans (hf s x)

@[simp] theorem refuse_fst (s : State) (status : Status) : (refuse s status).1 = s := rfl

@[simp] theorem answerOk_fst (s : State) (body : List Byte) : (answerOk s body).1 = s := rfl

@[simp] theorem State.settle_pending (s : State) : s.settle.pending = s.pending := by
  unfold State.settle
  simp

/-! ## The Buffer Manager's shared operations -/

@[simp] theorem State.abandon_pending (s : State) (e : Entry) (reason : AbandonReason) :
    (s.abandon e reason).pending = s.pending := by
  unfold State.abandon
  simp

@[simp] theorem State.placeUnit_pending (s : State) (u : RecUnit) : (s.placeUnit u).pending = s.pending := by
  unfold State.placeUnit
  split <;> rfl

@[simp] theorem State.join_pending (s : State) (e : Entry) (picture : PictureData) :
    (s.join e picture).pending = s.pending := by
  unfold State.join
  split
  · simp
  · split <;> simp

@[simp] theorem State.checkComplete_pending (s : State) (serial : Serial) :
    (s.checkComplete serial).pending = s.pending := by
  unfold State.checkComplete
  split
  · rfl
  · split <;> simp

@[simp] theorem State.sweepWritten_pending (s : State) : s.sweepWritten.pending = s.pending := rfl

/-! ## The card writers' shared operations -/

@[simp] theorem State.reportFull_pending (s : State) (side : Side) : (s.reportFull side).pending = s.pending :=
  (CardsOnly.reportFull s side).pending

@[simp] theorem State.judgeNearFull_pending (s : State) (side : Side) : (s.judgeNearFull side).pending = s.pending :=
  (CardsOnly.judgeNearFull s side).pending

@[simp] theorem State.runWriter_pending (s : State) (side : Side) : (s.runWriter side).pending = s.pending :=
  (CardsOnly.runWriter s side).pending

@[simp] theorem State.openCopy_pending (s : State) (side : Side) (flags : CopyFlags) (continues : Option CopyRef) :
    (s.openCopy side flags continues).1.pending = s.pending :=
  (CardsOnly.openCopy s side flags continues).pending

@[simp] theorem State.nameLast_pending (s : State) (side : Side) (last : LastUnit) :
    (s.nameLast side last).pending = s.pending :=
  (CardsOnly.nameLast s side last).pending

@[simp] theorem State.takeUnit_pending (s : State) (side : Side) (u : RecUnit) :
    (s.takeUnit side u).pending = s.pending :=
  (CardsOnly.takeUnit s side u).pending

@[simp] theorem State.reportDone_pending (s : State) (side : Side) (operation recovered : Nat) :
    (s.reportDone side operation recovered).pending = s.pending := rfl

@[simp] theorem State.mountEnds_pending (s : State) (side : Side) (state : SlotState) (recovered : Nat) :
    (s.mountEnds side state recovered).pending = s.pending := by
  unfold State.mountEnds
  simp

@[simp] theorem State.recoverNext_pending (s : State) (side : Side) : (s.recoverNext side).pending = s.pending := by
  unfold State.recoverNext
  dsimp only
  split
  · rfl
  · split <;> simp

@[simp] theorem State.mountRead_pending (s : State) (side : Side) (header : CardHeader) (entries : List CatEntry) :
    (s.mountRead side header entries).pending = s.pending := by
  unfold State.mountRead
  simp

@[simp] theorem State.rebuild_pending (s : State) (side : Side) (r : Recovery) :
    (s.rebuild side r).pending = s.pending := by
  unfold State.rebuild
  simp

@[simp] theorem State.indexRead_pending (s : State) (side : Side) (extent : Nat) (bytes : List Byte) :
    (s.indexRead side extent bytes).pending = s.pending := by
  unfold State.indexRead
  dsimp only
  split
  · split <;> simp
  · rfl

@[simp] theorem State.mountUnformatted_pending (s : State) (side : Side) :
    (s.mountUnformatted side).pending = s.pending := by
  unfold State.mountUnformatted
  simp

@[simp] theorem State.cardRead_pending (s : State) (side : Side) (read : CardRead) (size : Nat) (bytes : List Byte) :
    (s.cardRead side read size bytes).pending = s.pending := by
  cases read with
  | size => rfl
  | header =>
    unfold State.cardRead
    dsimp only
    split <;> simp
  | entries sector =>
    unfold State.cardRead
    dsimp only
    split
    · simp
    · split <;> simp
  | index extent => exact s.indexRead_pending side extent bytes

/-! ## The Recorder's shared operations -/

@[simp] theorem State.reportRec_pending (s : State) (reason : RecReason) (status slot : Nat) :
    (s.reportRec reason status slot).pending = s.pending := rfl

@[simp] theorem State.beginClip_pending (s : State) (kind : ClipKind) (state : RecState) (start : Option Serial) :
    (s.beginClip kind state start).pending = s.pending := rfl

@[simp] theorem State.openFor_pending (s : State) (side : Side) (flags : CopyFlags) (continues : Option CopyRef) :
    (s.openFor side flags continues).pending = s.pending :=
  s.openCopy_pending side flags continues

@[simp] theorem State.openCopies_pending (s : State) : s.openCopies.pending = s.pending := by
  unfold State.openCopies
  dsimp only
  split <;> simp

@[simp] theorem State.chooseHead_pending (s : State) (floor : Serial) : (s.chooseHead floor).pending = s.pending := by
  unfold State.chooseHead
  split
  · rfl
  · split <;> rfl

@[simp] theorem State.takeStart_pending (s : State) (serial : Serial) : (s.takeStart serial).pending = s.pending := by
  unfold State.takeStart
  simp

@[simp] theorem State.start_pending (s : State) (source : StartSource) (serial : Serial) :
    (s.start source serial).1.pending = s.pending := by
  unfold State.start
  dsimp only
  split
  · rfl
  · split
    · rfl
    · rfl
    · rfl
    · split
      · rfl
      · exact s.takeStart_pending serial

theorem State.startReported_eq (s : State) (source : StartSource) (serial : Serial) :
    s.startReported source serial =
      if (s.start source serial).2 == .ok then (s.start source serial).1
      else (s.start source serial).1.reportRec .startRefused (s.start source serial).2.code 0 := rfl

@[simp] theorem State.startReported_pending (s : State) (source : StartSource) (serial : Serial) :
    (s.startReported source serial).pending = s.pending := by
  rw [State.startReported_eq]
  simp

@[simp] theorem State.endClip_pending (s : State) (reason : EndReason) : (s.endClip reason).pending = s.pending := by
  unfold State.endClip
  simp

@[simp] theorem State.closeCopy_pending (s : State) (side : Side) (last : LastUnit) :
    (s.closeCopy side last).pending = s.pending := by
  unfold State.closeCopy
  simp

@[simp] theorem State.tellLast_pending (s : State) (side : Side) : (s.tellLast side).pending = s.pending := by
  unfold State.tellLast
  split <;> simp

@[simp] theorem State.watchClip_pending (s : State) : s.watchClip.pending = s.pending := by
  unfold State.watchClip
  split
  · split
    · rfl
    · dsimp only
      split <;> simp
  · simp
  · rfl

@[simp] theorem State.review_pending (s : State) : s.review.pending = s.pending := by
  unfold State.review
  simp

@[simp] theorem State.stop_pending (s : State) (serial : Serial) : (s.stop serial).pending = s.pending := by
  unfold State.stop
  split <;> simp

@[simp] theorem State.relaySwitch_pending (s : State) (side : Side) (u : Serial) :
    (s.relaySwitch side u).pending = s.pending := by
  unfold State.relaySwitch
  split <;> simp

@[simp] theorem State.renameLast_pending (s : State) (side : Side) (u : Serial) :
    (s.renameLast side u).pending = s.pending := by
  unfold State.renameLast
  split <;> simp

@[simp] theorem State.cardFullEnd_pending (s : State) (side : Side) (u : Serial) :
    (s.cardFullEnd side u).pending = s.pending := by
  unfold State.cardFullEnd
  split <;> simp

@[simp] theorem State.dropMirror_pending (s : State) (side : Side) (u : Serial) :
    (s.dropMirror side u).pending = s.pending := by
  unfold State.dropMirror State.dropOwed
  simp

@[simp] theorem State.endOfCard_pending (s : State) (side : Side) (u : Serial) :
    (s.endOfCard side u).pending = s.pending := by
  unfold State.endOfCard
  split
  · rfl
  · rw [State.review_pending]
    split
    · simp
    · split <;> simp

@[simp] theorem State.looseUnits_pending (s : State) (side : Side) : (s.looseUnits side).pending = s.pending := rfl

@[simp] theorem State.slotLost_pending (s : State) (side : Side) : (s.slotLost side).pending = s.pending := by
  unfold State.slotLost
  split
  · rfl
  · split
    · rfl
    · dsimp only
      split <;> simp

/-! ## Audio -/

@[simp] theorem State.setSound_pending (s : State) (n : Serial) (side : Side) (x : Sound) :
    (s.setSound n side x).pending = s.pending := rfl

@[simp] theorem State.takeHandOver_pending (s : State) (n : Serial) (side : Side) (h : HandOver) :
    (s.takeHandOver n side h).pending = s.pending := by
  unfold State.takeHandOver
  split
  · rfl
  · split
    · rfl
    · split
      · simp
      · dsimp only
        split <;> simp

@[simp] theorem State.reportSlip_pending (s : State) (n : Serial) (side : Side) (h : HandOver) :
    (s.reportSlip n side h).pending = s.pending := by
  unfold State.reportSlip
  split <;> simp

@[simp] theorem State.pairFrame_pending (s : State) (n : Serial) (side : Side) :
    (s.pairFrame n side).pending = s.pending := by
  unfold State.pairFrame
  simp

@[simp] theorem State.audFrame_pending (s : State) (f : FrameStart) : (s.audFrame f).pending = s.pending := by
  unfold State.audFrame
  simp

@[simp] theorem State.audStep_pending (s : State) : s.audStep.pending = s.pending := by
  unfold State.audStep
  split <;> simp

@[simp] theorem State.handOverOff_pending (s : State) : s.handOverOff.pending = s.pending := by
  unfold State.handOverOff
  simp

@[simp] theorem State.reportOver_pending (s : State) (pair : Side) (w : Which) (first : Bool) :
    (s.reportOver pair w first).pending = s.pending := by
  unfold State.reportOver
  simp

@[simp] theorem State.sampleFrame_pending (s : State) (pair : Side) (x y : Int) :
    (s.sampleFrame pair x y).pending = s.pending := by
  unfold State.sampleFrame
  simp

@[simp] theorem State.setPending_pending (s : State) (side : Side) (w : Which) (f : Channel → Channel) :
    (s.setPending side w f).pending = s.pending := rfl

/-! ## Frame timing -/

@[simp] theorem State.deliver_pending (s : State) (action : TriggerAction) (serial : Serial) :
    (s.deliver action serial).1.pending = s.pending := by
  cases action with
  | start => exact s.start_pending .trigger serial
  | stop => exact s.stop_pending serial
  | noticeOnly => rfl

@[simp] theorem State.tryTrigger_pending (s : State) (e : HistoryEntry) : (s.tryTrigger e).pending = s.pending := by
  unfold State.tryTrigger
  split <;> simp

@[simp] theorem State.frameStart_pending (s : State) (substituted : Bool) :
    (s.frameStart substituted).pending = s.pending := by
  unfold State.frameStart
  simp

@[simp] theorem State.edge_pending (s : State) : s.edge.pending = s.pending := by
  unfold State.edge
  split <;> simp

@[simp] theorem State.countSubstituted_pending (s : State) : s.countSubstituted.pending = s.pending := rfl

@[simp] theorem State.frameLoss_pending (s : State) : s.frameLoss.pending = s.pending := by
  unfold State.frameLoss
  simp

@[simp] theorem State.timerFires_pending (s : State) : s.timerFires.pending = s.pending := by
  unfold State.timerFires
  split <;> simp

@[simp] theorem State.elapseBy_pending (fuel cycles : Nat) (s : State) :
    (State.elapseBy fuel cycles s).pending = s.pending := by
  induction fuel generalizing cycles s with
  | zero => rfl
  | succ fuel ih =>
    unfold State.elapseBy
    simp [ih]

@[simp] theorem State.elapse_pending (s : State) (cycles : Nat) : (s.elapse cycles).pending = s.pending :=
  State.elapseBy_pending _ cycles s

@[simp] theorem State.fireIfDue_pending (s : State) : s.fireIfDue.pending = s.pending := by
  unfold State.fireIfDue
  simp

/-! ## Lens control -/

@[simp] theorem State.endMove_pending (s : State) (axis : Axis) (status : MoveStatus) :
    (s.endMove axis status).pending = s.pending := by
  unfold State.endMove
  split <;> rfl

@[simp] theorem State.endMoves_pending (s : State) (status : MoveStatus) : (s.endMoves status).pending = s.pending := by
  unfold State.endMoves
  simp

@[simp] theorem State.lensLost_pending (s : State) : s.lensLost.pending = s.pending := by
  unfold State.lensLost
  simp

@[simp] theorem State.missReport_pending (s : State) : s.missReport.pending = s.pending := by
  unfold State.missReport
  simp

@[simp] theorem State.windowExpires_pending (s : State) : s.windowExpires.pending = s.pending := by
  unfold State.windowExpires
  simp

@[simp] theorem State.reportOverride_pending (s : State) (axis : Axis) :
    (s.reportOverride axis).pending = s.pending := rfl

@[simp] theorem State.judgeOverride_pending (s : State) (replaced : LensReport) (axis : Axis) :
    (s.judgeOverride replaced axis).pending = s.pending := by
  unfold State.judgeOverride
  split <;> simp

@[simp] theorem State.judgeArrival_pending (s : State) (axis : Axis) : (s.judgeArrival axis).pending = s.pending := by
  unfold State.judgeArrival
  split <;> simp

@[simp] theorem State.goodReport_pending (s : State) (w : ReportWindow) (r : LensReport) :
    (s.goodReport w r).pending = s.pending := by
  unfold State.goodReport
  simp

@[simp] theorem State.lensReport_pending (s : State) (bytes : List Byte) :
    (s.lensReport bytes).pending = s.pending := by
  unfold State.lensReport
  split
  · rfl
  · split <;> simp

@[simp] theorem State.driveFrame_pending (s : State) (d : Drive) : (s.driveFrame d).pending = s.pending := by
  unfold State.driveFrame
  dsimp only
  split
  · rfl
  · split <;> simp

@[simp] theorem State.irisFrame_pending (s : State) (n : Serial) : (s.irisFrame n).pending = s.pending := by
  unfold State.irisFrame
  split
  · rfl
  · split
    · rfl
    · split <;> simp

@[simp] theorem State.lncFrame_pending (s : State) (f : FrameStart) : (s.lncFrame f).pending = s.pending := by
  unfold State.lncFrame
  simp

@[simp] theorem State.lncStep_pending (s : State) : s.lncStep.pending = s.pending := by
  unfold State.lncStep
  split <;> simp

@[simp] theorem State.moveDrive_pending (s : State) (d : Drive) (target duration : Nat) (origin : Origin) :
    (s.moveDrive d target duration origin).pending = s.pending := by
  unfold State.moveDrive
  simp

@[simp] theorem State.stopDrive_pending (s : State) (d : Drive) : (s.stopDrive d).pending = s.pending := by
  unfold State.stopDrive
  simp

@[simp] theorem State.moveIris_pending (s : State) (target duration : Nat) (origin : Origin) :
    (s.moveIris target duration origin).pending = s.pending := by
  unfold State.moveIris
  simp

@[simp] theorem State.haltLens_pending (s : State) : s.haltLens.pending = s.pending := by
  unfold State.haltLens
  simp

/-! ## Image stabilisation -/

@[simp] theorem State.badSample_pending (s : State) (status : Option Byte) :
    (s.badSample status).pending = s.pending := by
  unfold State.badSample
  dsimp only
  split <;> rfl

@[simp] theorem State.gyroDue_pending (s : State) : s.gyroDue.pending = s.pending := by
  unfold State.gyroDue
  simp

@[simp] theorem State.gyroAnswered_pending (s : State) (yaw pitch : Int) (status : Byte) :
    (s.gyroAnswered yaw pitch status).pending = s.pending := by
  unfold State.gyroAnswered
  simp

@[simp] theorem State.noteMean_pending (s : State) (t : TileSet) : (s.noteMean t).pending = s.pending := by
  unfold State.noteMean
  simp

@[simp] theorem State.tileSet_pending (s : State) (t : TileSet) : (s.tileSet t).pending = s.pending := by
  unfold State.tileSet
  simp

@[simp] theorem State.reportEdge_pending (s : State) (before after : StabAxis) (leak : Int) (axis : Nat)
    (serial : Serial) : (s.reportEdge before after leak axis serial).pending = s.pending := by
  unfold State.reportEdge
  split <;> rfl

@[simp] theorem State.moveCrop_pending (s : State) (leak : Int) (serial : Serial) :
    (s.moveCrop leak serial).pending = s.pending := by
  unfold State.moveCrop
  simp

@[simp] theorem State.stabMoves_pending (s : State) (serial : Serial) : (s.stabMoves serial).pending = s.pending := by
  unfold State.stabMoves
  split <;> simp

@[simp] theorem State.sendWindow_pending (s : State) (w : WindowRecord) : (s.sendWindow w).pending = s.pending := rfl

@[simp] theorem State.stbFrame_pending (s : State) (f : FrameStart) : (s.stbFrame f).pending = s.pending := by
  unfold State.stbFrame
  simp

@[simp] theorem State.stbStep_pending (s : State) : s.stbStep.pending = s.pending := by
  unfold State.stbStep
  split <;> simp

/-! ## The buffer memory -/

@[simp] theorem State.ageOldest_pending (s : State) : s.ageOldest.pending = s.pending := by
  unfold State.ageOldest
  split <;> simp

@[simp] theorem State.bfmFrame_pending (s : State) (f : FrameStart) : (s.bfmFrame f).pending = s.pending := by
  unfold State.bfmFrame
  simp

@[simp] theorem State.bfmStep_pending (s : State) : s.bfmStep.pending = s.pending := by
  unfold State.bfmStep
  split <;> simp

@[simp] theorem State.skipPicture_pending (s : State) (length : Nat) : (s.skipPicture length).pending = s.pending := rfl

@[simp] theorem State.skipOlder_pending (s : State) (serial : Serial) : (s.skipOlder serial).pending = s.pending := by
  unfold State.skipOlder
  refine foldl_pending ?_ _ s
  exact fun s e => s.abandon_pending e .skipped

@[simp] theorem State.beginPicture_pending (s : State) (e : Entry) (length : Nat) (key : Bool) :
    (s.beginPicture e length key).pending = s.pending := by
  unfold State.beginPicture
  split
  · simp
  · dsimp only
    split <;> simp

@[simp] theorem State.essenceHeader_pending (s : State) (serial : Serial) (length : Nat) (key : Bool) :
    (s.essenceHeader serial length key).pending = s.pending := by
  unfold State.essenceHeader
  split
  · rfl
  · rfl
  · dsimp only
    split
    · rfl
    · split <;> simp

@[simp] theorem State.fillPicture_pending (s : State) (serial : Serial) (placed remaining : Nat) (bytes : List Byte) :
    (s.fillPicture serial placed remaining bytes).pending = s.pending := by
  unfold State.fillPicture
  simp

@[simp] theorem State.essenceData_pending (s : State) (bytes : List Byte) :
    (s.essenceData bytes).pending = s.pending := by
  unfold State.essenceData
  split <;> simp

@[simp] theorem State.takeRetain_pending (s : State) (w : Nat) (window : HoldWindow) (head : Serial) :
    (s.takeRetain w window head).pending = s.pending := by
  unfold State.takeRetain
  simp

/-! ## The card writers -/

@[simp] theorem State.unitWritten_pending (s : State) (side : Side) (serial : Serial) (size : Nat) :
    (s.unitWritten side serial size).pending = s.pending := rfl

@[simp] theorem State.copyClosed_pending (s : State) (side : Side) : (s.copyClosed side).pending = s.pending := rfl

@[simp] theorem State.formatEnds_pending (s : State) (side : Side) : (s.formatEnds side).pending = s.pending := by
  unfold State.formatEnds
  simp

@[simp] theorem State.completed_pending (s : State) (side : Side) (kind : CardCmdKind) :
    (s.completed side kind).pending = s.pending := by
  cases kind with
  | essence units ends =>
    unfold State.completed
    refine foldl_pending ?_ ends s
    exact fun s e => s.unitWritten_pending side e.1 e.2
  | index block => rfl
  | catalogue purpose => cases purpose <;> simp [State.completed]

@[simp] theorem State.cardFails_pending (s : State) (side : Side) (kind : Nat) (sector : Option Nat)
    (cause : FailCause) :
    (s.cardFails side kind sector cause).pending = s.pending :=
  State.slotLost_pending _ side

@[simp] theorem State.commandAnswered_pending (s : State) (side : Side) (status : CardStatus) :
    (s.commandAnswered side status).pending = s.pending := by
  unfold State.commandAnswered
  split <;> simp

@[simp] theorem State.readAnswered_pending (s : State) (side : Side) (answer : ReadAnswer) :
    (s.readAnswered side answer).pending = s.pending := by
  unfold State.readAnswered
  split <;> simp

@[simp] theorem State.cardTimesOut_pending (s : State) (side : Side) : (s.cardTimesOut side).pending = s.pending := by
  unfold State.cardTimesOut
  split <;> simp

@[simp] theorem State.recordTaken_pending (s : State) (side : Side) (serial : Serial) :
    (s.recordTaken side serial).pending = s.pending := rfl

@[simp] theorem State.takeNext_pending (s : State) (side : Side) : (s.takeNext side).pending = s.pending := by
  unfold State.takeNext
  split
  · rfl
  · split <;> simp

@[simp] theorem State.reportChange_pending (s : State) (side : Side) (change : Nat) :
    (s.reportChange side change).pending = s.pending := rfl

@[simp] theorem State.mountOrDefer_pending (s : State) (side : Side) : (s.mountOrDefer side).pending = s.pending := by
  unfold State.mountOrDefer
  simp

@[simp] theorem State.detectChanged_pending (s : State) (side : Side) (present : Bool) :
    (s.detectChanged side present).pending = s.pending := by
  unfold State.detectChanged
  simp

@[simp] theorem State.protectChanged_pending (s : State) (side : Side) (on : Bool) :
    (s.protectChanged side on).pending = s.pending := by
  unfold State.protectChanged
  simp

/-! ## Recorder, viewfinder and power -/

@[simp] theorem State.rcdStep_pending (s : State) : s.rcdStep.pending = s.pending := by
  unfold State.rcdStep
  split <;> rfl

@[simp] theorem State.vogFrame_pending (s : State) (f : FrameStart) : (s.vogFrame f).pending = s.pending := by
  unfold State.vogFrame
  split <;> rfl

@[simp] theorem State.vogStep_pending (s : State) : s.vogStep.pending = s.pending := by
  unfold State.vogStep
  split <;> simp

@[simp] theorem State.setItem_pending (s : State) (i : Nat) (x : ItemSlot) : (s.setItem i x).pending = s.pending := rfl

@[simp] theorem State.resetItems_pending (s : State) (which : List Nat) : (s.resetItems which).pending = s.pending := by
  unfold State.resetItems
  refine foldl_pending ?_ which s
  exact fun s i => s.setItem_pending i _

@[simp] theorem State.reportPower_pending (s : State) : s.reportPower.pending = s.pending := rfl

@[simp] theorem State.enterStandby_pending (s : State) : s.enterStandby.pending = s.pending := by
  unfold State.enterStandby
  simp

@[simp] theorem State.returnToRun_pending (s : State) (cause : RunCause) :
    (s.returnToRun cause).pending = s.pending := rfl

@[simp] theorem State.press_pending (s : State) : s.press.pending = s.pending := by
  unfold State.press
  split
  · rfl
  · split <;> simp

@[simp] theorem State.switchLnc_pending (s : State) (on : Bool) : (s.switchLnc on).pending = s.pending := by
  unfold State.switchLnc
  simp

@[simp] theorem State.switchStb_pending (s : State) (on : Bool) : (s.switchStb on).pending = s.pending := by
  unfold State.switchStb
  simp

@[simp] theorem State.switchAud_pending (s : State) (on : Bool) : (s.switchAud on).pending = s.pending := by
  unfold State.switchAud
  simp

@[simp] theorem State.switchVog_pending (s : State) (on : Bool) : (s.switchVog on).pending = s.pending := by
  unfold State.switchVog
  simp

@[simp] theorem State.switchSlot_pending (s : State) (side : Side) (on : Bool) :
    (s.switchSlot side on).pending = s.pending := by
  unfold State.switchSlot
  simp

/-- A reset gives every block its power-on values and leaves the queue (R191). -/
@[simp] theorem State.hold_pending (s : State) (cause : ResetCause) : (s.hold cause).pending = s.pending := rfl

@[simp] theorem State.endReset_pending (s : State) (cause : ResetCause) (baud : Nat) (detectA detectB : Bool) :
    (s.endReset cause baud detectA detectB).pending = s.pending := rfl

/-! ## What a block does with a request (R176 step 4) -/

/-! ### Frame timing -/

theorem reqFrameConfig_pending (p : List Byte) (s : State) : (reqFrameConfig p s).1.pending = s.pending := by
  unfold reqFrameConfig
  split <;> simp

theorem reqTcPreset_pending (p : List Byte) (s : State) : (reqTcPreset p s).1.pending = s.pending := by
  unfold reqTcPreset
  simp

theorem reqTcMode_pending (p : List Byte) (s : State) : (reqTcMode p s).1.pending = s.pending := by
  unfold reqTcMode
  split <;> simp

theorem reqTcTrigger_pending (p : List Byte) (s : State) : (reqTcTrigger p s).1.pending = s.pending := by
  unfold reqTcTrigger
  split
  · rfl
  · split
    · rfl
    · dsimp only
      split <;> simp

theorem reqIntervalConfig_pending (p : List Byte) (s : State) : (reqIntervalConfig p s).1.pending = s.pending := by
  unfold reqIntervalConfig
  split <;> simp

theorem reqTimeQuery_pending (p : List Byte) (s : State) : (reqTimeQuery p s).1.pending = s.pending := by
  unfold reqTimeQuery
  split <;> simp

/-! ### Lens control -/

theorem State.takeRate_pending (s : State) (d : Drive) (p : List Byte) : (s.takeRate d p).1.pending = s.pending := by
  unfold State.takeRate
  split <;> simp

theorem reqLensGoto_pending (p : List Byte) (s : State) : (reqLensGoto p s).1.pending = s.pending := by
  unfold reqLensGoto
  dsimp only
  split <;> simp

theorem reqLensStop_pending (p : List Byte) (s : State) : (reqLensStop p s).1.pending = s.pending := by
  unfold reqLensStop
  simp

@[simp] theorem State.storePreset_pending (s : State) (i : Nat) (x : Preset) :
    (s.storePreset i x).1.pending = s.pending := rfl

theorem reqPresetStore_pending (p : List Byte) (s : State) : (reqPresetStore p s).1.pending = s.pending := by
  unfold reqPresetStore
  split
  · simp
  · split <;> simp
  · rfl

@[simp] theorem State.recall_pending (s : State) (i : Nat) (x : Preset) (t : Nat) :
    (s.recall i x t).1.pending = s.pending := by
  unfold State.recall
  dsimp only
  split <;> simp

theorem reqPresetRecall_pending (p : List Byte) (s : State) : (reqPresetRecall p s).1.pending = s.pending := by
  unfold reqPresetRecall
  split
  · split <;> simp
  · rfl

@[simp] theorem State.takeIris_pending (s : State) (f : Iris → Iris) : (s.takeIris f).1.pending = s.pending := by
  unfold State.takeIris
  simp

theorem reqIrisAuto_pending (p : List Byte) (s : State) : (reqIrisAuto p s).1.pending = s.pending := by
  unfold reqIrisAuto
  split <;> simp

theorem reqZoomCurveLoad_pending (p : List Byte) (s : State) : (reqZoomCurveLoad p s).1.pending = s.pending := by
  unfold reqZoomCurveLoad
  simp

theorem reqLensConfig_pending (p : List Byte) (s : State) : (reqLensConfig p s).1.pending = s.pending := by
  unfold reqLensConfig
  split <;> rfl

theorem reqLensQuery_pending (p : List Byte) (s : State) : (reqLensQuery p s).1.pending = s.pending := by
  unfold reqLensQuery
  split <;> simp

/-! ### Image stabilisation -/

theorem reqStabConfig_pending (p : List Byte) (s : State) : (reqStabConfig p s).1.pending = s.pending := by
  unfold reqStabConfig
  split <;> simp

theorem reqStabMode_pending (p : List Byte) (s : State) : (reqStabMode p s).1.pending = s.pending := by
  unfold reqStabMode
  split <;> simp

theorem reqStabRecentre_pending (p : List Byte) (s : State) : (reqStabRecentre p s).1.pending = s.pending := by
  unfold reqStabRecentre
  simp

theorem reqStabQuery_pending (p : List Byte) (s : State) : (reqStabQuery p s).1.pending = s.pending := by
  unfold reqStabQuery
  split <;> simp

/-! ### Audio -/

theorem reqAudioRoute_pending (p : List Byte) (s : State) : (reqAudioRoute p s).1.pending = s.pending := by
  unfold reqAudioRoute
  split <;> simp

theorem reqAudioGain_pending (p : List Byte) (s : State) : (reqAudioGain p s).1.pending = s.pending := by
  unfold reqAudioGain
  split <;> simp

theorem reqAudioLimiter_pending (p : List Byte) (s : State) : (reqAudioLimiter p s).1.pending = s.pending := by
  unfold reqAudioLimiter
  split <;> simp

theorem reqAudioQuery_pending (p : List Byte) (s : State) : (reqAudioQuery p s).1.pending = s.pending := by
  unfold reqAudioQuery
  split <;> simp

/-! ### The buffer memory -/

theorem reqAuxAttach_pending (p : List Byte) (s : State) : (reqAuxAttach p s).1.pending = s.pending := by
  unfold reqAuxAttach
  simp

theorem reqMarkFrame_pending (p : List Byte) (s : State) : (reqMarkFrame p s).1.pending = s.pending := by
  unfold reqMarkFrame
  dsimp only
  split
  · rfl
  · rfl
  · split <;> rfl

theorem reqPrerecConfig_pending (p : List Byte) (s : State) : (reqPrerecConfig p s).1.pending = s.pending := by
  unfold reqPrerecConfig
  split <;> simp

theorem reqHoldSet_pending (p : List Byte) (s : State) : (reqHoldSet p s).1.pending = s.pending := by
  unfold reqHoldSet
  dsimp only
  split
  · rfl
  · split <;> simp

theorem reqHoldClear_pending (p : List Byte) (s : State) : (reqHoldClear p s).1.pending = s.pending := by
  unfold reqHoldClear
  split <;> simp

theorem reqHoldRetain_pending (p : List Byte) (s : State) : (reqHoldRetain p s).1.pending = s.pending := by
  unfold reqHoldRetain
  split
  · rfl
  · split
    · split
      · rfl
      · split <;> simp
    · rfl

theorem reqBufferQuery_pending (p : List Byte) (s : State) : (reqBufferQuery p s).1.pending = s.pending := by
  unfold reqBufferQuery
  split <;> simp

/-! ### Clips and cards -/

theorem reqSlotMode_pending (p : List Byte) (s : State) : (reqSlotMode p s).1.pending = s.pending := by
  unfold reqSlotMode
  split <;> simp

theorem reqRecStart_pending (p : List Byte) (s : State) : (reqRecStart p s).1.pending = s.pending := by
  unfold reqRecStart
  simp

theorem reqRecStop_pending (p : List Byte) (s : State) : (reqRecStop p s).1.pending = s.pending :=
  s.stop_pending s.rcd.noted

theorem reqRecQuery_pending (p : List Byte) (s : State) : (reqRecQuery p s).1.pending = s.pending := by
  unfold reqRecQuery
  split <;> simp

theorem reqCardFormat_pending (p : List Byte) (s : State) : (reqCardFormat p s).1.pending = s.pending := by
  unfold reqCardFormat
  split
  · rfl
  · dsimp only
    split
    · rfl
    · split <;> simp

theorem reqCardEject_pending (p : List Byte) (s : State) : (reqCardEject p s).1.pending = s.pending := by
  unfold reqCardEject
  split
  · rfl
  · split
    · rfl
    · split <;> rfl

theorem reqCatalogueRead_fst (p : List Byte) (s : State) : (reqCatalogueRead p s).1 = s := by
  unfold reqCatalogueRead
  split
  · next side _ _ _ _ _ =>
    split
    · rfl
    · dsimp only
      cases (s.slot side).summary <;> cases (s.slot side).state <;> rfl
  · rfl

theorem reqCardConfig_pending (p : List Byte) (s : State) : (reqCardConfig p s).1.pending = s.pending := by
  unfold reqCardConfig
  split <;> simp

theorem reqCardQuery_pending (p : List Byte) (s : State) : (reqCardQuery p s).1.pending = s.pending := by
  unfold reqCardQuery
  split <;> simp

/-! ### Viewfinder overlay -/

theorem reqVfItemSet_pending (p : List Byte) (s : State) : (reqVfItemSet p s).1.pending = s.pending := by
  unfold reqVfItemSet
  split <;> simp

theorem reqVfItemClear_pending (p : List Byte) (s : State) : (reqVfItemClear p s).1.pending = s.pending := by
  unfold reqVfItemClear
  simp

theorem reqVfText_pending (p : List Byte) (s : State) : (reqVfText p s).1.pending = s.pending := by
  unfold reqVfText
  dsimp only
  split <;> simp

theorem reqVfConfig_pending (p : List Byte) (s : State) : (reqVfConfig p s).1.pending = s.pending := by
  unfold reqVfConfig
  dsimp only
  split <;> simp

/-! ### Notices and power -/

theorem reqNoticeConfig_pending (p : List Byte) (s : State) : (reqNoticeConfig p s).1.pending = s.pending := by
  unfold reqNoticeConfig
  split <;> simp

theorem reqNoticeMask_pending (p : List Byte) (s : State) : (reqNoticeMask p s).1.pending = s.pending := by
  unfold reqNoticeMask
  split <;> simp

theorem reqNoticeClear_pending (p : List Byte) (s : State) : (reqNoticeClear p s).1.pending = s.pending := by
  unfold reqNoticeClear
  simp

theorem reqNoticeQuery_pending (p : List Byte) (s : State) : (reqNoticeQuery p s).1.pending = s.pending := by
  unfold reqNoticeQuery
  split <;> simp

theorem reqPowerStandby_pending (p : List Byte) (s : State) : (reqPowerStandby p s).1.pending = s.pending := by
  unfold reqPowerStandby
  simp

theorem reqPowerRun_pending (p : List Byte) (s : State) : (reqPowerRun p s).1.pending = s.pending := by
  unfold reqPowerRun
  simp

theorem reqBlockEnable_pending (p : List Byte) (s : State) : (reqBlockEnable p s).1.pending = s.pending := by
  unfold reqBlockEnable
  split <;> simp

/-! ## The host link -/

@[simp] theorem takeRequest_pending (req : Req) (p : List Byte) (s : State) :
    (takeRequest req p s).1.pending = s.pending := by
  cases req with
  | frameConfig => exact reqFrameConfig_pending p s
  | tcPreset => exact reqTcPreset_pending p s
  | tcMode => exact reqTcMode_pending p s
  | tcUserbits => rfl
  | tcTrigger => exact reqTcTrigger_pending p s
  | intervalConfig => exact reqIntervalConfig_pending p s
  | timeQuery => exact reqTimeQuery_pending p s
  | zoomRate => exact s.takeRate_pending .zoom p
  | focusRate => exact s.takeRate_pending .focus p
  | lensGoto => exact reqLensGoto_pending p s
  | lensStop => exact reqLensStop_pending p s
  | presetStore => exact reqPresetStore_pending p s
  | presetRecall => exact reqPresetRecall_pending p s
  | irisSet => exact s.takeIris_pending _
  | irisAuto => exact reqIrisAuto_pending p s
  | zoomCurveLoad => exact reqZoomCurveLoad_pending p s
  | lensConfig => exact reqLensConfig_pending p s
  | lensQuery => exact reqLensQuery_pending p s
  | stabConfig => exact reqStabConfig_pending p s
  | stabMode => exact reqStabMode_pending p s
  | stabRecentre => exact reqStabRecentre_pending p s
  | stabQuery => exact reqStabQuery_pending p s
  | audioRoute => exact reqAudioRoute_pending p s
  | audioGain => exact reqAudioGain_pending p s
  | audioLimiter => exact reqAudioLimiter_pending p s
  | audioQuery => exact reqAudioQuery_pending p s
  | auxAttach => exact reqAuxAttach_pending p s
  | markFrame => exact reqMarkFrame_pending p s
  | prerecConfig => exact reqPrerecConfig_pending p s
  | holdSet => exact reqHoldSet_pending p s
  | holdClear => exact reqHoldClear_pending p s
  | holdRetain => exact reqHoldRetain_pending p s
  | bufferQuery => exact reqBufferQuery_pending p s
  | slotMode => exact reqSlotMode_pending p s
  | recStart => exact reqRecStart_pending p s
  | recStop => exact reqRecStop_pending p s
  | recQuery => exact reqRecQuery_pending p s
  | cardFormat => exact reqCardFormat_pending p s
  | cardEject => exact reqCardEject_pending p s
  | catalogueRead => exact congrArg State.pending (reqCatalogueRead_fst p s)
  | cardConfig => exact reqCardConfig_pending p s
  | cardQuery => exact reqCardQuery_pending p s
  | vfItemSet => exact reqVfItemSet_pending p s
  | vfItemClear => exact reqVfItemClear_pending p s
  | vfText => exact reqVfText_pending p s
  | vfConfig => exact reqVfConfig_pending p s
  | noticeConfig => exact reqNoticeConfig_pending p s
  | noticeMask => exact reqNoticeMask_pending p s
  | noticeClear => exact reqNoticeClear_pending p s
  | noticeQuery => exact reqNoticeQuery_pending p s
  | powerStandby => exact reqPowerStandby_pending p s
  | powerRun => exact reqPowerRun_pending p s
  | blockEnable => exact reqBlockEnable_pending p s
  | partReset => rfl

@[simp] theorem State.judgeRow_pending (s : State) (row : ReqRow) (payload : List Byte) :
    (s.judgeRow row payload).1.pending = s.pending := by
  unfold State.judgeRow
  split
  · rfl
  · split <;> simp

@[simp] theorem State.judgeRequest_pending (s : State) (r : Request) : (s.judgeRequest r).1.pending = s.pending := by
  unfold State.judgeRequest
  split <;> simp

@[simp] theorem State.serve_pending (s : State) (r : Request) : (s.serve r).pending = s.pending := by
  unfold State.serve
  simp

@[simp] theorem State.dispatch_pending (fuel : Nat) (s : State) : (State.dispatch fuel s).pending = s.pending := by
  induction fuel generalizing s with
  | zero => rfl
  | succ fuel ih =>
    unfold State.dispatch
    split
    · rfl
    · simp [ih]

@[simp] theorem State.dropFrame_pending (s : State) (cause : DropCause) : (s.dropFrame cause).pending = s.pending := by
  unfold State.dropFrame
  simp

@[simp] theorem State.offer_pending (s : State) (r : Request) : (s.offer r).pending = s.pending := by
  unfold State.offer
  simp

@[simp] theorem State.hunt_pending (s : State) : s.hunt.pending = s.pending := rfl

@[simp] theorem State.takeBytes_pending (fuel : Nat) (bytes : List Byte) (s : State) :
    (State.takeBytes fuel bytes s).pending = s.pending := by
  induction fuel generalizing bytes s with
  | zero => rfl
  | succ fuel ih =>
    cases bytes with
    | nil => rfl
    | cons b rest =>
      unfold State.takeBytes
      dsimp only
      split <;> simp [ih]

@[simp] theorem State.receiveBytes_pending (s : State) (bytes : List Byte) :
    (s.receiveBytes bytes).pending = s.pending :=
  State.takeBytes_pending _ bytes s

@[simp] theorem State.dropKept_pending (s : State) (cause : DropCause) : (s.dropKept cause).pending = s.pending := by
  unfold State.dropKept
  simp

@[simp] theorem State.framingError_pending (s : State) : s.framingError.pending = s.pending := by
  unfold State.framingError
  simp

@[simp] theorem State.gapExpires_pending (s : State) : s.gapExpires.pending = s.pending := by
  unfold State.gapExpires
  simp

@[simp] theorem State.messageSent_pending (s : State) : s.messageSent.pending = s.pending := by
  unfold State.messageSent
  split <;> simp

/-! ## Commands and steps -/

/-- The command completes: it answers a next state, in which the queue of waiting commands stands as it was. -/
def Completes (c : Instr) (s : State) : Prop := ∃ t, exec c s = .next t ∧ t.pending = s.pending

theorem completes_act {c : Instr} {s : State} (effect : State → State) (hc : exec c s = s.act effect)
    (h : (effect s).pending = s.pending) : Completes c s := by
  unfold Completes
  rw [hc]
  unfold State.act
  split
  · exact ⟨s, rfl, rfl⟩
  · exact ⟨(effect s).settle, rfl, by rw [State.settle_pending, h]⟩

theorem completes_receive {c : Instr} {s : State} {code tag : Byte} {payload : List Byte}
    (hc : exec c s = s.receive code tag payload) : Completes c s :=
  completes_act _ hc (s.offer_pending _)

theorem completes_resetEnd (strap1 strap0 detectA detectB : Bool) (s : State) :
    Completes (.resetEnd strap1 strap0 detectA detectB) s := by
  change ∃ t, execResetEnd strap1 strap0 detectA detectB s = .next t ∧ t.pending = s.pending
  unfold execResetEnd
  split
  · exact ⟨s, rfl, rfl⟩
  · exact ⟨_, rfl, s.endReset_pending _ _ detectA detectB⟩

/-- Every command completes, in every state. The commands without a case of their own are the requests, which all reach the
part through the inbound queue (R175). -/
theorem exec_completes (c : Instr) (s : State) : Completes c s := by
  cases c with
  | frameStartEdge cycles =>
    exact completes_act (fun s => (s.elapse cycles).edge) rfl
      ((s.elapse cycles).edge_pending.trans (s.elapse_pending cycles))
  | substitutionTimer => exact completes_act State.fireIfDue rfl s.fireIfDue_pending
  | lncFrameStart => exact completes_act State.lncStep rfl s.lncStep_pending
  | lensReport bytes => exact completes_act (·.lensReport bytes) rfl (s.lensReport_pending bytes)
  | reportWindowExpiry => exact completes_act State.windowExpires rfl s.windowExpires_pending
  | gyroReadDue => exact completes_act State.gyroDue rfl s.gyroDue_pending
  | gyroAnswer yaw pitch status =>
    exact completes_act (·.gyroAnswered yaw.toInt pitch.toInt status) rfl
      (s.gyroAnswered_pending yaw.toInt pitch.toInt status)
  | tileSetComplete serial pixels => exact completes_act (·.tileSet ⟨serial, pixels⟩) rfl (s.tileSet_pending _)
  | correlationComplete => exact completes_act (·.modifyStb Stb.correlated) rfl rfl
  | stbFrameStart => exact completes_act State.stbStep rfl s.stbStep_pending
  | sampleFrame pair first second =>
    exact completes_act (·.sampleFrame pair first.toInt second.toInt) rfl
      (s.sampleFrame_pending pair first.toInt second.toInt)
  | audFrameStart => exact completes_act State.audStep rfl s.audStep_pending
  | bfmFrameStart => exact completes_act State.bfmStep rfl s.bfmStep_pending
  | essenceHeader serial lengthLessOne key =>
    exact completes_act (·.essenceHeader serial (lengthLessOne.toNat + 1) key) rfl
      (s.essenceHeader_pending serial _ key)
  | essenceData bytes => exact completes_act (·.essenceData bytes) rfl (s.essenceData_pending bytes)
  | rcdFrameStart => exact completes_act State.rcdStep rfl s.rcdStep_pending
  | vogFrameStart => exact completes_act State.vogStep rfl s.vogStep_pending
  | overlaySent => exact completes_act (fun s => { s with vog := s.vog.recordSent }) rfl rfl
  | recLinePress => exact completes_act State.press rfl s.press_pending
  | unitTake slot => exact completes_act (·.takeNext slot) rfl (s.takeNext_pending slot)
  | commandComplete slot status =>
    exact completes_act (·.commandAnswered slot status) rfl (s.commandAnswered_pending slot status)
  | cardReadComplete slot answer =>
    exact completes_act (·.readAnswered slot answer) rfl (s.readAnswered_pending slot answer)
  | cardTimeout slot => exact completes_act (·.cardTimesOut slot) rfl (s.cardTimesOut_pending slot)
  | cardDetectChange slot present =>
    exact completes_act (·.detectChanged slot present) rfl (s.detectChanged_pending slot present)
  | protectChange slot on => exact completes_act (·.protectChanged slot on) rfl (s.protectChanged_pending slot on)
  | byteArrival byte => exact completes_act (·.receiveBytes [byte]) rfl (s.receiveBytes_pending [byte])
  | lineFramingError => exact completes_act State.framingError rfl s.framingError_pending
  | gapTimeout => exact completes_act State.gapExpires rfl s.gapExpires_pending
  | messageSent => exact completes_act State.messageSent rfl s.messageSent_pending
  | powerOnReset => exact ⟨s.hold .powerOn, rfl, s.hold_pending .powerOn⟩
  | resetEnd strap1 strap0 detectA detectB => exact completes_resetEnd strap1 strap0 detectA detectB s
  | _ => exact completes_receive rfl

/-- A step runs the command at the front, or lets a cycle of the reference clock pass (log entry 2). -/
theorem step_goes_on (s : State) : StepsOn s := by
  unfold StepsOn step
  split
  · split
    · exact ⟨s, rfl⟩
    · exact ⟨s.elapse 1, rfl⟩
  · next c rest _ =>
    obtain ⟨t, ht, _⟩ := exec_completes c { s with pending := rest }
    exact ⟨t, ht⟩

theorem exec_pending {c : Instr} {s t : State} (h : exec c s = .next t) : t.pending = s.pending := by
  obtain ⟨u, hu, hq⟩ := exec_completes c s
  obtain rfl : u = t := Host.Outcome.next.inj (hu.symm.trans h)
  exact hq

/-- Settles O2: every command completes and leaves the queue as it is, so a step, which is a command's or a passing
cycle's, always answers. -/
theorem everyStepGoesOn : Obligations.EveryStepGoesOn := by
  unfold Obligations.EveryStepGoesOn
  exact ⟨step_goes_on, fun _ _ _ => exec_pending⟩

end Sys2Proof.Machine


namespace Sys2Proof.Machine

/-! # The laws that every step keeps (R5, R6, R14, R88, R175, R177) -/

/-! ## Time values -/

theorem Rate.dropCount_lt_nominal (r : Rate) : r.dropCount < r.nominal := by cases r <;> decide

theorem Timecode.inRange_iff (r : Rate) (t : Timecode) :
    t.inRange r = true ↔ t.hours ≤ 23 ∧ t.minutes ≤ 59 ∧ t.seconds ≤ 59 ∧ t.frames < r.nominal := by
  simp [Timecode.inRange, and_assoc]

/-- Moving a dropped label forward gives a lawful time value (R14). -/
theorem Timecode.lawful_moveForward {r : Rate} {t : Timecode} (drop : Bool) (h : t.inRange r = true) :
    (t.moveForward r drop).lawful r drop := by
  unfold Timecode.lawful Timecode.moveForward
  split
  · rw [Timecode.inRange_iff] at h ⊢
    obtain ⟨hours, minutes, seconds, _⟩ := h
    exact ⟨⟨hours, minutes, seconds, r.dropCount_lt_nominal⟩, by simp [Timecode.isDropped]⟩
  · next kept => exact ⟨h, by simpa using kept⟩

/-- The carries of R15 keep the fields in range. -/
theorem Timecode.inRange_succ {r : Rate} {t : Timecode} (h : t.inRange r = true) : (t.succ r).inRange r = true := by
  rw [Timecode.inRange_iff] at h ⊢
  unfold Timecode.succ Timecode.zero
  have := r.dropCount_lt_nominal
  split_ifs <;> dsimp only <;> omega

theorem Timecode.lawful_advance {r : Rate} {t : Timecode} (drop : Bool) (h : t.inRange r = true) :
    (t.advance r drop).lawful r drop :=
  Timecode.lawful_moveForward drop (Timecode.inRange_succ h)

/-- A time value brought under another rate is lawful there (R23). -/
theorem Timecode.lawful_fit {old r : Rate} {t : Timecode} (drop : Bool) (h : t.inRange old = true) :
    (t.fit r drop).lawful r drop := by
  refine Timecode.lawful_moveForward drop ?_
  rw [Timecode.inRange_iff] at h ⊢
  have := r.dropCount_lt_nominal
  dsimp only
  omega

/-! ## The timecode's law -/

theorem Ftb.lawful_advance {ftb : Ftb} (h : ftb.lawful) : ftb.advance.lawful := by
  obtain ⟨allowed, ⟨range, _⟩, preset, bound⟩ := h
  exact ⟨allowed, Timecode.lawful_advance _ range, preset, bound⟩

theorem Ftb.lawful_clipStarted {ftb : Ftb} (h : ftb.lawful) : ftb.clipStarted.lawful := by
  unfold Ftb.clipStarted
  split
  · exact h
  · split
    · exact Ftb.lawful_advance h
    · exact h

theorem Ftb.lawful_loadPreset {ftb : Ftb} (h : ftb.lawful) : ftb.loadPreset.lawful := by
  unfold Ftb.loadPreset
  split
  · next t pending =>
    obtain ⟨allowed, _, preset, bound⟩ := h
    exact ⟨allowed, preset t pending, by simp, bound⟩
  · exact h

theorem Ftb.lawful_countDown {ftb : Ftb} (recording : Bool) (h : ftb.lawful) : (ftb.countDown recording).lawful := by
  unfold Ftb.countDown
  split
  · split <;> exact h
  · exact h

/-- The elapsed count is the law's only field that a frame start sets by itself, and it sets it to 0 (R6). -/
theorem Ftb.lawful_elapsed {ftb : Ftb} {e : Nat} (h : ftb.lawful) (bound : 2 * e ≤ 3 * ftb.rate.period + 1) :
    ({ ftb with elapsed := e } : Ftb).lawful := by
  obtain ⟨allowed, generator, preset, _⟩ := h
  exact ⟨allowed, generator, preset, bound⟩

theorem Ftb.lawful_begin {ftb : Ftb} (substituted recording : Bool) (h : ftb.lawful) :
    (ftb.begin substituted recording).2.lawful := by
  have restarted := Ftb.lawful_elapsed (e := 0) h (by omega)
  unfold Ftb.begin Ftb.addEntry
  refine Ftb.lawful_countDown (ftb := Ftb.loadPreset _) recording (Ftb.lawful_loadPreset ?_)
  split <;> exact restarted

theorem Ftb.lawful_measure {ftb : Ftb} (h : ftb.lawful) : ftb.measure.lawful := by
  unfold Ftb.measure
  split <;> exact h

theorem Ftb.span_bound (ftb : Ftb) : 2 * ftb.span ≤ 3 * ftb.rate.period + 1 := by
  unfold Ftb.span
  split <;> omega

theorem Ftb.span_pos (ftb : Ftb) : 0 < ftb.span := by
  unfold Ftb.span
  cases ftb.state <;> cases ftb.rate <;> decide

/-- The law of a reconfigured FTB, but for the elapsed count, which the new period may leave due (R23). -/
theorem Ftb.lawful_reconfigure {ftb : Ftb} {r : Rate} {drop : Bool} (h : ftb.lawful) (may : drop = true → r.dropAllowed = true)
    (early : ftb.elapsed < (ftb.reconfigure r drop).span) : (ftb.reconfigure r drop).lawful := by
  obtain ⟨_, ⟨range, _⟩, preset, _⟩ := h
  refine ⟨may, Timecode.lawful_fit drop range, ?_, ?_⟩
  · intro t pending
    obtain ⟨old, held, rfl⟩ := Option.map_eq_some_iff.mp pending
    exact Timecode.lawful_fit drop (preset old held).1
  · have := (ftb.reconfigure r drop).span_bound
    change 2 * ftb.elapsed ≤ _
    omega

theorem Ftb.lawful_afterReset : Ftb.afterReset.lawful := by
  refine ⟨by decide, ⟨by decide, by decide⟩, ?_, by decide⟩
  intro t h
  cases h

/-! ## What the blocks' operations keep

An operation of a block writes no message and takes no request: the outbound and the inbound queue stand until LNK itself acts.
Of the memory and the timecode an operation keeps the law. `State.Keeps r s` says so of a state `s` that operations have made
of `r`; one lemma per operation carries it on, in the order of the model's definitions. What an operation changes besides
(a slot, BFM, the Recorder) is no part of the relation, so `h` itself serves for the state before and after such a change. -/

/-- The parts of a state that the laws speak of, against the state `r` before. -/
structure LawParts (r : State) (mem : Memory) (ftb : Ftb) (waiting : List OutMsg) (sending : Option Sending)
    (inbound : List Request) : Prop where
  mem : r.mem.wf = true → mem.wf = true
  ftb : r.ftb.lawful → ftb.lawful
  waiting : waiting = r.lnk.waiting
  sending : sending = r.lnk.sending
  inbound : inbound = r.lnk.inbound

/-- `s` keeps the laws of memory and timecode where `r` has them, and has its queues of messages and requests. -/
def State.Keeps (r s : State) : Prop := LawParts r s.mem s.ftb s.lnk.waiting s.lnk.sending s.lnk.inbound

namespace State.Keeps

variable {r s t : State}

theorem refl (s : State) : Keeps s s := ⟨id, id, rfl, rfl, rfl⟩

/-- What the card writers do leaves memory, timecode and queues alone. -/
theorem cardsOnly (h : Keeps r s) (c : CardsOnly s t) : Keeps r t :=
  ⟨fun law => c.mem ▸ h.mem law, fun law => c.ftb ▸ h.ftb law, c.waiting.trans h.waiting, c.sending.trans h.sending,
    c.inbound.trans h.inbound⟩

theorem ite {c : Prop} [Decidable c] (h : Keeps r s) (k : Keeps r t) : Keeps r (if c then s else t) := by
  split
  · exact h
  · exact k

theorem foldl {α : Type} {f : State → α → State} {xs : List α} (step : ∀ {s : State} {x : α}, Keeps r s → Keeps r (f s x))
    (h : Keeps r s) : Keeps r (xs.foldl f s) := by
  induction xs generalizing s with
  | nil => exact h
  | cons x xs ih => exact ih (step h)

/-- FTB changes, and keeps its law. -/
theorem setFtb {ftb : Ftb} (h : Keeps r s) (law : s.ftb.lawful → ftb.lawful) : Keeps r { s with ftb := ftb } :=
  ⟨h.mem, law ∘ h.ftb, h.waiting, h.sending, h.inbound⟩

/-- Bytes are placed in the buffer memory. -/
theorem place {pages : List Nat} {i : Nat} {bytes : List Byte} (h : Keeps r s) :
    Keeps r { s with mem := s.mem.place pages i bytes } :=
  ⟨Memory.place_wf ∘ h.mem, h.ftb, h.waiting, h.sending, h.inbound⟩

theorem notify {src : Source} {detail : List (Option Byte)} (h : Keeps r s) : Keeps r (s.notify src detail) :=
  h.cardsOnly (.notify s src detail)

theorem report {src : Source} {detail : List Byte} (h : Keeps r s) : Keeps r (s.report src detail) :=
  h.cardsOnly (.report s src detail)

/-! ### The Buffer Manager -/

theorem abandon {e : Entry} {reason : AbandonReason} (h : Keeps r s) : Keeps r (s.abandon e reason) := by
  unfold State.abandon
  exact .ite (.report h) h

theorem placeUnit {u : RecUnit} (h : Keeps r s) : Keeps r (s.placeUnit u) := by
  unfold State.placeUnit
  split <;> exact h

theorem join {e : Entry} {picture : PictureData} (h : Keeps r s) : Keeps r (s.join e picture) := by
  unfold State.join
  split
  · exact .placeUnit h
  · split
    · exact .placeUnit h
    · exact .abandon h

theorem checkComplete {serial : Serial} (h : Keeps r s) : Keeps r (s.checkComplete serial) := by
  unfold State.checkComplete
  split
  · exact h
  · split
    · exact .ite (.join h) h
    · exact h
    · exact h

/-! ### The card writers -/

theorem reportFull {side : Side} (h : Keeps r s) : Keeps r (s.reportFull side) := h.cardsOnly (.reportFull s side)

theorem judgeNearFull {side : Side} (h : Keeps r s) : Keeps r (s.judgeNearFull side) := h.cardsOnly (.judgeNearFull s side)

theorem runWriter {side : Side} (h : Keeps r s) : Keeps r (s.runWriter side) := h.cardsOnly (.runWriter s side)

theorem nameLast {side : Side} {last : LastUnit} (h : Keeps r s) : Keeps r (s.nameLast side last) :=
  h.cardsOnly (.nameLast s side last)

theorem takeUnit {side : Side} {u : RecUnit} (h : Keeps r s) : Keeps r (s.takeUnit side u) :=
  h.cardsOnly (.takeUnit s side u)

theorem mountEnds {side : Side} {state : SlotState} {recovered : Nat} (h : Keeps r s) :
    Keeps r (s.mountEnds side state recovered) := by
  unfold State.mountEnds
  exact .judgeNearFull (.ite (.reportFull (.report h)) (.report h))

theorem recoverNext {side : Side} (h : Keeps r s) : Keeps r (s.recoverNext side) := by
  unfold State.recoverNext
  dsimp only
  split
  · exact h
  · split
    · exact h
    · exact .mountEnds h

theorem mountRead {side : Side} {header : CardHeader} {entries : List CatEntry} (h : Keeps r s) :
    Keeps r (s.mountRead side header entries) := by
  unfold State.mountRead
  exact .ite (.recoverNext h) (.mountEnds h)

theorem rebuild {side : Side} {x : Recovery} (h : Keeps r s) : Keeps r (s.rebuild side x) := by
  unfold State.rebuild
  exact .runWriter h

theorem indexRead {side : Side} {extent : Nat} {bytes : List Byte} (h : Keeps r s) :
    Keeps r (s.indexRead side extent bytes) := by
  unfold State.indexRead
  dsimp only
  split
  · split
    · exact .ite (.ite h (.rebuild h)) (.rebuild h)
    · exact .rebuild h
  · exact h

theorem mountUnformatted {side : Side} (h : Keeps r s) : Keeps r (s.mountUnformatted side) := by
  unfold State.mountUnformatted
  exact .mountEnds h

theorem cardRead {side : Side} {read : CardRead} {size : Nat} {bytes : List Byte} (h : Keeps r s) :
    Keeps r (s.cardRead side read size bytes) := by
  unfold State.cardRead
  split
  · exact h
  · split
    · exact .mountUnformatted h
    · exact .ite (.mountUnformatted h) h
  · split
    · exact .mountUnformatted h
    · split
      · exact .mountUnformatted h
      · exact .ite (.mountUnformatted h) (.ite h (.mountRead h))
  · exact .indexRead h

/-! ### The Recorder -/

theorem reportRec {reason : RecReason} {status slot : Nat} (h : Keeps r s) : Keeps r (s.reportRec reason status slot) :=
  .notify h

theorem openFor {side : Side} {flags : CopyFlags} {continues : Option CopyRef} (h : Keeps r s) :
    Keeps r (s.openFor side flags continues) :=
  show Keeps r (s.openCopy side flags continues).1 from h.cardsOnly (.openCopy s side flags continues)

theorem openCopies (h : Keeps r s) : Keeps r s.openCopies := by
  unfold State.openCopies
  dsimp only
  split
  · exact .openFor h
  · exact .openFor h
  · exact .openFor (.openFor h)

theorem chooseHead {floor : Serial} (h : Keeps r s) : Keeps r (s.chooseHead floor) := by
  unfold State.chooseHead
  split
  · exact h
  · split <;> exact h

/-- A start is where the Recorder acts on the timecode: the counter is loaded, or the catch-up advance made (R15, R22). -/
theorem takeStart {serial : Serial} (h : Keeps r s) : Keeps r (s.takeStart serial) := by
  have opened : Keeps r (s.beginClip .normal .recording (some serial)).openCopies := .openCopies h
  unfold State.takeStart
  exact .reportRec (.setFtb (.ite (.chooseHead opened) opened) Ftb.lawful_clipStarted)

theorem start {source : StartSource} {serial : Serial} (h : Keeps r s) : Keeps r (s.start source serial).1 := by
  unfold State.start
  dsimp only
  split
  · exact h
  · split
    · exact h
    · exact h
    · exact h
    · split
      · exact h
      · exact (takeStart h :)

theorem startReported {source : StartSource} {serial : Serial} (h : Keeps r s) : Keeps r (s.startReported source serial) := by
  rw [State.startReported_eq]
  exact .ite (.start h) (.reportRec (.start h))

theorem endClip {reason : EndReason} (h : Keeps r s) : Keeps r (s.endClip reason) := by
  unfold State.endClip
  extract_lets count _ _ standing told
  have reported : Keeps r told := reportRec (s := standing) h
  exact .ite (.startReported reported) reported

theorem closeCopy {side : Side} {last : LastUnit} (h : Keeps r s) : Keeps r (s.closeCopy side last) := by
  unfold State.closeCopy
  exact .nameLast h

theorem tellLast {side : Side} (h : Keeps r s) : Keeps r (s.tellLast side) := by
  unfold State.tellLast
  split
  · exact h
  · exact .ite (.closeCopy h) h

theorem watchClip (h : Keeps r s) : Keeps r s.watchClip := by
  have told : Keeps r ((s.tellLast .a).tellLast .b) := .tellLast (.tellLast h)
  unfold State.watchClip
  split
  · split
    · exact h
    · dsimp only
      split
      · exact .ite (.endClip told) told
      · exact told
  · exact .ite (.endClip h) h
  · exact h

theorem review (h : Keeps r s) : Keeps r s.review := by
  unfold State.review
  exact .watchClip h

theorem stop {serial : Serial} (h : Keeps r s) : Keeps r (s.stop serial) := by
  unfold State.stop
  split
  · exact .watchClip (.reportRec h)
  · exact h
  · exact h
  · exact h

theorem relaySwitch {side : Side} {u : Serial} (h : Keeps r s) : Keeps r (s.relaySwitch side u) := by
  unfold State.relaySwitch
  split
  · exact h
  · extract_lets left closed opened moved counted
    have kept : Keeps r opened := openFor (closeCopy h : Keeps r closed)
    exact report (s := counted) kept

theorem renameLast {side : Side} {u : Serial} (h : Keeps r s) : Keeps r (s.renameLast side u) := by
  unfold State.renameLast
  split
  · exact .ite (.nameLast h) h
  · exact h

theorem cardFullEnd {side : Side} {u : Serial} (h : Keeps r s) : Keeps r (s.cardFullEnd side u) := by
  unfold State.cardFullEnd
  split
  · exact h
  · extract_lets before closed fixed renamed _ closing
    have fixed : Keeps r fixed := (closeCopy h : Keeps r closed)
    have renamed : Keeps r renamed := .renameLast fixed
    exact reportRec (s := closing) (.ite renamed renamed)

theorem dropMirror {side : Side} {u : Serial} (h : Keeps r s) : Keeps r (s.dropMirror side u) := by
  have closed : Keeps r (s.closeCopy side (s.slot side).lastBefore) := .closeCopy h
  unfold State.dropMirror
  exact .reportRec closed

theorem endOfCard {side : Side} {u : Serial} (h : Keeps r s) : Keeps r (s.endOfCard side u) := by
  unfold State.endOfCard
  split
  · exact h
  · refine .review (.ite (.cardFullEnd h) ?_)
    split
    · exact .cardFullEnd h
    · exact .ite (.relaySwitch h) (.cardFullEnd h)
    · exact .ite (.dropMirror h) (.cardFullEnd h)

theorem slotLost {side : Side} (h : Keeps r s) : Keeps r (s.slotLost side) := by
  unfold State.slotLost
  split
  · exact h
  · split
    · exact h
    · extract_lets lost loose
      have loosed : Keeps r loose := h
      split
      · exact .review (.reportRec loosed)
      · exact .review (.reportRec (.ite loosed loosed))
      · exact .endClip loosed

/-! ### Audio -/

theorem takeHandOver {n : Serial} {side : Side} {x : HandOver} (h : Keeps r s) : Keeps r (s.takeHandOver n side x) := by
  unfold State.takeHandOver
  split
  · exact h
  · split
    · exact h
    · split
      · exact .checkComplete h
      · dsimp only
        split
        · exact .checkComplete (place h :)
        · exact .abandon h

theorem reportSlip {n : Serial} {side : Side} {x : HandOver} (h : Keeps r s) : Keeps r (s.reportSlip n side x) := by
  unfold State.reportSlip
  split
  · exact h
  · exact .ite (.report h) h

theorem pairFrame {n : Serial} {side : Side} (h : Keeps r s) : Keeps r (s.pairFrame n side) := by
  unfold State.pairFrame
  exact .takeHandOver (.reportSlip h)

theorem audFrame {f : FrameStart} (h : Keeps r s) : Keeps r (s.audFrame f) := by
  unfold State.audFrame
  exact .ite (.review (.pairFrame (.pairFrame h))) h

theorem audStep (h : Keeps r s) : Keeps r s.audStep := by
  unfold State.audStep
  split
  · exact h
  · exact .audFrame h

theorem handOverOff (h : Keeps r s) : Keeps r s.handOverOff := by
  unfold State.handOverOff
  exact .review (.takeHandOver (.takeHandOver h))

theorem reportOver {pair : Side} {w : Which} {first : Bool} (h : Keeps r s) : Keeps r (s.reportOver pair w first) := by
  unfold State.reportOver
  exact .ite (.report h) h

theorem sampleFrame {pair : Side} {x y : Int} (h : Keeps r s) : Keeps r (s.sampleFrame pair x y) := by
  unfold State.sampleFrame
  exact .ite h (.reportOver (.reportOver h))

/-! ### Frame timing -/

theorem deliver {action : TriggerAction} {serial : Serial} (h : Keeps r s) : Keeps r (s.deliver action serial).1 := by
  unfold State.deliver
  split
  · exact .start h
  · exact .stop h
  · exact h

theorem tryTrigger {e : HistoryEntry} (h : Keeps r s) : Keeps r (s.tryTrigger e) := by
  unfold State.tryTrigger
  split
  · exact h
  · exact .ite (.report (.deliver (setFtb h id))) h

theorem frameStart {substituted : Bool} (h : Keeps r s) : Keeps r (s.frameStart substituted) := by
  unfold State.frameStart
  extract_lets begun start tried
  have fired : Keeps r tried := .tryTrigger (setFtb h (Ftb.lawful_begin substituted _) :)
  exact .ite (.setFtb fired Ftb.lawful_advance) fired

theorem setTimebase {x : TimebaseState} (h : Keeps r s) : Keeps r (s.setTimebase x) := .setFtb h id

theorem countSubstituted (h : Keeps r s) : Keeps r s.countSubstituted := .setFtb h id

theorem edge (h : Keeps r s) : Keeps r s.edge := by
  unfold State.edge
  split
  · exact .setTimebase (.frameStart h)
  · exact .ite (.setFtb h id) (.frameStart (.setFtb h Ftb.lawful_measure))
  · exact .ite (.setFtb h (fun law => Ftb.lawful_elapsed (e := 0) law (by omega))) (.setTimebase (.frameStart h))
  · exact h

theorem timerFires_of_frameStart (started : Keeps r (s.frameStart true)) : Keeps r s.timerFires := by
  have lost : Keeps r s.frameLoss := by
    unfold State.frameLoss
    exact .report (.setTimebase (.countSubstituted started))
  unfold State.timerFires
  split
  · exact lost
  · exact lost
  · exact .countSubstituted started
  · exact started

theorem timerFires (h : Keeps r s) : Keeps r s.timerFires := timerFires_of_frameStart (.frameStart h)

/-- A firing timer starts a frame, which sets the elapsed count to 0; so the law of the count need not hold before (R23, where
the new period is the shorter). -/
theorem timerFires_late (h : Keeps r { s with ftb := { s.ftb with elapsed := 0 } }) : Keeps r s.timerFires := by
  have same : ({ s with ftb := { s.ftb with elapsed := 0 } } : State).frameStart true = s.frameStart true := rfl
  exact timerFires_of_frameStart (same ▸ frameStart h)

theorem fireIfDue_late (due : Keeps r { s with ftb := { s.ftb with elapsed := 0 } })
    (early : s.ftb.elapsed < s.ftb.span → Keeps r s) : Keeps r s.fireIfDue := by
  unfold State.fireIfDue
  split
  · exact .timerFires_late due
  · next notDue => exact early (by simpa [Ftb.timerDue] using notDue)

theorem fireIfDue (h : Keeps r s) : Keeps r s.fireIfDue := by
  unfold State.fireIfDue
  exact .ite (.timerFires h) h

/-! ### Lens control -/

theorem endMove {axis : Axis} {status : MoveStatus} (h : Keeps r s) : Keeps r (s.endMove axis status) := by
  unfold State.endMove
  split
  · exact h
  · exact .notify h

theorem endMoves {status : MoveStatus} (h : Keeps r s) : Keeps r (s.endMoves status) := by
  unfold State.endMoves
  exact .endMove (.endMove (.endMove h))

theorem lensLost (h : Keeps r s) : Keeps r s.lensLost := by
  unfold State.lensLost
  exact endMoves (.report h)

theorem missReport (h : Keeps r s) : Keeps r s.missReport := by
  unfold State.missReport
  exact .ite (.lensLost h) h

theorem windowExpires (h : Keeps r s) : Keeps r s.windowExpires := by
  unfold State.windowExpires
  exact .ite (.missReport h) h

theorem judgeOverride {replaced : LensReport} {axis : Axis} (h : Keeps r s) : Keeps r (s.judgeOverride replaced axis) := by
  unfold State.judgeOverride
  split
  · exact report (endMove h :)
  · exact h
  · exact h
  · exact h

theorem judgeArrival {axis : Axis} (h : Keeps r s) : Keeps r (s.judgeArrival axis) := by
  unfold State.judgeArrival
  split
  · exact h
  · exact .ite (endMove h :) h

theorem goodReport {w : ReportWindow} {x : LensReport} (h : Keeps r s) : Keeps r (s.goodReport w x) := by
  unfold State.goodReport
  exact .judgeArrival (.judgeArrival (.judgeArrival (.judgeOverride (.judgeOverride (.judgeOverride h)))))

theorem lensReport {bytes : List Byte} (h : Keeps r s) : Keeps r (s.lensReport bytes) := by
  unfold State.lensReport
  split
  · exact h
  · split
    · exact .goodReport h
    · exact .missReport h

theorem driveFrame {d : Drive} (h : Keeps r s) : Keeps r (s.driveFrame d) := by
  unfold State.driveFrame
  dsimp only
  split
  · exact h
  · split
    · exact h
    · exact h
    · exact .ite (.endMove h) h

theorem irisFrame {n : Serial} (h : Keeps r s) : Keeps r (s.irisFrame n) := by
  unfold State.irisFrame
  split
  · exact h
  · split
    · exact h
    · split
      · exact h
      · exact .ite (.endMove h) h

theorem lncFrame {f : FrameStart} (h : Keeps r s) : Keeps r (s.lncFrame f) := by
  unfold State.lncFrame
  exact .ite (irisFrame (.driveFrame (.driveFrame (.windowExpires h))) :) h

theorem lncStep (h : Keeps r s) : Keeps r s.lncStep := by
  unfold State.lncStep
  split
  · exact h
  · exact .lncFrame h

theorem moveDrive {d : Drive} {target duration : Nat} {origin : Origin} (h : Keeps r s) :
    Keeps r (s.moveDrive d target duration origin) := by
  unfold State.moveDrive
  exact (endMove h :)

theorem stopDrive {d : Drive} (h : Keeps r s) : Keeps r (s.stopDrive d) := by
  unfold State.stopDrive
  exact .ite h (endMove h :)

theorem moveIris {target duration : Nat} {origin : Origin} (h : Keeps r s) : Keeps r (s.moveIris target duration origin) := by
  unfold State.moveIris
  exact (endMove h :)

/-! ### Image stabilisation -/

theorem badSample {status : Option Byte} (h : Keeps r s) : Keeps r (s.badSample status) := by
  unfold State.badSample
  exact .ite (.notify h) h

theorem gyroDue (h : Keeps r s) : Keeps r s.gyroDue := by
  have sampled : Keeps r (if s.stb.reading then s.badSample none else s) := .ite (.badSample h) h
  unfold State.gyroDue
  exact .ite sampled h

theorem gyroAnswered {yaw pitch : Int} {status : Byte} (h : Keeps r s) : Keeps r (s.gyroAnswered yaw pitch status) := by
  unfold State.gyroAnswered
  exact .ite (.ite h (.badSample h)) h

theorem tileSet {x : TileSet} (h : Keeps r s) : Keeps r (s.tileSet x) := by
  unfold State.tileSet State.noteMean
  exact .ite h (.ite (.ite h h) h)

theorem reportEdge {before after : StabAxis} {leak : Int} {axis : Nat} {serial : Serial} (h : Keeps r s) :
    Keeps r (s.reportEdge before after leak axis serial) := by
  unfold State.reportEdge
  exact .ite (.report h) h

theorem moveCrop {leak : Int} {serial : Serial} (h : Keeps r s) : Keeps r (s.moveCrop leak serial) := by
  unfold State.moveCrop
  exact .reportEdge (.reportEdge h)

theorem stabMoves {serial : Serial} (h : Keeps r s) : Keeps r (s.stabMoves serial) := by
  unfold State.stabMoves
  split
  · exact h
  · exact h
  · exact h
  · exact (moveCrop h :)
  · exact (moveCrop h :)

theorem stbFrame {f : FrameStart} (h : Keeps r s) : Keeps r (s.stbFrame f) := by
  unfold State.stbFrame
  split
  · exact h
  · split
    · exact h
    · extract_lets lens moved
      have kept : Keeps r moved := .stabMoves h
      exact kept

theorem stbStep (h : Keeps r s) : Keeps r s.stbStep := by
  unfold State.stbStep
  split
  · exact h
  · exact .stbFrame h

/-! ### The buffer memory -/

theorem ageOldest (h : Keeps r s) : Keeps r s.ageOldest := by
  unfold State.ageOldest
  split
  · exact h
  · exact .ite (.abandon h) h

theorem bfmFrame {f : FrameStart} (h : Keeps r s) : Keeps r (s.bfmFrame f) := by
  have aged : Keeps r (s.modifyBfm (fun b => { b with taken := f.serial })).ageOldest := .ageOldest h
  unfold State.bfmFrame
  exact .ite (.review aged) h

theorem bfmStep (h : Keeps r s) : Keeps r s.bfmStep := by
  unfold State.bfmStep
  split
  · exact h
  · exact .bfmFrame h

theorem beginPicture {e : Entry} {length : Nat} {key : Bool} (h : Keeps r s) : Keeps r (s.beginPicture e length key) := by
  unfold State.beginPicture
  split
  · exact (abandon h :)
  · dsimp only
    split
    · exact abandon (s := { s with bfm := (s.bfm.allocate (pagesOf length)).2 }) h
    · exact h

theorem essenceHeader {serial : Serial} {length : Nat} {key : Bool} (h : Keeps r s) :
    Keeps r (s.essenceHeader serial length key) := by
  unfold State.essenceHeader
  split
  · exact h
  · exact h
  · dsimp only
    split
    · exact h
    · split
      · exact h
      · exact .ite h (.review (.beginPicture (.foldl .abandon h)))

theorem fillPicture {serial : Serial} {placed remaining : Nat} {bytes : List Byte} (h : Keeps r s) :
    Keeps r (s.fillPicture serial placed remaining bytes) := by
  unfold State.fillPicture
  extract_lets data filled
  have kept : Keeps r filled := .place h
  exact .ite kept (.review (.checkComplete kept))

theorem essenceData {bytes : List Byte} (h : Keeps r s) : Keeps r (s.essenceData bytes) := by
  unfold State.essenceData
  split
  · exact h
  · exact .fillPicture h
  · exact h

theorem takeRetain {w : Nat} {window : HoldWindow} {head : Serial} (h : Keeps r s) : Keeps r (s.takeRetain w window head) := by
  unfold State.takeRetain
  extract_lets primary opened b kept retained clipped reported
  have opened : Keeps r opened := .openFor h
  exact closeCopy (s := reported) (reportRec (s := clipped) opened)

/-! ### The card writers' commands -/

theorem formatEnds {side : Side} (h : Keeps r s) : Keeps r (s.formatEnds side) := by
  unfold State.formatEnds
  exact .judgeNearFull (.report h)

theorem completed {side : Side} {kind : CardCmdKind} (h : Keeps r s) : Keeps r (s.completed side kind) := by
  unfold State.completed
  split
  · exact .foldl (fun k => k) h
  · exact h
  · exact h
  · exact .recoverNext h
  · exact .formatEnds h
  · exact h
  · exact h
  · exact h
  · exact h

theorem cardFails {side : Side} {kind : Nat} {sector : Option Nat} {cause : FailCause} (h : Keeps r s) :
    Keeps r (s.cardFails side kind sector cause) := by
  unfold State.cardFails
  exact .notify (.slotLost h)

theorem commandAnswered {side : Side} {status : CardStatus} (h : Keeps r s) : Keeps r (s.commandAnswered side status) := by
  unfold State.commandAnswered
  split
  · exact h
  · exact .cardFails h
  · exact .review (.runWriter (.completed h))

theorem readAnswered {side : Side} {answer : ReadAnswer} (h : Keeps r s) : Keeps r (s.readAnswered side answer) := by
  unfold State.readAnswered
  split
  · exact h
  · exact .cardFails h
  · exact .cardRead h

theorem cardTimesOut {side : Side} (h : Keeps r s) : Keeps r (s.cardTimesOut side) := by
  unfold State.cardTimesOut
  split
  · exact .cardFails h
  · exact .cardFails h
  · exact h

theorem takeNext {side : Side} (h : Keeps r s) : Keeps r (s.takeNext side) := by
  unfold State.takeNext
  split
  · exact h
  · split
    · exact h
    · exact .ite (.review (takeUnit h :)) (.endOfCard h)

theorem reportChange {side : Side} {change : Nat} (h : Keeps r s) : Keeps r (s.reportChange side change) := .report h

theorem mountOrDefer {side : Side} (h : Keeps r s) : Keeps r (s.mountOrDefer side) := by
  unfold State.mountOrDefer
  exact .ite h h

theorem detectChanged {side : Side} {present : Bool} (h : Keeps r s) : Keeps r (s.detectChanged side present) := by
  unfold State.detectChanged
  exact .ite h (.ite h (.ite (.ite (.reportChange (.mountOrDefer h)) h) (.reportChange (.slotLost h))))

theorem protectChanged {side : Side} {on : Bool} (h : Keeps r s) : Keeps r (s.protectChanged side on) := by
  unfold State.protectChanged
  exact .ite h (.ite (.ite (.reportChange h) h) (.ite (.reportChange (.mountOrDefer h)) h))

/-! ### Recorder, viewfinder and power -/

theorem rcdStep (h : Keeps r s) : Keeps r s.rcdStep := by
  unfold State.rcdStep
  split <;> exact h

theorem vogStep (h : Keeps r s) : Keeps r s.vogStep := by
  unfold State.vogStep
  split
  · exact h
  · unfold State.vogFrame
    exact .ite h h

theorem resetItems {which : List Nat} (h : Keeps r s) : Keeps r (s.resetItems which) := by
  unfold State.resetItems
  exact .foldl (fun k => k) h

theorem haltLens (h : Keeps r s) : Keeps r s.haltLens :=
  show Keeps r (s.endMoves .halted) from .endMoves h

theorem reportPower (h : Keeps r s) : Keeps r s.reportPower := .report h

theorem enterStandby (h : Keeps r s) : Keeps r s.enterStandby := by
  unfold State.enterStandby
  extract_lets stopped halted
  have kept : Keeps r halted := .haltLens (.setTimebase h)
  exact .reportPower kept

theorem returnToRun {cause : RunCause} (h : Keeps r s) : Keeps r (s.returnToRun cause) := by
  have back : Keeps r (s.setTimebase .acquire) := .setTimebase h
  unfold State.returnToRun
  exact .reportPower back

theorem press (h : Keeps r s) : Keeps r s.press := by
  unfold State.press
  split
  · exact .returnToRun h
  · split
    · exact .startReported h
    · exact .stop h
    · exact h
    · exact h

theorem switchLnc {on : Bool} (h : Keeps r s) : Keeps r (s.switchLnc on) := by
  unfold State.switchLnc
  exact .ite h h

theorem switchStb {on : Bool} (h : Keeps r s) : Keeps r (s.switchStb on) := by
  unfold State.switchStb
  exact .ite h h

theorem switchAud {on : Bool} (h : Keeps r s) : Keeps r (s.switchAud on) := by
  have handed : Keeps r (if !on && s.pwc.inRun then s.handOverOff else s) := .ite (.handOverOff h) h
  unfold State.switchAud
  exact .ite h handed

theorem switchVog {on : Bool} (h : Keeps r s) : Keeps r (s.switchVog on) := by
  unfold State.switchVog
  exact .ite h h

theorem switchSlot {side : Side} {on : Bool} (h : Keeps r s) : Keeps r (s.switchSlot side on) := by
  unfold State.switchSlot
  exact .ite h (.ite (.ite (.mountOrDefer h) h) h)

/-! ### What a block does with a request (R176 step 4) -/

theorem iteFst {c : Prop} [Decidable c] {x y : State × Answer} (h : Keeps r x.1) (k : Keeps r y.1) :
    Keeps r (if c then x else y).1 := by
  split
  · exact h
  · exact k

/-- FRAME_CONFIG keeps the timecode's law: where the elapsed count reaches the new span, a substituted start sets it to 0 (R23). -/
theorem reqFrameConfig {p : List Byte} (h : Keeps r s) : Keeps r (reqFrameConfig p s).1 := by
  unfold Machine.reqFrameConfig
  split
  · next rate drop _ _ =>
    split
    · exact h
    · next may =>
      have allowed : drop = true → rate.dropAllowed = true := by simpa using may
      have due : Keeps r { s with ftb := { s.ftb.reconfigure rate drop with elapsed := 0 } } := setFtb h fun law =>
        Ftb.lawful_reconfigure (ftb := { s.ftb with elapsed := 0 }) (Ftb.lawful_elapsed law (by omega)) allowed
          (Ftb.span_pos _)
      have early : s.ftb.elapsed < (s.ftb.reconfigure rate drop).span → Keeps r { s with ftb := s.ftb.reconfigure rate drop } :=
        fun early => setFtb h fun law => Ftb.lawful_reconfigure law allowed early
      refine .iteFst h ?_
      exact fireIfDue_late (s := { s with ftb := s.ftb.reconfigure rate drop, bfm := s.bfm.clearAll, aud := s.aud.restart })
        due early
  · exact h

theorem reqTcPreset {p : List Byte} (h : Keeps r s) : Keeps r (reqTcPreset p s).1 := by
  unfold Machine.reqTcPreset
  dsimp only
  split
  · exact h
  · next range =>
    refine setFtb h (fun law => ?_)
    obtain ⟨allowed, generator, _, bound⟩ := law
    refine ⟨allowed, generator, ?_, bound⟩
    intro t pending
    obtain rfl := Option.some.inj pending
    exact Timecode.lawful_moveForward _ (by simpa using range)

theorem reqTcMode {p : List Byte} (h : Keeps r s) : Keeps r (reqTcMode p s).1 := by
  unfold Machine.reqTcMode
  split
  · exact h
  · exact .iteFst h (setFtb h id)

theorem reqTcTrigger {p : List Byte} (h : Keeps r s) : Keeps r (reqTcTrigger p s).1 := by
  unfold Machine.reqTcTrigger
  refine .iteFst (setFtb h id) (.iteFst h ?_)
  dsimp only
  split
  · exact h
  · exact .iteFst h (setFtb h id)

theorem reqIntervalConfig {p : List Byte} (h : Keeps r s) : Keeps r (reqIntervalConfig p s).1 := by
  unfold Machine.reqIntervalConfig
  split
  · exact h
  · exact .iteFst h (setFtb h id)

theorem reqTimeQuery {p : List Byte} (h : Keeps r s) : Keeps r (reqTimeQuery p s).1 := by
  unfold Machine.reqTimeQuery
  split
  · exact h
  · exact .ite (setFtb h id) h

theorem takeRate {d : Drive} {p : List Byte} (h : Keeps r s) : Keeps r (s.takeRate d p).1 := by
  unfold State.takeRate
  split
  · exact h
  · exact .iteFst h (endMove h :)

theorem reqLensGoto {p : List Byte} (h : Keeps r s) : Keeps r (reqLensGoto p s).1 := by
  unfold Machine.reqLensGoto
  dsimp only
  split
  · refine .iteFst h (.iteFst h ?_)
    exact .ite (.moveDrive (.ite (.moveDrive h) h)) (.ite (.moveDrive h) h)
  · exact h

theorem reqLensStop {p : List Byte} (h : Keeps r s) : Keeps r (reqLensStop p s).1 := by
  unfold Machine.reqLensStop
  exact endMove (.stopDrive (.stopDrive h))

theorem reqPresetStore {p : List Byte} (h : Keeps r s) : Keeps r (reqPresetStore p s).1 := by
  unfold Machine.reqPresetStore
  split
  · exact .iteFst h h
  · split <;> exact h
  · exact h

theorem recallPreset {i : Nat} {x : Preset} {t : Nat} (h : Keeps r s) : Keeps r (s.recall i x t).1 := by
  unfold State.recall
  dsimp only
  split
  · exact moveIris (.moveDrive (.moveDrive h))
  · exact moveDrive (.moveDrive h)

theorem reqPresetRecall {p : List Byte} (h : Keeps r s) : Keeps r (reqPresetRecall p s).1 := by
  unfold Machine.reqPresetRecall
  split
  · split
    · exact h
    · exact .iteFst h (.recallPreset h)
  · exact h

theorem takeIris {f : Iris → Iris} (h : Keeps r s) : Keeps r (s.takeIris f).1 := by
  unfold State.takeIris
  exact .iteFst h (endMove h :)

theorem reqIrisAuto {p : List Byte} (h : Keeps r s) : Keeps r (reqIrisAuto p s).1 := by
  unfold Machine.reqIrisAuto
  split
  · exact h
  · exact .takeIris h

theorem reqZoomCurveLoad {p : List Byte} (h : Keeps r s) : Keeps r (reqZoomCurveLoad p s).1 := by
  unfold Machine.reqZoomCurveLoad
  exact .iteFst h h

theorem reqLensConfig {p : List Byte} (h : Keeps r s) : Keeps r (reqLensConfig p s).1 := by
  unfold Machine.reqLensConfig
  split <;> exact h

theorem reqLensQuery {p : List Byte} (h : Keeps r s) : Keeps r (reqLensQuery p s).1 := by
  unfold Machine.reqLensQuery
  split
  · exact h
  · exact .ite h h

theorem reqStabConfig {p : List Byte} (h : Keeps r s) : Keeps r (reqStabConfig p s).1 := by
  unfold Machine.reqStabConfig
  split
  · exact h
  · exact .iteFst h h

theorem reqStabMode {p : List Byte} (h : Keeps r s) : Keeps r (reqStabMode p s).1 := by
  unfold Machine.reqStabMode
  split
  · exact h
  · exact .iteFst h h

theorem reqStabRecentre {p : List Byte} (h : Keeps r s) : Keeps r (reqStabRecentre p s).1 := by
  unfold Machine.reqStabRecentre
  exact .iteFst h h

theorem reqStabQuery {p : List Byte} (h : Keeps r s) : Keeps r (reqStabQuery p s).1 := by
  unfold Machine.reqStabQuery
  split
  · exact h
  · exact .ite h h

theorem reqAudioRoute {p : List Byte} (h : Keeps r s) : Keeps r (reqAudioRoute p s).1 := by
  unfold Machine.reqAudioRoute
  split
  · exact .iteFst h h
  · exact h

theorem reqAudioGain {p : List Byte} (h : Keeps r s) : Keeps r (reqAudioGain p s).1 := by
  unfold Machine.reqAudioGain
  split
  · exact .iteFst h h
  · exact h

theorem reqAudioLimiter {p : List Byte} (h : Keeps r s) : Keeps r (reqAudioLimiter p s).1 := by
  unfold Machine.reqAudioLimiter
  split
  · exact .iteFst h h
  · exact h

theorem reqAudioQuery {p : List Byte} (h : Keeps r s) : Keeps r (reqAudioQuery p s).1 := by
  unfold Machine.reqAudioQuery
  split
  · exact h
  · exact .ite h h

theorem reqAuxAttach {p : List Byte} (h : Keeps r s) : Keeps r (reqAuxAttach p s).1 := by
  unfold Machine.reqAuxAttach
  exact .iteFst h (.iteFst h h)

theorem reqMarkFrame {p : List Byte} (h : Keeps r s) : Keeps r (reqMarkFrame p s).1 := by
  unfold Machine.reqMarkFrame
  dsimp only
  split
  · exact h
  · exact h
  · split <;> exact h

theorem reqPrerecConfig {p : List Byte} (h : Keeps r s) : Keeps r (reqPrerecConfig p s).1 := by
  unfold Machine.reqPrerecConfig
  split
  · exact h
  · exact .iteFst h h

theorem reqHoldSet {p : List Byte} (h : Keeps r s) : Keeps r (reqHoldSet p s).1 := by
  unfold Machine.reqHoldSet
  refine .iteFst h ?_
  split
  · exact h
  · exact .iteFst h h

theorem reqHoldClear {p : List Byte} (h : Keeps r s) : Keeps r (reqHoldClear p s).1 := by
  unfold Machine.reqHoldClear
  split
  · exact h
  · exact .iteFst h (.iteFst h h)

theorem reqHoldRetain {p : List Byte} (h : Keeps r s) : Keeps r (reqHoldRetain p s).1 := by
  unfold Machine.reqHoldRetain
  split
  · exact h
  · split
    · refine .iteFst h ?_
      split
      · exact (takeRetain h :)
      · exact h
      · exact h
    · exact h

theorem reqBufferQuery {p : List Byte} (h : Keeps r s) : Keeps r (reqBufferQuery p s).1 := by
  unfold Machine.reqBufferQuery
  split
  · exact h
  · exact .ite h h

theorem reqSlotMode {p : List Byte} (h : Keeps r s) : Keeps r (reqSlotMode p s).1 := by
  unfold Machine.reqSlotMode
  split
  · exact .iteFst h h
  · exact h

theorem reqRecStart {p : List Byte} (h : Keeps r s) : Keeps r (reqRecStart p s).1 := by
  have started : Keeps r (s.start .host s.rcd.noted).1 := .start h
  unfold Machine.reqRecStart
  exact .iteFst started started

theorem reqRecStop {p : List Byte} (h : Keeps r s) : Keeps r (reqRecStop p s).1 :=
  show Keeps r (s.stop s.rcd.noted) from .stop h

theorem reqRecQuery {p : List Byte} (h : Keeps r s) : Keeps r (reqRecQuery p s).1 := by
  unfold Machine.reqRecQuery
  split
  · exact h
  · exact .ite h h

theorem reqCardFormat {p : List Byte} (h : Keeps r s) : Keeps r (reqCardFormat p s).1 := by
  unfold Machine.reqCardFormat
  split
  · exact h
  · refine .iteFst h ?_
    split
    · exact h
    · exact .runWriter h

theorem reqCardEject {p : List Byte} (h : Keeps r s) : Keeps r (reqCardEject p s).1 := by
  unfold Machine.reqCardEject
  split
  · exact h
  · refine .iteFst h ?_
    split <;> exact h

theorem reqCardConfig {p : List Byte} (h : Keeps r s) : Keeps r (reqCardConfig p s).1 := by
  unfold Machine.reqCardConfig
  split
  · exact .judgeNearFull h
  · exact h

theorem reqCardQuery {p : List Byte} (h : Keeps r s) : Keeps r (reqCardQuery p s).1 := by
  unfold Machine.reqCardQuery
  split
  · exact .ite h h
  · exact h

theorem reqVfItemSet {p : List Byte} (h : Keeps r s) : Keeps r (reqVfItemSet p s).1 := by
  unfold Machine.reqVfItemSet
  split
  · exact .iteFst h h
  · exact h

theorem reqVfItemClear {p : List Byte} (h : Keeps r s) : Keeps r (reqVfItemClear p s).1 := by
  unfold Machine.reqVfItemClear
  exact .iteFst h (.iteFst h (.resetItems h))

theorem reqVfText {p : List Byte} (h : Keeps r s) : Keeps r (reqVfText p s).1 := by
  unfold Machine.reqVfText
  dsimp only
  split
  · exact .iteFst h (.iteFst h h)
  · exact h

theorem reqVfConfig {p : List Byte} (h : Keeps r s) : Keeps r (reqVfConfig p s).1 := by
  unfold Machine.reqVfConfig
  dsimp only
  split
  · exact .iteFst h (.iteFst h h)
  · exact h

theorem reqNoticeConfig {p : List Byte} (h : Keeps r s) : Keeps r (reqNoticeConfig p s).1 := by
  unfold Machine.reqNoticeConfig
  split <;> exact h

theorem reqNoticeMask {p : List Byte} (h : Keeps r s) : Keeps r (reqNoticeMask p s).1 := by
  unfold Machine.reqNoticeMask
  split <;> exact h

theorem clearAll {srcs : List Source} (h : Keeps r s) : Keeps r (s.modifyLnk (fun lnk => lnk.clearAll srcs)) := by
  induction srcs generalizing s with
  | nil => exact h
  | cons src srcs ih => exact ih (s := s.modifyLnk (fun lnk => lnk.modifySource src SourceState.clear)) h

theorem reqNoticeClear {p : List Byte} (h : Keeps r s) : Keeps r (reqNoticeClear p s).1 := by
  unfold Machine.reqNoticeClear
  exact .iteFst h (.clearAll h)

theorem reqNoticeQuery {p : List Byte} (h : Keeps r s) : Keeps r (reqNoticeQuery p s).1 := by
  unfold Machine.reqNoticeQuery
  split
  · exact h
  · exact .ite h h

theorem reqPowerStandby {p : List Byte} (h : Keeps r s) : Keeps r (reqPowerStandby p s).1 := by
  unfold Machine.reqPowerStandby
  exact .iteFst h (.iteFst h (.enterStandby h))

theorem reqPowerRun {p : List Byte} (h : Keeps r s) : Keeps r (reqPowerRun p s).1 := by
  unfold Machine.reqPowerRun
  exact .ite h (.returnToRun h)

theorem reqBlockEnable {p : List Byte} (h : Keeps r s) : Keeps r (reqBlockEnable p s).1 := by
  unfold Machine.reqBlockEnable
  split
  · exact h
  · exact .iteFst h (.switchAud (.switchVog (.switchStb (.switchLnc (.switchSlot (.switchSlot h))))))

/-- A block that takes a request keeps the laws, and leaves the reply to LNK (R176 step 4). -/
theorem takeRequest {req : Req} {p : List Byte} (h : Keeps r s) : Keeps r (takeRequest req p s).1 := by
  cases req with
  | frameConfig => exact .reqFrameConfig h
  | tcPreset => exact .reqTcPreset h
  | tcMode => exact .reqTcMode h
  | tcUserbits => exact setFtb h id
  | tcTrigger => exact .reqTcTrigger h
  | intervalConfig => exact .reqIntervalConfig h
  | timeQuery => exact .reqTimeQuery h
  | zoomRate => exact takeRate (d := .zoom) h
  | focusRate => exact takeRate (d := .focus) h
  | lensGoto => exact .reqLensGoto h
  | lensStop => exact reqLensStop (p := p) h
  | presetStore => exact .reqPresetStore h
  | presetRecall => exact .reqPresetRecall h
  | irisSet => exact (takeIris h :)
  | irisAuto => exact .reqIrisAuto h
  | zoomCurveLoad => exact .reqZoomCurveLoad h
  | lensConfig => exact .reqLensConfig h
  | lensQuery => exact .reqLensQuery h
  | stabConfig => exact .reqStabConfig h
  | stabMode => exact .reqStabMode h
  | stabRecentre => exact reqStabRecentre (p := p) h
  | stabQuery => exact .reqStabQuery h
  | audioRoute => exact .reqAudioRoute h
  | audioGain => exact .reqAudioGain h
  | audioLimiter => exact .reqAudioLimiter h
  | audioQuery => exact .reqAudioQuery h
  | auxAttach => exact .reqAuxAttach h
  | markFrame => exact .reqMarkFrame h
  | prerecConfig => exact .reqPrerecConfig h
  | holdSet => exact .reqHoldSet h
  | holdClear => exact .reqHoldClear h
  | holdRetain => exact .reqHoldRetain h
  | bufferQuery => exact .reqBufferQuery h
  | slotMode => exact .reqSlotMode h
  | recStart => exact reqRecStart (p := p) h
  | recStop => exact reqRecStop (p := p) h
  | recQuery => exact .reqRecQuery h
  | cardFormat => exact .reqCardFormat h
  | cardEject => exact .reqCardEject h
  | catalogueRead => exact (reqCatalogueRead_fst p s).symm ▸ h
  | cardConfig => exact .reqCardConfig h
  | cardQuery => exact .reqCardQuery h
  | vfItemSet => exact .reqVfItemSet h
  | vfItemClear => exact .reqVfItemClear h
  | vfText => exact .reqVfText h
  | vfConfig => exact .reqVfConfig h
  | noticeConfig => exact .reqNoticeConfig h
  | noticeMask => exact .reqNoticeMask h
  | noticeClear => exact .reqNoticeClear h
  | noticeQuery => exact .reqNoticeQuery h
  | powerStandby => exact reqPowerStandby (p := p) h
  | powerRun => exact reqPowerRun (p := p) h
  | blockEnable => exact .reqBlockEnable h
  | partReset => exact h

theorem judgeRequest {x : Request} (h : Keeps r s) : Keeps r (s.judgeRequest x).1 := by
  unfold State.judgeRequest
  split
  · exact h
  · unfold State.judgeRow
    refine .iteFst h ?_
    split
    · exact h
    · exact .takeRequest h

end State.Keeps

/-! ## LNK's own work

LNK moves messages and requests between its queues: its operations keep the laws, and not the queues themselves. -/

/-- Of the laws that hold of `r`, each holds of `s`. -/
structure State.Upholds (r s : State) : Prop where
  mem : r.mem.wf = true → s.mem.wf = true
  ftb : r.ftb.lawful → s.ftb.lawful
  lnk : r.lnk.lawful → s.lnk.lawful

/-- The law of the queues speaks of the queues alone. -/
theorem Lnk.lawful_of_queues {lnk lnk' : Lnk} (waiting : lnk'.waiting = lnk.waiting) (sending : lnk'.sending = lnk.sending)
    (inbound : lnk'.inbound = lnk.inbound) (law : lnk.lawful) : lnk'.lawful := by
  unfold Lnk.lawful Lnk.places Lnk.noticePlaces at law ⊢
  rw [waiting, sending, inbound]
  exact law

/-- Withdrawing takes messages out of the queue (R179). -/
theorem Lnk.lawful_withdraw {lnk : Lnk} (law : lnk.lawful) : lnk.withdraw.lawful := by
  have fewer := List.length_filter_le lnk.stands lnk.waiting
  have fewerNotices : ((lnk.waiting.filter lnk.stands).filter OutMsg.isNotice).length ≤
      (lnk.waiting.filter OutMsg.isNotice).length :=
    (List.filter_sublist.filter _).length_le
  have inbound : lnk.withdraw.inbound = lnk.inbound := by
    simpa only [Lnk.unsent] using congrArg Lnk.inbound lnk.unsent_withdraw
  unfold Lnk.lawful Lnk.places Lnk.noticePlaces at law ⊢
  rw [Lnk.waiting_withdraw, Lnk.sending_withdraw, inbound]
  omega

/-- A message that joins the queue takes one place, and a notice message one of the notice messages' (R177). -/
theorem Lnk.places_joined {lnk lnk' : Lnk} {m : OutMsg} (waiting : lnk'.waiting = lnk.waiting ++ [m])
    (sending : lnk'.sending = lnk.sending) :
    lnk'.places = lnk.places + 1 ∧ lnk'.noticePlaces = lnk.noticePlaces + if m.isNotice then 1 else 0 := by
  unfold Lnk.places Lnk.noticePlaces
  rw [waiting, sending, List.length_append, List.filter_append, List.length_append, List.filter_singleton]
  constructor
  · simp only [List.length_singleton]; omega
  · cases m.isNotice <;> simp; omega

/-- A notice message joins where a place is free for one (R177). -/
theorem Lnk.lawful_queueNotice {lnk : Lnk} (src : Source) (law : lnk.lawful) : (lnk.queueNotice src).lawful := by
  unfold Lnk.queueNotice
  split
  · next free =>
    simp only [Lnk.hasNoticePlace, Bool.and_eq_true, decide_eq_true_eq] at free
    obtain ⟨_, place, noticePlace⟩ := free
    obtain ⟨places, noticePlaces⟩ := Lnk.places_joined (lnk := lnk) (m := .notice src)
      (lnk' := { lnk.modifySource src (fun st => { st with sent := true }) with waiting := lnk.waiting ++ [.notice src] }) rfl rfl
    obtain ⟨_, _, inbound⟩ := law
    exact ⟨by omega, by rw [noticePlaces]; simp only [OutMsg.isNotice, if_true]; omega, inbound⟩
  · exact law

theorem Lnk.lawful_queueNotices {lnk : Lnk} (law : lnk.lawful) : lnk.queueNotices.lawful := by
  unfold Lnk.queueNotices
  exact List.foldlRecOn _ _ law (fun _ law src _ => Lnk.lawful_queueNotice src law)

theorem Lnk.lawful_transmit {lnk : Lnk} (law : lnk.lawful) : lnk.transmit.lawful := by
  obtain ⟨places, noticePlaces⟩ := lnk.places_transmit
  have inbound : lnk.transmit.inbound = lnk.inbound := by
    simpa only [Lnk.unsent] using congrArg Lnk.inbound lnk.unsent_transmit
  unfold Lnk.lawful at law ⊢
  rw [places, noticePlaces, inbound]
  exact law

theorem Lnk.lawful_follow {lnk : Lnk} (law : lnk.lawful) : lnk.follow.lawful :=
  Lnk.lawful_transmit (Lnk.lawful_queueNotices (Lnk.lawful_withdraw law))

/-- A reply joins where a place is free (R175). -/
theorem Lnk.lawful_pushReply {lnk : Lnk} {x : Request} {answer : Answer} (law : lnk.lawful) (place : lnk.places < 16) :
    (lnk.pushReply x answer).lawful := by
  obtain ⟨places, noticePlaces⟩ := Lnk.places_joined (lnk := lnk) (lnk' := lnk.pushReply x answer) rfl rfl
  obtain ⟨_, notices, inbound⟩ := law
  exact ⟨by omega, by rw [noticePlaces]; exact notices, inbound⟩

theorem Lnk.lawful_held (drawn : Nat) : (Lnk.held drawn).lawful :=
  ⟨by simp [Lnk.held, Lnk.places], by simp [Lnk.held, Lnk.noticePlaces], by simp [Lnk.held]⟩

theorem Lnk.lawful_started (drawn : Nat) (cause : ResetCause) (baud : Nat) (detectA detectB : Bool) :
    (Lnk.started drawn cause baud detectA detectB).lawful := by
  obtain ⟨inbound, waiting, sending, _⟩ := Lnk.occur_keeps { Lnk.held drawn with baud := baud } 0 .partStarted
    ((u8 cause.code ++ u8 baud ++ flagByte detectA ++ flagByte detectB).map some)
  exact Lnk.lawful_follow (Lnk.lawful_of_queues waiting sending inbound (Lnk.lawful_held drawn))

namespace State.Upholds

variable {r s t : State}

theorem refl (s : State) : Upholds s s := ⟨id, id, id⟩

theorem keeps (h : Upholds r s) (k : Keeps s t) : Upholds r t :=
  ⟨k.mem ∘ h.mem, k.ftb ∘ h.ftb, fun law => Lnk.lawful_of_queues k.waiting k.sending k.inbound (h.lnk law)⟩

theorem ite {c : Prop} [Decidable c] (h : Upholds r s) (k : Upholds r t) : Upholds r (if c then s else t) := by
  split
  · exact h
  · exact k

/-- LNK changes, and keeps its law. -/
theorem modifyLnk {f : Lnk → Lnk} (h : Upholds r s) (law : s.lnk.lawful → (f s.lnk).lawful) : Upholds r (s.modifyLnk f) :=
  ⟨h.mem, h.ftb, law ∘ h.lnk⟩

theorem settle (h : Upholds r s) : Upholds r s.settle := by
  have mem : s.settle.mem = s.mem := by unfold State.settle; dsimp only; split <;> rfl
  have ftb : s.settle.ftb = s.ftb := by unfold State.settle; dsimp only; split <;> rfl
  exact ⟨fun law => mem ▸ h.mem law, fun law => ftb ▸ h.ftb law, fun law => s.settle_lnk ▸ Lnk.lawful_follow (h.lnk law)⟩

/-! ### Cycles pass -/

/-- Cycles within the span of the substitution timer leave the elapsed count within its bound (R6). -/
theorem pass {cycles : Nat} (h : Upholds r s) (within : cycles ≤ s.ftb.toDue) : Upholds r (s.pass cycles) := by
  refine h.keeps (.setFtb (.refl s) fun law => Ftb.lawful_elapsed law ?_)
  obtain ⟨_, _, _, bound⟩ := law
  have := s.ftb.span_bound
  unfold Ftb.toDue at within
  omega

theorem elapseBy {fuel cycles : Nat} (h : Upholds r s) : Upholds r (State.elapseBy fuel cycles s) := by
  induction fuel generalizing cycles s with
  | zero => exact h
  | succ fuel ih =>
    unfold State.elapseBy
    split
    · next within => exact h.pass within
    · exact ih ((h.pass le_rfl).keeps (.timerFires (.refl _))).settle

theorem elapse {cycles : Nat} (h : Upholds r s) : Upholds r (s.elapse cycles) := h.elapseBy

/-! ### Requests and drops -/

/-- A request is served where a place is free for its reply (R175). -/
theorem serve {x : Request} (h : Upholds r s) (place : s.lnk.places < 16) : Upholds r (s.serve x) := by
  have judged : Keeps s (s.judgeRequest x).1 := .judgeRequest (.refl s)
  have free : (s.judgeRequest x).1.lnk.places < 16 := by
    unfold Lnk.places
    rw [judged.waiting, judged.sending]
    exact place
  unfold State.serve
  exact settle ((h.keeps judged).modifyLnk (fun law => Lnk.lawful_pushReply law free))

theorem dispatch {fuel : Nat} (h : Upholds r s) : Upholds r (State.dispatch fuel s) := by
  induction fuel generalizing s with
  | zero => exact h
  | succ fuel ih =>
    unfold State.dispatch
    split
    · exact h
    · next x rest waiting =>
      split
      · next may =>
        simp only [Bool.and_eq_true, Lnk.hasPlace, decide_eq_true_eq] at may
        have taken : Upholds r (s.modifyLnk (fun lnk => { lnk with inbound := rest })) := h.modifyLnk fun law => by
          obtain ⟨places, noticePlaces, inbound⟩ := law
          rw [waiting, List.length_cons] at inbound
          exact ⟨places, noticePlaces, by dsimp only; omega⟩
        exact ih (taken.serve may.1)
      · exact h

theorem dropFrame {cause : DropCause} (h : Upholds r s) : Upholds r (s.dropFrame cause) := by
  unfold State.dropFrame
  exact settle ((h.modifyLnk (f := fun lnk => { lnk with counts := lnk.counts.add cause }) id).keeps (.report (.refl _)))

/-- A request joins the inbound queue where it holds fewer than four (R175). -/
theorem offer {x : Request} (h : Upholds r s) : Upholds r (s.offer x) := by
  unfold State.offer
  split
  · next room =>
    refine dispatch (h.modifyLnk fun law => ?_)
    obtain ⟨places, noticePlaces, _⟩ := law
    exact ⟨places, noticePlaces, by rw [List.length_append]; simpa using room⟩
  · exact h.dropFrame

theorem keep {b : Byte} (h : Upholds r s) : Upholds r (s.modifyLnk (fun lnk => lnk.keep b)) := by
  refine h.modifyLnk fun law => ?_
  unfold Lnk.keep
  split <;> exact law

theorem hunt (h : Upholds r s) : Upholds r s.hunt := h.modifyLnk id

theorem takeBytes {fuel : Nat} {bytes : List Byte} (h : Upholds r s) : Upholds r (State.takeBytes fuel bytes s) := by
  induction fuel generalizing bytes s with
  | zero => exact h
  | succ fuel ih =>
    cases bytes with
    | nil => exact h
    | cons b rest =>
      unfold State.takeBytes
      extract_lets kept
      have kept : Upholds r kept := h.keep
      split
      · exact ih kept
      · exact ih kept.hunt.dropFrame
      · exact ih kept.hunt.dropFrame
      · exact ih kept.hunt.offer

theorem receiveBytes {bytes : List Byte} (h : Upholds r s) : Upholds r (s.receiveBytes bytes) := h.takeBytes

theorem dropKept {cause : DropCause} (h : Upholds r s) : Upholds r (s.dropKept cause) := by
  unfold State.dropKept
  exact h.hunt.dropFrame.receiveBytes

theorem framingError (h : Upholds r s) : Upholds r s.framingError := by
  unfold State.framingError
  exact .ite (h.modifyLnk id) h.dropKept

theorem gapExpires (h : Upholds r s) : Upholds r s.gapExpires := by
  unfold State.gapExpires
  exact .ite h h.dropKept

/-! ### Resets and messages -/

/-- A reset leaves the memory's bytes, and gives the other blocks the values of their tables (R191). -/
theorem hold {cause : ResetCause} (h : Upholds r s) : Upholds r (s.hold cause) :=
  ⟨h.mem, fun _ => Ftb.lawful_afterReset, fun _ => Lnk.lawful_held _⟩

theorem endReset {cause : ResetCause} {baud : Nat} {detectA detectB : Bool} (h : Upholds r s) :
    Upholds r (s.endReset cause baud detectA detectB) :=
  ⟨h.mem, fun _ => Ftb.lawful_afterReset, fun _ => Lnk.lawful_started _ _ _ _ _⟩

/-- The message sent gives its place back (R177). -/
theorem messageSent (h : Upholds r s) : Upholds r s.messageSent := by
  unfold State.messageSent
  split
  · exact h
  · next m sending =>
    have sent : Upholds r (s.modifyLnk (fun lnk => { lnk with sending := none })) := h.modifyLnk fun law => by
      unfold Lnk.lawful Lnk.places Lnk.noticePlaces at *
      dsimp only
      simp only [sending] at law
      split_ifs at law <;> simp <;> simp at law <;> omega
    exact .ite sent.hold (sent.modifyLnk Lnk.lawful_transmit).dispatch

end State.Upholds

/-! ## Every command and every step -/

/-- What a command answers upholds the laws. -/
def Lawful (c : Instr) (s : State) : Prop := ∀ t, exec c s = .next t → s.Upholds t

theorem lawful_act {c : Instr} {s : State} (effect : State → State) (hc : exec c s = s.act effect)
    (h : s.Upholds (effect s)) : Lawful c s := by
  intro t ht
  rw [hc] at ht
  unfold State.act at ht
  split at ht
  · obtain rfl := Host.Outcome.next.inj ht
    exact .refl s
  · obtain rfl := Host.Outcome.next.inj ht
    exact h.settle

theorem lawful_keeps {c : Instr} {s : State} (effect : State → State) (hc : exec c s = s.act effect)
    (h : s.Keeps s → s.Keeps (effect s)) : Lawful c s :=
  lawful_act effect hc ((State.Upholds.refl s).keeps (h (.refl s)))

theorem lawful_receive {c : Instr} {s : State} {code tag : Byte} {payload : List Byte}
    (hc : exec c s = s.receive code tag payload) : Lawful c s :=
  lawful_act _ hc (State.Upholds.refl s).offer

theorem lawful_resetEnd (strap1 strap0 detectA detectB : Bool) (s : State) :
    Lawful (.resetEnd strap1 strap0 detectA detectB) s := by
  intro t ht
  change execResetEnd strap1 strap0 detectA detectB s = .next t at ht
  unfold execResetEnd at ht
  split at ht <;> obtain rfl := Host.Outcome.next.inj ht
  · exact .refl s
  · exact (State.Upholds.refl s).endReset

/-- Every command upholds the laws, in every state. The commands without a case of their own are the requests, which all reach
the part through the inbound queue (R175). -/
theorem exec_lawful (c : Instr) (s : State) : Lawful c s := by
  cases c with
  | frameStartEdge cycles =>
    exact lawful_act (fun s => (s.elapse cycles).edge) rfl (((State.Upholds.refl s).elapse).keeps (.edge (.refl _)))
  | substitutionTimer => exact lawful_keeps State.fireIfDue rfl .fireIfDue
  | lncFrameStart => exact lawful_keeps State.lncStep rfl .lncStep
  | lensReport bytes => exact lawful_keeps (·.lensReport bytes) rfl .lensReport
  | reportWindowExpiry => exact lawful_keeps State.windowExpires rfl .windowExpires
  | gyroReadDue => exact lawful_keeps State.gyroDue rfl .gyroDue
  | gyroAnswer yaw pitch status => exact lawful_keeps (·.gyroAnswered yaw.toInt pitch.toInt status) rfl .gyroAnswered
  | tileSetComplete serial pixels => exact lawful_keeps (·.tileSet ⟨serial, pixels⟩) rfl .tileSet
  | correlationComplete => exact lawful_keeps (·.modifyStb Stb.correlated) rfl id
  | stbFrameStart => exact lawful_keeps State.stbStep rfl .stbStep
  | sampleFrame pair first second => exact lawful_keeps (·.sampleFrame pair first.toInt second.toInt) rfl .sampleFrame
  | audFrameStart => exact lawful_keeps State.audStep rfl .audStep
  | bfmFrameStart => exact lawful_keeps State.bfmStep rfl .bfmStep
  | essenceHeader serial lengthLessOne key =>
    exact lawful_keeps (·.essenceHeader serial (lengthLessOne.toNat + 1) key) rfl .essenceHeader
  | essenceData bytes => exact lawful_keeps (·.essenceData bytes) rfl .essenceData
  | rcdFrameStart => exact lawful_keeps State.rcdStep rfl .rcdStep
  | vogFrameStart => exact lawful_keeps State.vogStep rfl .vogStep
  | overlaySent => exact lawful_keeps (fun s => { s with vog := s.vog.recordSent }) rfl id
  | recLinePress => exact lawful_keeps State.press rfl .press
  | unitTake slot => exact lawful_keeps (·.takeNext slot) rfl .takeNext
  | commandComplete slot status => exact lawful_keeps (·.commandAnswered slot status) rfl .commandAnswered
  | cardReadComplete slot answer => exact lawful_keeps (·.readAnswered slot answer) rfl .readAnswered
  | cardTimeout slot => exact lawful_keeps (·.cardTimesOut slot) rfl .cardTimesOut
  | cardDetectChange slot present => exact lawful_keeps (·.detectChanged slot present) rfl .detectChanged
  | protectChange slot on => exact lawful_keeps (·.protectChanged slot on) rfl .protectChanged
  | byteArrival byte => exact lawful_act (·.receiveBytes [byte]) rfl (State.Upholds.refl s).receiveBytes
  | lineFramingError => exact lawful_act State.framingError rfl (State.Upholds.refl s).framingError
  | gapTimeout => exact lawful_act State.gapExpires rfl (State.Upholds.refl s).gapExpires
  | messageSent => exact lawful_act State.messageSent rfl (State.Upholds.refl s).messageSent
  | powerOnReset => exact fun t ht => Host.Outcome.next.inj ht ▸ (State.Upholds.refl s).hold
  | resetEnd strap1 strap0 detectA detectB => exact lawful_resetEnd strap1 strap0 detectA detectB s
  | _ => exact lawful_receive rfl

/-- A step is a command's, on the state with the queue's rest, or a passing cycle's. -/
theorem step_upholds {s t : State} (h : step s = .next t) : s.Upholds t := by
  unfold step at h
  split at h
  · split at h <;> obtain rfl := Host.Outcome.next.inj h
    · exact .refl s
    · exact (State.Upholds.refl s).elapse
  · next c rest _ =>
    obtain ⟨mem, ftb, lnk⟩ := exec_lawful c { s with pending := rest } t h
    exact ⟨mem, ftb, lnk⟩

/-- Settles O3: every step upholds the laws of the memory, the timecode and the queues. -/
theorem lawsKept : Obligations.LawsKept := by
  unfold Obligations.LawsKept
  exact ⟨fun _ _ law h => (step_upholds h).mem law, fun _ _ law h => (step_upholds h).ftb law,
    fun _ _ law h => (step_upholds h).lnk law⟩

/-! ## The state after reset -/

theorem Bfm.lawful_afterReset : Bfm.afterReset.lawful := by
  refine ⟨?_, List.nodup_nil, fun e mem => by cases mem⟩
  have pages : Bfm.afterReset.free.pages = List.range 16384 := by
    simp [Bfm.afterReset, FreeList.pages, pageCount, List.range_eq_range']
  rw [pages]
  simp [Bfm.afterReset]

/-- Settles O4: the reset values of every block keep its law. -/
theorem resetKeepsLaws : Obligations.ResetKeepsLaws := by
  unfold Obligations.ResetKeepsLaws
  exact ⟨rfl, Ftb.lawful_afterReset, Lnk.lawful_started _ _ _ _ _, Bfm.lawful_afterReset⟩

/-- Settles O7: every value is the one its block's table gives. -/
theorem resetValues : Obligations.ResetValues := by
  have free : State.reset.bfm.free.pages.length = 16384 := by
    simp [State.reset, State.started, Bfm.afterReset, FreeList.pages, pageCount]
  unfold Obligations.ResetValues
  refine ⟨?_, ?_, ?_, ?_, ?_, ?_, ?_, ?_, ?_, ?_⟩
  · decide
  · decide
  · decide
  · decide
  · exact ⟨free, rfl, rfl, rfl, rfl, rfl, rfl, rfl, rfl⟩
  · decide
  · decide
  · decide
  · decide
  · decide

end Sys2Proof.Machine

namespace Sys2Proof.Machine

/-! # Frame starts (R6 to R10)

What a frame start is made of, and what it comes to when the armed trigger does not match its label. -/

/-! ## The steps of a frame start -/

/-- What may follow the trigger at a frame start, for FTB: whether the generator moves on (R10 step 7), and what becomes of the
timebase state and of the count of substituted starts (R6 to R8). -/
structure Turn where
  moves : Bool
  state : TimebaseState → TimebaseState
  count : Nat → Nat

def Ftb.turn (turn : Turn) (ftb : Ftb) : Ftb :=
  { ftb with
    state := turn.state ftb.state
    substituted := turn.count ftb.substituted
    generator := if turn.moves then ftb.generator.advance ftb.rate ftb.dropFrame else ftb.generator }

def State.turn (s : State) (turn : Turn) : State := { s with ftb := s.ftb.turn turn }

/-- R10 step 7: the generator moves on, if it does. -/
def State.frameEnds (s : State) (e : HistoryEntry) : State := s.turn { moves := s.ftb.advances e, state := id, count := id }

/-- The entry that a frame start adds to the label history (R10 steps 3 and 4). -/
def State.frameEntry (s : State) (substituted : Bool) : HistoryEntry :=
  (s.ftb.begin substituted (s.rcd.state == .recording)).1

/-- The part once steps 1 to 5 of R10 are taken: the trigger and the generator's advance are still to come. -/
def State.frameBegun (s : State) (substituted : Bool) : State :=
  { s with
    ftb := (s.ftb.begin substituted (s.rcd.state == .recording)).2
    due := s.due.push { serial := s.ftb.serial + 1, substituted := substituted, inRun := s.pwc.inRun, lens := none, stbOff := false }
    aud := s.aud.newFrame }

theorem Ftb.begin_fst (ftb : Ftb) (substituted recording : Bool) :
    (ftb.begin substituted recording).1 =
      { serial := ftb.serial + 1, label := { time := ftb.nextTime, userBits := ftb.userBits }, valid := true,
        substituted := substituted, recording := recording, burst := ftb.isBurst recording } := by
  cases substituted <;> cases hp : ftb.preset <;>
    simp [Ftb.begin, Ftb.loadPreset, Ftb.label, Ftb.nextTime, Ftb.isBurst, hp]

theorem Ftb.begin_snd (ftb : Ftb) (substituted recording : Bool) :
    (ftb.begin substituted recording).2 =
      { ftb with
        serial := ftb.serial + 1
        elapsed := 0
        previousReal := !substituted
        lastReal := if substituted then ftb.lastReal else ftb.serial + 1
        preset := none
        generator := ftb.nextTime
        history := (ftb.history ++ [(ftb.begin substituted recording).1]).drop (ftb.history.length + 1 - 16)
        counter := (ftb.countDown recording).counter } := by
  rw [Ftb.begin_fst]
  cases substituted <;> cases hp : ftb.preset <;> cases hi : ftb.interval <;> cases recording <;>
    simp [Ftb.begin, Ftb.loadPreset, Ftb.label, Ftb.nextTime, Ftb.isBurst, Ftb.countDown, Ftb.addEntry, hp, hi]

theorem State.frameEntry_eq (s : State) (substituted : Bool) :
    s.frameEntry substituted =
      { serial := s.ftb.serial + 1, label := { time := s.ftb.nextTime, userBits := s.ftb.userBits }, valid := true,
        substituted := substituted, recording := s.rcd.state == .recording,
        burst := s.ftb.isBurst (s.rcd.state == .recording) } :=
  s.ftb.begin_fst _ _

theorem State.frameBegun_ftb (s : State) (substituted : Bool) :
    (s.frameBegun substituted).ftb =
      { s.ftb with
        serial := s.ftb.serial + 1
        elapsed := 0
        previousReal := !substituted
        lastReal := if substituted then s.ftb.lastReal else s.ftb.serial + 1
        preset := none
        generator := s.ftb.nextTime
        history := (s.ftb.history ++ [s.frameEntry substituted]).drop (s.ftb.history.length + 1 - 16)
        counter := (s.ftb.countDown (s.rcd.state == .recording)).counter } :=
  s.ftb.begin_snd _ _

theorem State.frameStart_eq (s : State) (substituted : Bool) :
    s.frameStart substituted =
      ((s.frameBegun substituted).tryTrigger (s.frameEntry substituted)).frameEnds (s.frameEntry substituted) := by
  have serial : (s.ftb.begin substituted (s.rcd.state == .recording)).1.serial = s.ftb.serial + 1 := by rw [Ftb.begin_fst]
  have ends (t : State) (e : HistoryEntry) :
      (if t.ftb.advances e then { t with ftb := t.ftb.advance } else t) = t.frameEnds e := by
    unfold State.frameEnds
    cases t.ftb.advances e <;> rfl
  unfold State.frameStart State.frameBegun State.frameEntry
  rw [← serial]
  exact ends _ _

/-- The statements' frame start, without a trigger, is the model's. -/
theorem State.framed_eq (s : State) (substituted : Bool) :
    s.framed substituted = (s.frameBegun substituted).frameEnds (s.frameEntry substituted) := by
  unfold State.framed State.frameEnds State.turn Ftb.turn Ftb.advances
  rw [State.frameBegun_ftb, State.frameEntry_eq]
  unfold State.frameBegun
  cases hm : s.ftb.mode <;> cases hi : s.ftb.interval <;>
    simp [Ftb.isBurst, Ftb.countDown, hm, hi, apply_ite Ftb.counter]

/-- A trigger that does not match leaves the frame start as it is (R20). -/
theorem State.tryTrigger_unmatched (s : State) (e : HistoryEntry) (h : ∀ t, s.ftb.trigger = some t → t.time ≠ e.label.time) :
    s.tryTrigger e = s := by
  unfold State.tryTrigger
  split
  · rfl
  · next t armed => rw [if_neg (by simpa using h t armed)]

theorem State.frameStart_unmatched (s : State) (substituted : Bool) (h : s.ftb.unmatched) :
    s.frameStart substituted = s.framed substituted := by
  rw [State.frameStart_eq, State.framed_eq, State.tryTrigger_unmatched]
  rw [State.frameBegun_ftb, State.frameEntry_eq]
  exact h

/-- The statements' timer is the model's. -/
theorem State.timerFires_unmatched (s : State) (h : s.ftb.unmatched) : s.timerFires = s.timed := by
  unfold State.timerFires State.timed State.frameLoss
  rw [State.frameStart_unmatched s true h]
  cases s.ftb.state <;> rfl

@[simp] theorem State.settle_ftb (s : State) : s.settle.ftb = s.ftb := by
  unfold State.settle; dsimp only; split <;> rfl
@[simp] theorem State.settle_pwc (s : State) : s.settle.pwc = s.pwc := by
  unfold State.settle; dsimp only; split <;> rfl


/-! ## The edge and the timer -/

/-- Before its time the timer does not fire. -/
theorem State.fireIfDue_early {s : State} (early : s.ftb.elapsed < s.ftb.dueAt) : s.fireIfDue = s :=
  if_neg (by rw [Ftb.dueAt_eq] at early; simpa [Ftb.timerDue] using early)

theorem State.fireIfDue_due {s : State} (due : s.ftb.dueAt ≤ s.ftb.elapsed) : s.fireIfDue = s.timerFires :=
  if_pos (by rw [Ftb.dueAt_eq] at due; simpa [Ftb.timerDue] using due)

/-- Settles O9: the timer's span is the time at which a start is due, and a start that meets no trigger is `State.framed`. -/
theorem timerStartsFrame : Obligations.TimerStartsFrame := by
  unfold Obligations.TimerStartsFrame
  exact fun s works => ⟨fun early => becomes_act works (f := State.fireIfDue) rfl (State.fireIfDue_early early),
    fun due unmatched => becomes_act works (f := State.fireIfDue) rfl
      ((State.fireIfDue_due due).trans (State.timerFires_unmatched s unmatched))⟩

/-- An edge whose cycles bring no substituted start is judged at the count that they bring. -/
theorem becomes_edge {s u : State} {cycles : Nat} (works : s.works) (within : s.ftb.within cycles) (h : (s.pass cycles).edge = u) :
    Becomes (.frameStartEdge cycles) s u :=
  becomes_act works (f := fun s => (s.elapse cycles).edge) rfl (by rw [State.elapse_within s cycles within, h])

theorem State.isEarly_pass (s : State) (cycles : Nat) :
    (s.pass cycles).ftb.isEarly = decide (4 * (s.ftb.elapsed + cycles) < 3 * s.ftb.rate.period) := rfl

theorem State.edge_acquire {s : State} (state : s.ftb.state = .acquire) : s.edge = (s.frameStart false).setTimebase .locked := by
  simp only [State.edge, state]

theorem State.edge_holdover {s : State} (state : s.ftb.state = .holdover) :
    s.edge = if s.ftb.isEarly then { s with ftb := { s.ftb with elapsed := 0, state := .locked } }
      else (s.frameStart false).setTimebase .locked := by
  simp only [State.edge, state]

theorem State.edge_locked {s : State} (state : s.ftb.state = .locked) :
    s.edge = if s.ftb.isEarly then { s with ftb := { s.ftb with runts := bump16 s.ftb.runts } }
      else ({ s with ftb := s.ftb.measure } : State).frameStart false := by
  simp only [State.edge, state]

theorem State.edge_standby {s : State} (state : s.ftb.state = .standby) : s.edge = s := by
  simp only [State.edge, state]

theorem Ftb.measure_eq (ftb : Ftb) :
    ftb.measure = { ftb with measurement := if ftb.previousReal then ftb.elapsed else ftb.measurement } := by
  unfold Ftb.measure
  split <;> rfl

/-! ## Cycles beyond the timer's span -/

/-- What a start or a stop that reaches the Recorder makes of FTB and PWC: a clip may have begun, which loads the interval counter
or makes the catch-up advance (R15, R22). -/
structure RecorderActs (u v : State) : Prop where
  ftb : v.ftb = u.ftb ∨ v.ftb = u.ftb.clipStarted
  pwc : v.pwc = u.pwc

/-- The opening of a clip's copies leaves FTB, BFM and PWC. -/
theorem State.openCopies_keeps (s : State) : s.openCopies.ftb = s.ftb ∧ s.openCopies.bfm = s.bfm ∧ s.openCopies.pwc = s.pwc := by
  have opened (s : State) (side : Side) (flags : CopyFlags) : (s.openFor side flags none).ftb = s.ftb ∧
      (s.openFor side flags none).bfm = s.bfm ∧ (s.openFor side flags none).pwc = s.pwc :=
    have cards := CardsOnly.openCopy s side flags none
    ⟨cards.ftb, cards.bfm, cards.pwc⟩
  unfold State.openCopies
  dsimp only
  split
  · exact opened _ _ _
  · exact opened _ _ _
  · obtain ⟨ftb, bfm, pwc⟩ := opened s .a { continuation := false, retained := false, mirrored := s.rcd.mode == .mirror }
    obtain ⟨ftb', bfm', pwc'⟩ := opened (s.openFor .a _ none) .b
      { continuation := false, retained := false, mirrored := s.rcd.mode == .mirror }
    exact ⟨ftb'.trans ftb, bfm'.trans bfm, pwc'.trans pwc⟩

theorem State.chooseHead_ftb (s : State) (floor : Serial) : (s.chooseHead floor).ftb = s.ftb ∧ (s.chooseHead floor).pwc = s.pwc := by
  unfold State.chooseHead
  split
  · exact ⟨rfl, rfl⟩
  · split <;> exact ⟨rfl, rfl⟩

theorem RecorderActs.takeStart (s : State) (n : Serial) : RecorderActs s (s.takeStart n) := by
  obtain ⟨ftb, _, pwc⟩ := (s.beginClip .normal .recording (some n)).openCopies_keeps
  unfold State.takeStart
  dsimp only
  split
  · obtain ⟨ftb', pwc'⟩ := (s.beginClip .normal .recording (some n)).openCopies.chooseHead_ftb
      (n - BitVec.ofNat 32 (s.beginClip .normal .recording (some n)).openCopies.bfm.depth)
    exact ⟨.inr (congrArg Ftb.clipStarted (ftb'.trans ftb)), pwc'.trans pwc⟩
  · exact ⟨.inr (congrArg Ftb.clipStarted ftb), pwc⟩

theorem RecorderActs.start (s : State) (source : StartSource) (n : Serial) : RecorderActs s (s.start source n).1 := by
  unfold State.start
  dsimp only
  split
  · exact ⟨.inl rfl, rfl⟩
  · split
    · exact ⟨.inl rfl, rfl⟩
    · exact ⟨.inl rfl, rfl⟩
    · exact ⟨.inl rfl, rfl⟩
    · split
      · exact ⟨.inl rfl, rfl⟩
      · obtain ⟨ftb, pwc⟩ := RecorderActs.takeStart s n
        exact ⟨ftb, pwc⟩

theorem RecorderActs.startReported (s : State) (source : StartSource) (n : Serial) : RecorderActs s (s.startReported source n) := by
  obtain ⟨ftb, pwc⟩ := RecorderActs.start s source n
  rw [State.startReported_eq]
  split <;> exact ⟨ftb, pwc⟩

theorem RecorderActs.endClip (s : State) (reason : EndReason) : RecorderActs s (s.endClip reason) := by
  unfold State.endClip
  extract_lets count _ _ standing told rcd ended
  split
  · obtain ⟨ftb, pwc⟩ := RecorderActs.startReported { ended with rcd := { ended.rcd with latch := false } } .latch ended.rcd.noted
    exact ⟨ftb, pwc⟩
  · exact ⟨.inl rfl, rfl⟩

theorem State.tellLast_ftb (s : State) (side : Side) : (s.tellLast side).ftb = s.ftb ∧ (s.tellLast side).pwc = s.pwc := by
  unfold State.tellLast State.closeCopy
  split
  · exact ⟨rfl, rfl⟩
  · split
    · exact ⟨(CardsOnly.nameLast _ side _).ftb, (CardsOnly.nameLast _ side _).pwc⟩
    · exact ⟨rfl, rfl⟩

theorem RecorderActs.watchClip (s : State) : RecorderActs s s.watchClip := by
  unfold State.watchClip
  split
  · split
    · exact ⟨.inl rfl, rfl⟩
    · have ftb : ((s.tellLast .a).tellLast .b).ftb = s.ftb := ((s.tellLast .a).tellLast_ftb .b).1.trans (s.tellLast_ftb .a).1
      have pwc : ((s.tellLast .a).tellLast .b).pwc = s.pwc := ((s.tellLast .a).tellLast_ftb .b).2.trans (s.tellLast_ftb .a).2
      dsimp only
      split
      · split
        · obtain ⟨ended, kept⟩ := RecorderActs.endClip ((s.tellLast .a).tellLast .b) (Option.getD _ .stopped)
          exact ⟨ftb ▸ ended, kept.trans pwc⟩
        · exact ⟨.inl ftb, pwc⟩
      · exact ⟨.inl ftb, pwc⟩
  · split
    · exact RecorderActs.endClip s _
    · exact ⟨.inl rfl, rfl⟩
  · exact ⟨.inl rfl, rfl⟩

theorem RecorderActs.stop (s : State) (n : Serial) : RecorderActs s (s.stop n) := by
  unfold State.stop
  split
  · extract_lets _ closing fixed
    obtain ⟨ftb, pwc⟩ := RecorderActs.watchClip (fixed.reportRec .stopped 0 0)
    exact ⟨ftb, pwc⟩
  all_goals exact ⟨.inl rfl, rfl⟩

theorem RecorderActs.deliver (s : State) (action : TriggerAction) (n : Serial) : RecorderActs s (s.deliver action n).1 := by
  cases action with
  | start => exact RecorderActs.start s .trigger n
  | stop => exact RecorderActs.stop s n
  | noticeOnly => exact ⟨.inl rfl, rfl⟩

/-! ### What a frame start leaves in FTB, whatever its trigger does -/

/-- A frame start has been made of `s`: FTB's serial, count and history are those of a frame that has just begun (R10). -/
structure FrameMade (s t : State) : Prop where
  serial : t.ftb.serial = s.ftb.serial + 1
  elapsed : t.ftb.elapsed = 0
  rate : t.ftb.rate = s.ftb.rate
  userBits : t.ftb.userBits = s.ftb.userBits
  latest : ∃ e, t.ftb.history.getLast? = some e ∧ e.serial = s.ftb.serial + 1 ∧ e.label.userBits = s.ftb.userBits
  pwc : t.pwc = s.pwc

/-- A start of a clip moves the counter and the generator alone. -/
theorem Ftb.clipStarted_eq (ftb : Ftb) :
    ∃ counter generator, ftb.clipStarted = { ftb with counter := counter, generator := generator } := by
  unfold Ftb.clipStarted
  split
  · exact ⟨_, _, rfl⟩
  · split <;> exact ⟨_, _, rfl⟩

theorem RecorderActs.ftb_eq {u v : State} (h : RecorderActs u v) :
    ∃ counter generator, v.ftb = { u.ftb with counter := counter, generator := generator } := by
  rcases h.ftb with same | started
  · exact ⟨_, _, same⟩
  · obtain ⟨counter, generator, eq⟩ := u.ftb.clipStarted_eq
    exact ⟨counter, generator, started.trans eq⟩

theorem State.tryTrigger_ftb (s : State) (e : HistoryEntry) :
    (∃ trigger counter generator, (s.tryTrigger e).ftb =
      { s.ftb with trigger := trigger, counter := counter, generator := generator }) ∧ (s.tryTrigger e).pwc = s.pwc := by
  unfold State.tryTrigger
  split
  · exact ⟨⟨_, _, _, rfl⟩, rfl⟩
  · next t _ =>
    split
    · have acts := RecorderActs.deliver { s with ftb := { s.ftb with trigger := none } } t.action e.serial
      obtain ⟨counter, generator, ftb⟩ := acts.ftb_eq
      exact ⟨⟨none, counter, generator, ftb⟩, acts.pwc⟩
    · exact ⟨⟨_, _, _, rfl⟩, rfl⟩

theorem State.frameStart_ftb (s : State) (substituted : Bool) :
    ∃ trigger counter generator, (s.frameStart substituted).ftb =
      { (s.frameBegun substituted).ftb with trigger := trigger, counter := counter, generator := generator } := by
  obtain ⟨⟨trigger, counter, _, ftb⟩, _⟩ := (s.frameBegun substituted).tryTrigger_ftb (s.frameEntry substituted)
  rw [State.frameStart_eq]
  unfold State.frameEnds State.turn Ftb.turn
  dsimp only
  rw [ftb]
  exact ⟨trigger, counter, _, rfl⟩

theorem FrameMade.frameStart (s : State) (substituted : Bool) : FrameMade s (s.frameStart substituted) := by
  have pwc : (s.frameStart substituted).pwc = s.pwc := by
    rw [State.frameStart_eq]
    exact ((s.frameBegun substituted).tryTrigger_ftb _).2
  obtain ⟨trigger, counter, generator, ftb⟩ := s.frameStart_ftb substituted
  have entry := s.frameEntry_eq substituted
  rw [State.frameBegun_ftb] at ftb
  refine ⟨by rw [ftb], by rw [ftb], by rw [ftb], by rw [ftb], ⟨s.frameEntry substituted, ?_, by rw [entry], by rw [entry]⟩, pwc⟩
  rw [ftb, List.getLast?_drop, if_neg (by rw [List.length_append, List.length_singleton]; omega), List.getLast?_concat]

@[simp] theorem State.frameStart_state (s : State) (substituted : Bool) : (s.frameStart substituted).ftb.state = s.ftb.state := by
  obtain ⟨trigger, counter, generator, ftb⟩ := s.frameStart_ftb substituted
  rw [ftb, State.frameBegun_ftb]

/-- What FTB does after a frame start in the same step, and LNK and VOG behind it, leaves the frame made. -/
theorem FrameMade.of_ftb {s t u : State} {state : TimebaseState} {counted : Nat} (h : FrameMade s t)
    (ftb : u.ftb = { t.ftb with state := state, substituted := counted }) (pwc : u.pwc = t.pwc) : FrameMade s u := by
  obtain ⟨serial, elapsed, rate, userBits, latest, pwc'⟩ := h
  exact ⟨by rw [ftb, ← serial], by rw [ftb, ← elapsed], by rw [ftb, ← rate], by rw [ftb, ← userBits], by rw [ftb]; exact latest,
    pwc.trans pwc'⟩

theorem FrameMade.settle {s t : State} (h : FrameMade s t) : FrameMade s t.settle := h.of_ftb t.settle_ftb t.settle_pwc

theorem FrameMade.timerFires (s : State) : FrameMade s s.timerFires := by
  have made := FrameMade.frameStart s true
  unfold State.timerFires State.frameLoss
  split
  · exact made.of_ftb rfl rfl
  · exact made.of_ftb rfl rfl
  · exact made.of_ftb (state := (s.frameStart true).ftb.state) rfl rfl
  · exact made

/-- A timer that has fired leaves FTB in HOLDOVER, or in STANDBY (R6, R9). -/
theorem State.timerFires_state (s : State) : s.timerFires.ftb.state = if s.ftb.state = .standby then .standby else .holdover := by
  cases state : s.ftb.state <;>
    simp [State.timerFires, State.frameLoss, State.countSubstituted, state]

/-! ### How many starts fall due -/

/-- FTB's next start falls due one period after the last: in HOLDOVER and STANDBY, with no cycle passed yet (R6). -/
def Ftb.onPeriod (ftb : Ftb) : Prop := (ftb.state = .holdover ∨ ftb.state = .standby) ∧ ftb.elapsed = 0

theorem Ftb.onPeriod.toDue {ftb : Ftb} (h : ftb.onPeriod) : ftb.toDue = ftb.rate.period := by
  obtain ⟨state, elapsed⟩ := h
  unfold Ftb.toDue Ftb.span
  rcases state with state | state <;> rw [state, elapsed] <;> rfl

/-- A firing timer and the settling behind it. -/
theorem State.timerFires_onPeriod (s : State) : s.timerFires.settle.ftb.onPeriod := by
  have made := (FrameMade.timerFires s).elapsed
  have state := s.timerFires_state
  unfold Ftb.onPeriod
  rw [State.settle_ftb, state]
  exact ⟨by split <;> simp, made⟩

theorem Rate.period_pos (r : Rate) : 0 < r.period := by cases r <;> decide

/-- Any fuel beyond the number of whole periods is enough. -/
theorem State.elapseBy_enough {s : State} (h : s.ftb.onPeriod) {cycles fuel fuel' : Nat} (enough : cycles / s.ftb.rate.period < fuel)
    (enough' : cycles / s.ftb.rate.period < fuel') : State.elapseBy fuel cycles s = State.elapseBy fuel' cycles s := by
  induction fuel generalizing s cycles fuel' with
  | zero => exact absurd enough (Nat.not_lt_zero _)
  | succ fuel ih =>
    cases fuel' with
    | zero => exact absurd enough' (Nat.not_lt_zero _)
    | succ fuel' =>
      unfold State.elapseBy
      rw [h.toDue]
      split
      · rfl
      · next beyond =>
        have rate : (s.pass s.ftb.rate.period).timerFires.settle.ftb.rate = s.ftb.rate := (FrameMade.timerFires _).settle.rate
        have whole : cycles / s.ftb.rate.period = (cycles - s.ftb.rate.period) / s.ftb.rate.period + 1 :=
          Nat.div_eq_sub_div s.ftb.rate.period_pos (by omega)
        exact ih (State.timerFires_onPeriod _) (by rw [rate]; omega) (by rw [rate]; omega)

/-! ## A step, and an edge that a substituted start comes before -/

theorem State.act_works {s : State} (works : s.works) (effect : State → State) : s.act effect = .next (effect s).settle := by
  have : s.inReset = false := by unfold State.inReset; rw [works]; rfl
  rw [State.act, this]
  rfl

theorem State.pass_zero (s : State) : s.pass 0 = s := rfl

/-- Cycles beyond the timer's span: the timer fires at its span, and the rest pass behind that start. -/
theorem State.elapse_beyond {s : State} {cycles : Nat} (beyond : ¬ s.ftb.within cycles) :
    s.elapse cycles = (s.pass s.ftb.toDue).timerFires.settle.elapse (cycles - s.ftb.toDue) := by
  have unfits : ¬ cycles ≤ s.ftb.toDue := by
    unfold Ftb.within at beyond
    rw [Ftb.dueAt_eq] at beyond
    unfold Ftb.toDue
    omega
  have rate : (s.pass s.ftb.toDue).timerFires.settle.ftb.rate = s.ftb.rate := (FrameMade.timerFires _).settle.rate
  have fewer : (cycles - s.ftb.toDue) / s.ftb.rate.period ≤ cycles / s.ftb.rate.period := Nat.div_le_div_right (Nat.sub_le ..)
  unfold State.elapse
  rw [State.elapseBy, if_neg unfits]
  exact State.elapseBy_enough (State.timerFires_onPeriod _) (by rw [rate]; omega) (by omega)

/-- The step of the substitution timer at the time when it is due. -/
theorem exec_timer_due {s : State} (works : s.works) (due : s.ftb.timerDue = true) :
    exec .substitutionTimer s = .next s.timerFires.settle := by
  calc exec .substitutionTimer s = s.act State.fireIfDue := rfl
    _ = .next s.fireIfDue.settle := State.act_works works _
    _ = .next s.timerFires.settle := by rw [State.fireIfDue, if_pos due]

theorem State.pass_toDue (s : State) :
    s.pass s.ftb.toDue = { s with ftb := { s.ftb with elapsed := max s.ftb.elapsed s.ftb.dueAt } } := by
  have : s.ftb.elapsed + s.ftb.toDue = max s.ftb.elapsed s.ftb.dueAt := by rw [Ftb.dueAt_eq, Ftb.toDue]; omega
  rw [State.pass, this]

theorem State.pass_toDue_due (s : State) : (s.pass s.ftb.toDue).ftb.timerDue = true :=
  decide_eq_true (show s.ftb.span ≤ s.ftb.elapsed + (s.ftb.span - s.ftb.elapsed) by omega)

/-- A firing timer leaves the part at work. -/
theorem State.timerFires_works {s : State} (works : s.works) : s.timerFires.settle.works := by
  unfold State.works
  rw [(FrameMade.timerFires s).settle.pwc]
  exact works

/-- Settles O8: `State.elapse` takes the substituted start first; the edge then goes by the state and the count it finds. -/
theorem frameStartEdges : Obligations.FrameStartEdges := by
  unfold Obligations.FrameStartEdges
  refine ⟨fun cycles s works unmatched within => ⟨?_, ?_⟩, fun cycles s works within => ⟨?_, ?_, ?_⟩, ?_⟩
  · intro start
    refine becomes_edge works within ?_
    have framed : (s.pass cycles).frameStart false = s.framed false := State.frameStart_unmatched _ _ unmatched
    rcases start with state | ⟨state, late⟩
    · rw [State.edge_acquire (s := s.pass cycles) state, framed]
      rfl
    · rw [State.edge_holdover (s := s.pass cycles) state, State.isEarly_pass, if_neg (by simpa using late), framed]
      rfl
  · rintro ⟨state, late⟩
    refine becomes_edge works within ?_
    rw [State.edge_locked (s := s.pass cycles) state, State.isEarly_pass, if_neg (by simpa using late), Ftb.measure_eq]
    exact State.frameStart_unmatched _ _ unmatched
  · rintro ⟨state, early⟩
    refine becomes_edge works within ?_
    rw [State.edge_locked (s := s.pass cycles) state, State.isEarly_pass, if_pos (by simpa using early)]
    rfl
  · rintro ⟨state, early⟩
    refine becomes_edge works within ?_
    rw [State.edge_holdover (s := s.pass cycles) state, State.isEarly_pass, if_pos (by simpa using early)]
    rfl
  · intro state
    exact becomes_edge works within (State.edge_standby (s := s.pass cycles) state)
  · intro cycles s v works beyond fired
    rw [← State.pass_toDue, exec_timer_due (s := s.pass s.ftb.toDue) works s.pass_toDue_due] at fired
    obtain rfl : (s.pass s.ftb.toDue).timerFires.settle = v := by injection fired
    calc exec (.frameStartEdge cycles) s = s.act (fun s => (s.elapse cycles).edge) := rfl
      _ = .next (s.elapse cycles).edge.settle := State.act_works works _
      _ = .next ((s.pass s.ftb.toDue).timerFires.settle.elapse (cycles - s.ftb.toDue)).edge.settle := by
        rw [State.elapse_beyond beyond]
      _ = exec (.frameStartEdge (cycles - (s.ftb.dueAt - s.ftb.elapsed))) (s.pass s.ftb.toDue).timerFires.settle := by
        rw [Ftb.dueAt_eq]
        exact (State.act_works (s := (s.pass s.ftb.toDue).timerFires.settle) (State.timerFires_works works)
          (fun u => (u.elapse (cycles - s.ftb.toDue)).edge)).symm

/-- Settles O1: an idle step is one cycle, and a start that was due already comes before it. -/
theorem stepTakesFront : Obligations.StepTakesFront := by
  unfold Obligations.StepTakesFront
  refine ⟨fun c rest s front => ?_, fun s idle => ?_⟩
  · rw [step, front]
  have stepped : step s = if s.inReset then .next s else .next (s.elapse 1) := by rw [step, idle]
  refine ⟨fun works within => ?_, fun works beyond v fired => ?_, fun held => ?_⟩
  · rw [stepped, State.inReset, works, s.elapse_within 1 within]
    rfl
  · have due : s.ftb.toDue = 0 := by
      unfold Ftb.within at beyond
      rw [Ftb.dueAt_eq] at beyond
      unfold Ftb.toDue
      omega
    rw [exec_timer_due works (by have := s.pass_toDue_due; rwa [due] at this)] at fired
    obtain rfl : s.timerFires.settle = v := by injection fired
    have onPeriod := s.timerFires_onPeriod
    have fits : s.timerFires.settle.ftb.within 1 := by
      have := onPeriod.toDue
      have := s.timerFires.settle.ftb.rate.period_pos
      unfold Ftb.within
      rw [Ftb.dueAt_eq]
      unfold Ftb.toDue at *
      omega
    rw [stepped, State.inReset, works, State.elapse_beyond beyond, due, State.pass_zero, State.elapse_within _ 1 fits, State.pass,
      onPeriod.2]
    rfl
  · have inReset : s.inReset = true := by
      unfold State.works at held
      unfold State.inReset
      exact Option.isSome_iff_ne_none.mpr held
    rw [stepped, if_pos inReset]

end Sys2Proof.Machine

namespace Sys2Proof.Machine

/-! # The timecode's requests (R16 to R19, R21, R23) -/

/-! ## Fields -/

theorem num_u32 (x : BitVec 32) : num (u32 x.toNat) 0 4 = x.toNat := by
  have := num_field [] [] 4 x.toNat (by simpa using x.isLt)
  simpa [u32] using this

theorem serialAt_u32 (x : BitVec 32) : serialAt (u32 x.toNat) 0 = x := by
  rw [serialAt, num_u32, BitVec.ofNat_toNat, BitVec.setWidth_eq]

@[simp] theorem u8_length (x : Nat) : (u8 x).length = 1 := rfl
@[simp] theorem u16_length (x : Nat) : (u16 x).length = 2 := rfl

/-! ## Answers -/

/-- A request of a block at work that is answered OK, and what it sets. -/
theorem answers_ok {c : Instr} {req : Req} {tag : Byte} {payload body : List Byte} {s u : State} (ready : s.ready)
    (received : exec c s = s.receive req.code tag payload)
    (fits : (rowOfReq req).least ≤ payload.length ∧ payload.length ≤ (rowOfReq req).greatest)
    (on : s.judgeBlock (rowOfReq req).owner payload = none) (taken : takeRequest req payload s = answerOk u body)
    (inbound : u.lnk.inbound = s.lnk.inbound) : Answers c req tag s u .ok body :=
  answers_taken ready received fits.1 fits.2 on taken (inbound.trans ready.2.1) rfl

/-- A request that a block at work refuses changes nothing. -/
theorem answers_refused {c : Instr} {req : Req} {tag : Byte} {payload : List Byte} {s : State} {status : Status} (ready : s.ready)
    (received : exec c s = s.receive req.code tag payload)
    (fits : (rowOfReq req).least ≤ payload.length ∧ payload.length ≤ (rowOfReq req).greatest)
    (on : s.judgeBlock (rowOfReq req).owner payload = none) (taken : takeRequest req payload s = refuse s status) :
    Answers c req tag s s status [] :=
  answers_taken ready received fits.1 fits.2 on taken ready.2.1 (by cases status <;> rfl)

/-! ## User bits -/

/-- FTB labels with the user bits `x`: if its serial is no longer `n`, its latest frame was labelled with them. -/
def Ftb.labelsWith (ftb : Ftb) (x : BitVec 32) (n : Serial) : Prop :=
  ftb.userBits = x ∧ (ftb.serial ≠ n → ∃ e, ftb.history.getLast? = some e ∧ e.serial = ftb.serial ∧ e.label.userBits = x)

section
variable {x : BitVec 32} {n : Serial} {s t : State}

theorem FrameMade.labelsWith (made : FrameMade s t) (h : s.ftb.userBits = x) : t.ftb.labelsWith x n := by
  obtain ⟨e, latest, serial, bits⟩ := made.latest
  exact ⟨made.userBits.trans h, fun _ => ⟨e, latest, serial.trans made.serial.symm, bits.trans h⟩⟩

theorem Ftb.labelsWith.settle (h : s.ftb.labelsWith x n) : s.settle.ftb.labelsWith x n := by
  rw [State.settle_ftb]
  exact h

theorem Ftb.labelsWith.fireIfDue (h : s.ftb.labelsWith x n) : s.fireIfDue.ftb.labelsWith x n := by
  unfold State.fireIfDue
  split
  · exact (FrameMade.timerFires s).labelsWith h.1
  · exact h

theorem Ftb.labelsWith.elapseBy (fuel cycles : Nat) (h : s.ftb.labelsWith x n) :
    (State.elapseBy fuel cycles s).ftb.labelsWith x n := by
  induction fuel generalizing s cycles with
  | zero => exact h
  | succ fuel ih =>
    unfold State.elapseBy
    split
    · exact h
    · exact ih _ ((FrameMade.timerFires _).settle.labelsWith h.1)

theorem Ftb.labelsWith.edge (h : s.ftb.labelsWith x n) : s.edge.ftb.labelsWith x n := by
  have started : ((s.frameStart false).setTimebase .locked).ftb.labelsWith x n :=
    ((FrameMade.frameStart s false).of_ftb (u := (s.frameStart false).setTimebase .locked) rfl rfl).labelsWith h.1
  cases state : s.ftb.state with
  | acquire => rwa [State.edge_acquire state]
  | holdover =>
    rw [State.edge_holdover state]
    split
    · exact h
    · exact started
  | locked =>
    rw [State.edge_locked state, Ftb.measure_eq]
    split
    · exact h
    · exact (FrameMade.frameStart _ false).labelsWith h.1
  | standby => rwa [State.edge_standby state]

end

/-- A step of a command that acts: nothing while a reset lasts, and otherwise its effect. -/
theorem exec_act_next {c : Instr} {s v : State} {f : State → State} (acts : exec c s = s.act f) (h : exec c s = .next v) :
    v = s ∨ v = (f s).settle := by
  rw [acts, State.act] at h
  split at h
  · exact .inl (by injection h with h; exact h.symm)
  · exact .inr (by injection h with h; exact h.symm)

/-- Settles O12: the setting changes the user bits alone, and each start that a step makes afterwards labels with them. -/
theorem userBitsSet : Obligations.UserBitsSet := by
  unfold Obligations.UserBitsSet
  intro tag x s ready
  have taken : Answers (.tcUserbits tag (u32 x.toNat)) .tcUserbits tag s { s with ftb := { s.ftb with userBits := x } } .ok [] :=
    answers_ok (payload := u32 x.toNat) ready rfl ⟨le_rfl, le_rfl⟩ rfl
      (by rw [takeRequest, reqTcUserbits, serialAt_u32]) rfl
  refine ⟨taken, fun t cycles v answered stepped moved => ?_⟩
  obtain ⟨t', answered', follows⟩ := taken
  obtain rfl : t' = t := by exact Host.Outcome.next.inj (answered'.symm.trans answered)
  have bits : t'.ftb.labelsWith x t'.ftb.serial :=
    ⟨congrArg (fun u : State => u.ftb.userBits) follows.1, fun changed => absurd rfl changed⟩
  suffices labels : v.ftb.labelsWith x t'.ftb.serial from labels.2 moved
  rcases stepped with edge | timer
  · rcases exec_act_next (f := fun s => (s.elapse cycles).edge) rfl edge with rfl | rfl
    · exact bits
    · exact (bits.elapseBy _ _).edge.settle
  · rcases exec_act_next (f := State.fireIfDue) rfl timer with rfl | rfl
    · exact bits
    · exact bits.fireIfDue.settle

/-! ## The other settings -/

theorem num_byte (front : List Byte) (x : Byte) (back : List Byte) : num (front ++ x :: back) front.length 1 = x.toNat := by
  simp [num, field, ofBytes]

theorem num_head (x : Byte) (back : List Byte) : num (x :: back) 0 1 = x.toNat := num_byte [] x back

theorem timecodeAt_bytes (h m sec f : Byte) (back : List Byte) :
    timecodeAt (h :: m :: sec :: f :: back) 0 =
      { hours := h.toNat, minutes := m.toNat, seconds := sec.toNat, frames := f.toNat } := by
  simp [timecodeAt, num, field, ofBytes]

/-- A byte above 1 is no flag (R194). -/
theorem flagAt_none {bytes : List Byte} {first : Nat} (h : 1 < num bytes first 1) : flagAt bytes first = none := by
  unfold flagAt
  split
  · omega
  · omega
  · rfl

theorem rangeAt_none {bytes : List Byte} {first count lo hi x : Nat} (h : num bytes first count = x) (out : ¬ (lo ≤ x ∧ x ≤ hi)) :
    rangeAt bytes first count lo hi = none := by
  unfold rangeAt
  simpa [h] using out

theorem tcModeAt_code (mode : TcMode) : tcModeAt (u8 mode.code) 0 = some mode := by cases mode <;> rfl

theorem tcModeAt_none {x : Byte} (h : 1 < x.toNat) : tcModeAt [x] 0 = none := by
  unfold tcModeAt
  rw [num_head]
  split
  · omega
  · omega
  · rfl

theorem triggerActionOf_none {x : Byte} (above : 3 < x.toNat) : triggerActionOf x.toNat = none := by
  unfold triggerActionOf
  split
  · omega
  · omega
  · omega
  · rfl

theorem triggerActionOf_code {x : Byte} {action : TriggerAction} (h : u8 action.code = [x]) :
    triggerActionOf x.toNat = some action := by
  obtain rfl : BitVec.ofNat 8 (action.code / 256 ^ 0) = x := List.head_eq_of_cons_eq h
  cases action <;> rfl

/-- What INTERVAL_CONFIG asks for, of fields that are numbers of their widths (R21). -/
theorem intervalAsked_fields {on burst period : Nat} (onLeast : 1 ≤ on) (onMost : on ≤ 255) (burstMost : burst ≤ 255)
    (periodMost : period ≤ 65535) :
    intervalAsked (u8 on ++ u8 burst ++ u16 period) =
      if on = 1 ∧ 1 ≤ burst ∧ burst ≤ 60 ∧ burst < period then some (some { burst := burst, period := period }) else none := by
  have onAt : num (u8 on ++ u8 burst ++ u16 period) 0 1 = on := by
    simpa [u8] using num_field [] (u8 burst ++ u16 period) 1 on (by omega)
  have burstAt : num (u8 on ++ u8 burst ++ u16 period) 1 1 = burst := by
    simpa [u8] using num_field (u8 on) (u16 period) 1 burst (by omega)
  have periodAt : num (u8 on ++ u8 burst ++ u16 period) 2 2 = period := by
    simpa [u16] using num_field (u8 on ++ u8 burst) [] 2 period (by omega)
  unfold intervalAsked
  by_cases one : on = 1
  · rw [flagAt_of_num (b := true) (onAt.trans one)]
    dsimp only
    by_cases burstGood : 1 ≤ burst ∧ burst ≤ 60
    · rw [rangeAt_of_num burstAt burstGood.1 burstGood.2]
      by_cases periodGood : 2 ≤ period
      · rw [rangeAt_of_num periodAt periodGood periodMost]
        simp [one, burstGood]
      · rw [rangeAt_none periodAt (by omega), if_neg (by omega)]
    · rw [rangeAt_none burstAt burstGood, if_neg (by tauto)]
  · rw [flagAt_none (by omega), if_neg (by tauto)]

section
variable {s : State} {p : List Byte}

theorem reqTcMode_eq {mode : TcMode} (asked : tcModeAt p 0 = some mode) :
    reqTcMode p s =
      if mode = .freeRun ∨ s.ftb.mode = .recRun ∨ (s.bfm.depth = 0 ∧ s.ftb.trigger = none) then
        answerOk { s with ftb := { s.ftb with mode := mode } } (u8 mode.code)
      else refuse s .badState := by
  unfold reqTcMode
  rw [asked]
  cases mode <;> cases s.ftb.mode <;> cases s.ftb.trigger <;> rcases Nat.eq_zero_or_pos s.bfm.depth with depth | depth <;>
    simp [depth, Nat.ne_of_gt]

theorem reqTcTrigger_off (off : num p 4 1 = 0) :
    reqTcTrigger p s = answerOk { s with ftb := { s.ftb with trigger := none } } [] := if_pos off

theorem reqTcTrigger_recRun (on : num p 4 1 ≠ 0) (mode : s.ftb.mode = .recRun) : reqTcTrigger p s = refuse s .badState := by
  rw [reqTcTrigger, if_neg on, mode]
  rfl

theorem reqTcTrigger_unknown (on : num p 4 1 ≠ 0) (mode : s.ftb.mode = .freeRun) (action : triggerActionOf (num p 4 1) = none) :
    reqTcTrigger p s = refuse s .badValue := by
  rw [reqTcTrigger, if_neg on, mode, action]
  rfl

theorem reqTcTrigger_asked {action : TriggerAction} (on : num p 4 1 ≠ 0) (mode : s.ftb.mode = .freeRun)
    (asked : triggerActionOf (num p 4 1) = some action) :
    reqTcTrigger p s =
      if (timecodeAt p 0).inRange s.ftb.rate = true ∧ (timecodeAt p 0).isDropped s.ftb.rate s.ftb.dropFrame = false then
        answerOk { s with ftb := { s.ftb with trigger := some { time := timecodeAt p 0, action := action } } } []
      else refuse s .badValue := by
  rw [reqTcTrigger, if_neg on, mode, asked]
  dsimp only
  cases (timecodeAt p 0).inRange s.ftb.rate <;> cases (timecodeAt p 0).isDropped s.ftb.rate s.ftb.dropFrame <;> simp

theorem reqIntervalConfig_eq {asked : Option Interval} (h : intervalAsked p = some asked) :
    reqIntervalConfig p s =
      if s.rcd.state = .standing then
        answerOk { s with ftb := { s.ftb with interval := asked, counter := 0 } } (optional 3 Interval.bytes asked)
      else refuse s .badState := by
  rw [reqIntervalConfig, h]
  cases s.rcd.state <;> rfl

end

/-- Settles O13: each request is decoded to the fields that it holds, and its judgement written out by its two outcomes. -/
theorem timecodeSettingsTaken : Obligations.TimecodeSettingsTaken := by
  unfold Obligations.TimecodeSettingsTaken
  intro tag s ready
  refine ⟨fun h m sec f => ⟨fun inRange => ?_, fun outOfRange => ?_⟩, fun mode => ⟨fun may => ?_, fun mayNot => ?_⟩, fun x above => ?_,
    fun h m sec f => ⟨?_, fun x on => ?_⟩, fun x y z => ⟨fun standing => ?_, fun busy => ?_⟩, ?_⟩
  · refine answers_ok ready rfl ⟨le_rfl, le_rfl⟩ rfl ?_ rfl
    rw [takeRequest, reqTcPreset, timecodeAt_bytes]
    dsimp only
    rw [inRange]
    rfl
  · refine answers_refused ready rfl ⟨le_rfl, le_rfl⟩ rfl ?_
    rw [takeRequest, reqTcPreset, timecodeAt_bytes]
    dsimp only
    rw [outOfRange]
    rfl
  · refine answers_ok ready rfl ⟨le_rfl, le_rfl⟩ rfl ?_ rfl
    rw [takeRequest, reqTcMode_eq (tcModeAt_code mode), if_pos may]
  · refine answers_refused ready rfl ⟨le_rfl, le_rfl⟩ rfl ?_
    rw [takeRequest, reqTcMode_eq (tcModeAt_code mode), if_neg mayNot]
  · refine answers_refused ready rfl ⟨le_rfl, le_rfl⟩ rfl ?_
    rw [takeRequest, reqTcMode, tcModeAt_none above]
  · exact answers_ok ready rfl ⟨le_rfl, le_rfl⟩ rfl (reqTcTrigger_off (num_byte [h, m, sec, f] 0 [])) rfl
  · have asked : num [h, m, sec, f, x] 4 1 = x.toNat := num_byte [h, m, sec, f] x []
    have nonzero : num [h, m, sec, f, x] 4 1 ≠ 0 := by
      rw [asked]
      exact fun zero => on (BitVec.eq_of_toNat_eq zero)
    have time := timecodeAt_bytes h m sec f [x]
    refine ⟨fun mode => ?_, fun mode => ⟨fun bad => ?_, fun action code good => ?_⟩⟩
    · exact answers_refused ready rfl ⟨le_rfl, le_rfl⟩ rfl (reqTcTrigger_recRun nonzero mode)
    · refine answers_refused ready rfl ⟨le_rfl, le_rfl⟩ rfl ?_
      rw [takeRequest]
      cases action : triggerActionOf (num [h, m, sec, f, x] 4 1) with
      | none => exact reqTcTrigger_unknown nonzero mode action
      | some action' =>
        rw [reqTcTrigger_asked nonzero mode action, if_neg]
        rw [time]
        refine bad.resolve_left fun above => ?_
        rw [asked, triggerActionOf_none above] at action
        cases action
    · refine answers_ok ready rfl ⟨le_rfl, le_rfl⟩ rfl ?_ rfl
      rw [takeRequest, reqTcTrigger_asked nonzero mode (by rw [asked, triggerActionOf_code code]), time, if_pos good]
  · refine answers_ok ready rfl ⟨le_rfl, le_rfl⟩ rfl ?_ rfl
    rw [takeRequest, reqIntervalConfig_eq (asked := none) rfl, if_pos standing]
    rfl
  · refine answers_refused ready rfl ⟨le_rfl, le_rfl⟩ rfl ?_
    rw [takeRequest, reqIntervalConfig_eq (asked := none) rfl, if_neg busy]
  · intro on burst period onLeast onMost burstMost periodMost
    have asked := intervalAsked_fields onLeast onMost burstMost periodMost
    refine ⟨fun bad => ?_, fun good busy => ?_, fun good standing => ?_⟩
    · refine answers_refused ready rfl ⟨le_rfl, le_rfl⟩ rfl ?_
      rw [takeRequest, reqIntervalConfig, asked, if_neg bad]
    · refine answers_refused ready rfl ⟨le_rfl, le_rfl⟩ rfl ?_
      rw [takeRequest, reqIntervalConfig_eq (asked.trans (if_pos good)), if_neg busy]
    · refine answers_ok ready rfl ⟨le_rfl, le_rfl⟩ rfl ?_ rfl
      rw [takeRequest, reqIntervalConfig_eq (asked.trans (if_pos good)), if_pos standing]
      rfl

/-! ## FRAME_CONFIG -/

theorem rateAt_code (r : Rate) (back : List Byte) : rateAt (u8 r.code ++ back) 0 = some r := by
  have : num (u8 r.code ++ back) 0 1 = r.code := by
    cases r <;> simp [u8, beBytes, num_head, Rate.code]
  rw [rateAt, this]
  cases r <;> rfl

theorem flagAt_flagByte (front back : List Byte) (b : Bool) : flagAt (front ++ (flagByte b ++ back)) front.length = some b :=
  flagAt_of_num (num_field front back 1 _ (by cases b <;> decide))

theorem u8_toNat (x : Byte) : u8 x.toNat = [x] := by simp [u8, beBytes]

theorem code_of_rateOfCode {n : Nat} {r : Rate} (h : rateOfCode n = some r) : n = r.code := by
  unfold rateOfCode at h
  split at h <;> cases h <;> rfl

/-- A rate field and a flag that are known were written as the codes of the rate and of the flag. -/
theorem frameConfig_codes {a b : Byte} {r : Rate} {drop : Bool} (rate : rateAt [a, b] 0 = some r) (flag : flagAt [a, b] 1 = some drop) :
    u8 r.code ++ flagByte drop = [a, b] := by
  have rateCode : a.toNat = r.code := by
    rw [rateAt, num_head] at rate
    exact code_of_rateOfCode rate
  have flagCode : b.toNat = if drop then 1 else 0 := by
    have at1 : num [a, b] 1 1 = b.toNat := num_byte [a] b []
    unfold flagAt at flag
    split at flag <;> cases flag <;> rw [← at1] <;> assumption
  rw [flagByte, ← rateCode, ← flagCode, u8_toNat, u8_toNat]
  rfl

/-- What FRAME_CONFIG sets, before a substituted start that is due is made (R23). -/
def State.reframed (s : State) (r : Rate) (drop : Bool) : State :=
  { s with ftb := s.ftb.reconfigure r drop, bfm := s.bfm.clearAll, aud := s.aud.restart }

theorem reqFrameConfig_eq {p : List Byte} {s : State} {r : Rate} {drop : Bool} (rate : rateAt p 0 = some r)
    (flag : flagAt p 1 = some drop) :
    reqFrameConfig p s =
      if drop = true ∧ r.dropAllowed = false then refuse s .badValue
      else if s.rcd.state ≠ .standing then refuse s .badState
      else answerOk (s.reframed r drop).fireIfDue
        (u8 r.code ++ flagByte drop ++ (s.ftb.generator.fit r drop).bytes ++
          optional 4 Timecode.bytes (s.ftb.preset.map (Timecode.fit r drop)) ++
          flagByte (s.ftb.trigger.any (fun t => !t.keeps r drop))) := by
  have disarmed : (s.ftb.trigger.isSome && (s.ftb.reconfigure r drop).trigger.isNone) =
      s.ftb.trigger.any (fun t => !t.keeps r drop) := by
    cases trigger : s.ftb.trigger with
    | none => rfl
    | some t => cases keeps : t.keeps r drop <;> simp [Ftb.reconfigure, trigger, keeps, Option.filter]
  unfold reqFrameConfig
  rw [rate, flag]
  dsimp only
  rw [disarmed]
  cases drop <;> cases r.dropAllowed <;> cases s.rcd.state <;> rfl

theorem State.report_inbound (s : State) (src : Source) (detail : List Byte) : (s.report src detail).lnk.inbound = s.lnk.inbound :=
  (Lnk.occur_keeps ..).1

theorem State.timed_inbound (s : State) : s.timed.lnk.inbound = s.lnk.inbound := by
  unfold State.timed
  cases s.ftb.state with
  | acquire => exact State.report_inbound ..
  | locked => exact State.report_inbound ..
  | holdover => rfl
  | standby => rfl

theorem Pair.restart_off {p : Pair} (state : p.state = .off) : p.restart = p := by rw [Pair.restart, state]

theorem Pair.restart_routed {p : Pair} (state : p.state ≠ .off) : p.restart = p.warm := by
  unfold Pair.restart
  cases routed : p.state with
  | off => exact absurd routed state
  | warming => rfl
  | active => rfl

theorem Aud.get_restart (aud : Aud) (side : Side) : aud.restart.pairs.get side = (aud.pairs.get side).restart := by
  cases side <;> rfl

/-- Settles O11: the request is judged by its two fields, and the timer that it may bring due is `State.timed`. -/
theorem frameConfigTaken : Obligations.FrameConfigTaken := by
  unfold Obligations.FrameConfigTaken
  refine ⟨fun tag r drop s ready allowed standing => ?_, fun aud side => ⟨fun state => ?_, fun state => ?_⟩,
    fun tag a b s ready => ⟨fun bad => ?_, fun r drop codes allowed busy => ?_⟩⟩
  · have drops : ¬ (drop = true ∧ r.dropAllowed = false) := fun ⟨on, forbidden⟩ => by
      rw [allowed on] at forbidden
      cases forbidden
    have judged := reqFrameConfig_eq (s := s) (rateAt_code r (flagByte drop)) (flagAt_flagByte (u8 r.code) [] drop)
    rw [if_neg drops, if_neg (not_not_intro standing)] at judged
    refine ⟨fun early => ?_, fun due unmatched => ?_⟩
    · rw [State.fireIfDue_early (s := s.reframed r drop) early] at judged
      exact answers_ok ready rfl ⟨le_rfl, le_rfl⟩ rfl judged rfl
    · rw [State.fireIfDue_due (s := s.reframed r drop) due, State.timerFires_unmatched _ unmatched] at judged
      exact answers_ok ready rfl ⟨le_rfl, le_rfl⟩ rfl judged (State.timed_inbound _)
  · rw [Aud.get_restart, Pair.restart_off state]
  · rw [Aud.get_restart, Pair.restart_routed state]
    rfl
  · refine answers_refused ready rfl ⟨le_rfl, le_rfl⟩ rfl ?_
    cases rate : rateAt [a, b] 0 with
    | none => rw [takeRequest, reqFrameConfig, rate]
    | some r =>
      cases flag : flagAt [a, b] 1 with
      | none => rw [takeRequest, reqFrameConfig, rate, flag]
      | some drop => rw [takeRequest, reqFrameConfig_eq rate flag, if_pos (bad r drop (frameConfig_codes rate flag))]
  · refine answers_refused ready rfl ⟨le_rfl, le_rfl⟩ rfl ?_
    have drops : ¬ (drop = true ∧ r.dropAllowed = false) := fun ⟨on, forbidden⟩ => by
      rw [allowed on] at forbidden
      cases forbidden
    rw [takeRequest, ← codes, reqFrameConfig_eq (rateAt_code r _) (by simpa using flagAt_flagByte (u8 r.code) [] drop), if_neg drops,
      if_pos busy]

/-! # The queries and CATALOGUE_READ (R24, R44, R67, R84, R109, R132, R153, R154, R184) -/

/-! ## Their fields and blocks -/

theorem clearFlag_flagByte (clear : Bool) : clearFlag (flagByte clear) = some clear := flagAt_flagByte [] [] clear

theorem clearFlag_none {x : Byte} (above : 1 < x.toNat) : clearFlag [x] = none := flagAt_none (by rwa [num_head])

theorem sideAt_code (side : Side) (back : List Byte) : sideAt (u8 side.code ++ back) 0 = some side := by
  have : num (u8 side.code ++ back) 0 1 = side.code := by cases side <;> simp [u8, beBytes, num_head, Side.code]
  rw [sideAt, this]
  cases side <;> rfl

theorem offUnless_on {enabled : Bool} (on : enabled = true) : offUnless enabled = none := by rw [on]; rfl

theorem State.judgeBlock_card {s : State} {side : Side} (on : s.pwc.enables.slots.get side = true) (back : List Byte) :
    s.judgeBlock .card (u8 side.code ++ back) = none := by
  unfold State.judgeBlock
  rw [sideAt_code]
  exact offUnless_on on

/-! ## The queries -/

section
variable {c : Instr} {req : Req} {tag : Byte} {s : State}

/-- A query answers with what it reads, and clears its counts when it is asked to. -/
theorem answers_query {clear : Bool} {payload body : List Byte} {cleared : State} (ready : s.ready)
    (received : exec c s = s.receive req.code tag payload)
    (fits : (rowOfReq req).least ≤ payload.length ∧ payload.length ≤ (rowOfReq req).greatest)
    (on : s.judgeBlock (rowOfReq req).owner payload = none)
    (taken : takeRequest req payload s = answerOk (if clear then cleared else s) body)
    (inbound : cleared.lnk.inbound = s.lnk.inbound) : Answers c req tag s (if clear then cleared else s) .ok body :=
  answers_ok ready received fits on taken (by cases clear <;> simp [inbound])

end

section
variable (clear : Bool) (s : State)

theorem takeRequest_timeQuery : takeRequest .timeQuery (flagByte clear) s =
    answerOk (if clear then { s with ftb := { s.ftb with runts := 0, substituted := 0 } } else s) s.ftb.queryReply := by
  rw [takeRequest, reqTimeQuery, clearFlag_flagByte]

theorem takeRequest_lensQuery : takeRequest .lensQuery (flagByte clear) s =
    answerOk (if clear then { s with lnc := { s.lnc with totalMisses := 0 } } else s) s.lensReply := by
  rw [takeRequest, reqLensQuery, clearFlag_flagByte]
  rfl

theorem takeRequest_stabQuery : takeRequest .stabQuery (flagByte clear) s =
    answerOk (if clear then
        { s with stb := { s.stb with badSamples := 0, rejectedSets := 0, droppedSets := 0, droppedResults := 0 } }
      else s) s.stb.queryReply := by
  rw [takeRequest, reqStabQuery, clearFlag_flagByte]
  rfl

theorem takeRequest_audioQuery : takeRequest .audioQuery (flagByte clear) s =
    answerOk (if clear then
        { s with aud := { pairs := { a := s.aud.pairs.a.clearCounts, b := s.aud.pairs.b.clearCounts } } }
      else s)
      (s.aud.pairs.a.reply ++ s.aud.pairs.b.reply ++ s.aud.pairs.a.first.reply ++ s.aud.pairs.a.second.reply ++
        s.aud.pairs.b.first.reply ++ s.aud.pairs.b.second.reply) := by
  rw [takeRequest, reqAudioQuery, clearFlag_flagByte]

theorem takeRequest_bufferQuery : takeRequest .bufferQuery (flagByte clear) s =
    answerOk (if clear then { s with bfm := { s.bfm with counts := .zero } } else s) s.bfm.queryReply := by
  rw [takeRequest, reqBufferQuery, clearFlag_flagByte]
  rfl

theorem takeRequest_recQuery : takeRequest .recQuery (flagByte clear) s =
    answerOk (if clear then { s with rcd := { s.rcd with endings := .zero } } else s) s.rcd.queryReply := by
  rw [takeRequest, reqRecQuery, clearFlag_flagByte]

theorem takeRequest_noticeQuery : takeRequest .noticeQuery (flagByte clear) s =
    answerOk (if clear then { s with lnk := { s.lnk with counts := .zero } } else s) s.lnk.queryReply := by
  rw [takeRequest, reqNoticeQuery, clearFlag_flagByte]
  rfl

theorem takeRequest_cardQuery (side : Side) : takeRequest .cardQuery (u8 side.code ++ flagByte clear) s =
    answerOk (if clear then
        s.setSlot side { s.slot side with completed := 0, errors := 0, timeouts := 0, recovered := 0 }
      else s) ((s.slot side).queryReply s.ftb.rate.nominal) := by
  have flag : flagAt (u8 side.code ++ flagByte clear) 1 = some clear := flagAt_flagByte (u8 side.code) [] clear
  rw [takeRequest, reqCardQuery, sideAt_code, flag]

end

/-! ## CATALOGUE_READ -/

/-- The judgement of CATALOGUE_READ's slot, once its fields are good (R153). -/
def State.judgeCatalogue (s : State) (side : Side) (first count : Nat) : State × Answer :=
  match (s.slot side).state with
  | .ready | .full | .writeProtected | .recovering | .fault =>
    match (s.slot side).summary with
    | some sum => answerOk s ((s.slot side).catalogueReply sum first count)
    | none => refuse s .badState
  | .mounting | .formatting => refuse s .busy
  | .absent | .ejected => refuse s .noCard
  | .unformatted => refuse s .badState
  | .off => refuse s .blockOff

theorem takeRequest_catalogueRead (s : State) (side : Side) {first count : Nat} (firstMost : first ≤ 65535) (countMost : count ≤ 255) :
    takeRequest .catalogueRead (u8 side.code ++ u16 first ++ u8 count) s =
      if 1 ≤ first ∧ 1 ≤ count ∧ count ≤ 8 ∧ first + count ≤ 1000 then s.judgeCatalogue side first count
      else refuse s .badValue := by
  have sideIs : sideAt (u8 side.code ++ u16 first ++ u8 count) 0 = some side := by rw [List.append_assoc, sideAt_code]
  have firstIs : num (u8 side.code ++ u16 first ++ u8 count) 1 2 = first := by
    simpa [u16] using num_field (u8 side.code) (u8 count) 2 first (by omega)
  have countIs : num (u8 side.code ++ u16 first ++ u8 count) 3 1 = count := by
    simpa [u8] using num_field (u8 side.code ++ u16 first) [] 1 count (by omega)
  rw [takeRequest, reqCatalogueRead, sideIs]
  by_cases firstGood : 1 ≤ first ∧ first ≤ 999
  · rw [rangeAt_of_num firstIs firstGood.1 firstGood.2]
    by_cases countGood : 1 ≤ count ∧ count ≤ 8
    · rw [rangeAt_of_num countIs countGood.1 countGood.2]
      dsimp only
      by_cases endGood : first + count ≤ 1000
      · rw [if_neg (by omega), if_pos (by omega)]
        unfold State.judgeCatalogue
        cases (s.slot side).state <;> rfl
      · rw [if_pos (by omega), if_neg (by omega)]
    · rw [rangeAt_none countIs countGood, if_neg (by omega)]
  · rw [rangeAt_none firstIs firstGood, if_neg (by omega)]

/-- Settles O58: each query's payload holds its clear flag, and CATALOGUE_READ is judged by its fields and then by the slot. -/
theorem queriesAnswer : Obligations.QueriesAnswer := by
  unfold Obligations.QueriesAnswer
  refine ⟨fun tag clear s ready => ⟨?_, fun on => ?_, fun on => ?_, fun on => ?_, ?_, ?_, ?_, fun side on => ⟨?_, ?_⟩⟩,
    fun tag s ready => ⟨fun x above => ⟨?_, fun on => ?_, fun on => ?_, fun on => ?_, ?_, ?_, ?_, fun side on => ?_⟩, ?_⟩⟩
  · exact answers_query ready rfl ⟨le_rfl, le_rfl⟩ rfl (takeRequest_timeQuery clear s) rfl
  · exact answers_query ready rfl ⟨le_rfl, le_rfl⟩ (offUnless_on on) (takeRequest_lensQuery clear s) rfl
  · exact answers_query ready rfl ⟨le_rfl, le_rfl⟩ (offUnless_on on) (takeRequest_stabQuery clear s) rfl
  · exact answers_query ready rfl ⟨le_rfl, le_rfl⟩ (offUnless_on on) (takeRequest_audioQuery clear s) rfl
  · exact answers_query ready rfl ⟨le_rfl, le_rfl⟩ rfl (takeRequest_bufferQuery clear s) rfl
  · exact answers_query ready rfl ⟨le_rfl, le_rfl⟩ rfl (takeRequest_recQuery clear s) rfl
  · exact answers_query ready rfl ⟨le_rfl, le_rfl⟩ rfl (takeRequest_noticeQuery clear s) rfl
  · exact answers_query ready rfl ⟨le_rfl, le_rfl⟩ (State.judgeBlock_card on _) (takeRequest_cardQuery clear s side) rfl
  · intro sum first count held firstLeast countLeast countMost last state
    refine answers_ok ready rfl ⟨le_rfl, le_rfl⟩ ?_ ?_ rfl
    · rw [List.append_assoc]
      exact State.judgeBlock_card on _
    · rw [takeRequest_catalogueRead s side (by omega) (by omega), if_pos ⟨firstLeast, countLeast, countMost, last⟩, State.judgeCatalogue]
      rcases state with state | state | state | state | state <;> rw [state, held]
  · exact answers_refused ready rfl ⟨le_rfl, le_rfl⟩ rfl (by rw [takeRequest, reqTimeQuery, clearFlag_none above])
  · exact answers_refused ready rfl ⟨le_rfl, le_rfl⟩ (offUnless_on on) (by rw [takeRequest, reqLensQuery, clearFlag_none above])
  · exact answers_refused ready rfl ⟨le_rfl, le_rfl⟩ (offUnless_on on) (by rw [takeRequest, reqStabQuery, clearFlag_none above])
  · exact answers_refused ready rfl ⟨le_rfl, le_rfl⟩ (offUnless_on on) (by rw [takeRequest, reqAudioQuery, clearFlag_none above])
  · exact answers_refused ready rfl ⟨le_rfl, le_rfl⟩ rfl (by rw [takeRequest, reqBufferQuery, clearFlag_none above])
  · exact answers_refused ready rfl ⟨le_rfl, le_rfl⟩ rfl (by rw [takeRequest, reqRecQuery, clearFlag_none above])
  · exact answers_refused ready rfl ⟨le_rfl, le_rfl⟩ rfl (by rw [takeRequest, reqNoticeQuery, clearFlag_none above])
  · refine answers_refused ready rfl ⟨le_rfl, le_rfl⟩ (State.judgeBlock_card on _) ?_
    have flag : num (u8 side.code ++ [x]) 1 1 = x.toNat := num_byte (u8 side.code) x []
    have bad : flagAt (u8 side.code ++ [x]) 1 = none := flagAt_none (by rwa [flag])
    rw [takeRequest, reqCardQuery, sideAt_code, bad]
  · intro side first count on firstMost countMost
    have refused {status : Status}
        (taken : takeRequest .catalogueRead (u8 side.code ++ u16 first ++ u8 count) s = refuse s status) :
        Answers (.catalogueRead tag (u8 side.code ++ u16 first ++ u8 count)) .catalogueRead tag s s status [] :=
      answers_refused ready rfl ⟨le_rfl, le_rfl⟩ (by rw [List.append_assoc]; exact State.judgeBlock_card on _) taken
    rw [takeRequest_catalogueRead s side firstMost countMost] at refused
    refine ⟨fun bad => refused (if_neg bad), fun good => ?_⟩
    rw [if_pos good, State.judgeCatalogue] at refused
    refine ⟨fun state => refused ?_, fun state => refused ?_, fun state => refused ?_, fun state unread => refused ?_⟩
    · rcases state with state | state <;> rw [state]
    · rcases state with state | state <;> rw [state]
    · rw [state]
    · rcases state with state | state | state | state | state <;> rw [state, unread]

/-! # The run state (R186, R188, R192) -/

/-! ## The end of the moves -/

/-- An occurrence leaves the inbound queue. -/
theorem State.notify_inbound (s : State) (src : Source) (detail : List (Option Byte)) :
    (s.notify src detail).lnk.inbound = s.lnk.inbound := (Lnk.occur_keeps ..).1

/-- The end of a move is LNC's and LNK's alone. -/
theorem State.endMove_eq (s : State) (axis : Axis) (status : MoveStatus) :
    ∃ lnc lnk, s.endMove axis status = { s with lnc := lnc, lnk := lnk } ∧ lnk.inbound = s.lnk.inbound := by
  unfold State.endMove
  split
  · exact ⟨_, _, rfl, rfl⟩
  · exact ⟨_, _, rfl, State.notify_inbound ..⟩

theorem State.endMoves_eq (s : State) (status : MoveStatus) :
    ∃ lnc lnk, s.endMoves status = { s with lnc := lnc, lnk := lnk } ∧ lnk.inbound = s.lnk.inbound := by
  unfold State.endMoves
  obtain ⟨_, _, zoom, zoomInbound⟩ := s.endMove_eq .zoom status
  obtain ⟨_, _, focus, focusInbound⟩ := (s.endMove .zoom status).endMove_eq .focus status
  obtain ⟨lnc, lnk, iris, irisInbound⟩ := ((s.endMove .zoom status).endMove .focus status).endMove_eq .iris status
  refine ⟨lnc, lnk, ?_, irisInbound.trans ?_⟩
  · rw [iris, focus, zoom]
  · rw [focus, focusInbound, zoom, zoomInbound]

/-- The part as it is in another run state, with its timebase in another state. -/
def State.inRunState (s : State) (pwc : Pwc) (timebase : TimebaseState) : State :=
  { s with pwc := pwc, ftb := { s.ftb with state := timebase } }

/-- The moves end alike in every run state and timebase state. -/
theorem State.endMove_inRunState (s : State) (pwc : Pwc) (timebase : TimebaseState) (axis : Axis) (status : MoveStatus) :
    (s.inRunState pwc timebase).endMove axis status = (s.endMove axis status).inRunState pwc timebase := by
  have moveOf : (s.inRunState pwc timebase).lnc.moveOf axis = s.lnc.moveOf axis := rfl
  unfold State.endMove
  rw [moveOf]
  cases s.lnc.moveOf axis <;> rfl

theorem State.endMoves_inRunState (s : State) (pwc : Pwc) (timebase : TimebaseState) (status : MoveStatus) :
    (s.inRunState pwc timebase).endMoves status = (s.endMoves status).inRunState pwc timebase := by
  simp only [State.endMoves, State.endMove_inRunState]

/-! ## STANDBY and RUN -/

theorem CardSlot.isQuiet_iff (c : CardSlot) :
    c.isQuiet = true ↔ c.queue = [] ∧ c.inFlight = none ∧ c.state ≠ .mounting ∧ c.state ≠ .recovering ∧ c.state ≠ .formatting := by
  simp [CardSlot.isQuiet, and_assoc]

theorem State.mayStandBy_iff (s : State) :
    s.mayStandBy = true ↔ s.rcd.state = .standing ∧ s.slots.a.isQuiet = true ∧ s.slots.b.isQuiet = true := by
  simp [State.mayStandBy, and_assoc]

theorem Stb.wake_eq (b : Stb) :
    b.wake = if b.state = .off ∨ b.state = .returning then b else { b with state := .settling, settle := 8 } := by
  unfold Stb.wake
  cases b.state <;> rfl

theorem State.enterStandby_inbound (s : State) : s.enterStandby.lnk.inbound = s.lnk.inbound := by
  obtain ⟨_, _, halted, inbound⟩ := (s.inRunState { s.pwc with inRun := false, lastRunChange := .request } .standby).endMoves_eq .halted
  have unfolded : s.enterStandby.lnk.inbound = ((s.inRunState { s.pwc with inRun := false, lastRunChange := .request } .standby).endMoves
      .halted).lnk.inbound := State.notify_inbound ..
  rw [unfolded, halted]
  exact inbound

theorem State.returnToRun_inbound (s : State) (cause : RunCause) : (s.returnToRun cause).lnk.inbound = s.lnk.inbound :=
  State.notify_inbound ..

/-- Settles O59: the moves end alike in STANDBY, and each block's part of the entry and of the return is written out. -/
theorem runStateChanges : Obligations.RunStateChanges := by
  unfold Obligations.RunStateChanges
  intro tag s status isQuiet may late halted idle lnc still stood wakes returned
  have entered : s.enterStandby = stood := by
    obtain ⟨l, k, ended, _⟩ := s.endMoves_eq .halted
    have moved : (s.inRunState stood.pwc .standby).endMoves .halted = halted.inRunState stood.pwc .standby :=
      s.endMoves_inRunState _ _ _
    have unfolded : s.enterStandby = ({ (s.inRunState stood.pwc .standby).haltLens with
        stb := (s.inRunState stood.pwc .standby).haltLens.stb.halt
        bfm := (s.inRunState stood.pwc .standby).haltLens.bfm.clearAll
        vog := { (s.inRunState stood.pwc .standby).haltLens.vog with waiting := none }
        due := (s.inRunState stood.pwc .standby).haltLens.due.inStandby } : State).reportPower := rfl
    rw [unfolded, State.haltLens, moved]
    dsimp only [stood, lnc, halted]
    rw [ended]
    rfl
  have woken (cause : RunCause) : s.returnToRun cause = returned cause := by
    have unfolded : s.returnToRun cause = ({ s with
      pwc := { s.pwc with inRun := true, lastRunChange := cause }
      ftb := { s.ftb with state := .acquire }
      stb := s.stb.wake
      aud := s.aud.restart
      slots := { a := wakes s.slots.a, b := wakes s.slots.b } } : State).reportPower := rfl
    rw [unfolded, Stb.wake_eq]
    rfl
  have mayIff : s.mayStandBy = true ↔ may := by
    rw [State.mayStandBy_iff, CardSlot.isQuiet_iff, CardSlot.isQuiet_iff]
  refine ⟨fun ready run => ⟨fun allowed => ?_, fun forbidden => ?_, ?_⟩, fun ready standby => ⟨?_, ?_⟩, fun works standby => ?_⟩
  · refine answers_ok (payload := []) ready rfl ⟨le_rfl, le_rfl⟩ rfl ?_ (entered ▸ s.enterStandby_inbound)
    rw [takeRequest, reqPowerStandby, run, mayIff.mpr allowed, ← entered]
    rfl
  · refine answers_refused (payload := []) ready rfl ⟨le_rfl, le_rfl⟩ rfl ?_
    rw [takeRequest, reqPowerStandby, run, Bool.eq_false_iff.mpr (mt mayIff.mp forbidden)]
    rfl
  · refine answers_ok (payload := []) ready rfl ⟨le_rfl, le_rfl⟩ rfl ?_ rfl
    rw [takeRequest, reqPowerRun, run]
    rfl
  · refine answers_ok (payload := []) ready rfl ⟨le_rfl, le_rfl⟩ rfl ?_ rfl
    rw [takeRequest, reqPowerStandby, standby]
    rfl
  · refine answers_ok (payload := []) ready rfl ⟨le_rfl, le_rfl⟩ rfl ?_ (woken .request ▸ s.returnToRun_inbound _)
    rw [takeRequest, reqPowerRun, standby, ← woken]
    rfl
  · refine becomes_act works (f := State.press) rfl ?_
    rw [State.press, standby, ← woken]
    rfl

end Sys2Proof.Machine

namespace Sys2Proof.Machine

/-! # The trigger (R20)

The trigger's action comes before the generator's advance and the timebase's state; it neither reads nor changes what they change,
but for the catch-up advance (R15), and that is the same advance. So the action can be taken last. -/

section
variable (s : State) (turn : Turn)

theorem State.turn_slot (side : Side) : (s.turn turn).slot side = s.slot side := rfl
theorem State.turn_rcd : (s.turn turn).rcd = s.rcd := rfl
theorem State.turn_bfm : (s.turn turn).bfm = s.bfm := rfl
theorem State.turn_pwc : (s.turn turn).pwc = s.pwc := rfl
theorem State.turn_interval : (s.turn turn).ftb.interval = s.ftb.interval := rfl

/-! ## The cards -/

theorem State.turn_modifySlot (side : Side) (f : CardSlot → CardSlot) :
    (s.turn turn).modifySlot side f = (s.modifySlot side f).turn turn := rfl

theorem State.turn_reportRec (reason : RecReason) (status slot : Nat) :
    (s.turn turn).reportRec reason status slot = (s.reportRec reason status slot).turn turn := rfl

theorem State.turn_reportFull (side : Side) : (s.turn turn).reportFull side = (s.reportFull side).turn turn := by
  unfold State.reportFull
  rw [State.turn_slot]
  cases (s.slot side).summary <;> rfl

theorem State.turn_judgeFull (side : Side) : (s.turn turn).judgeFull side = (s.judgeFull side).turn turn := by
  unfold State.judgeFull
  rw [State.turn_slot]
  cases (s.slot side).summary with
  | none => rfl
  | some sum =>
    dsimp only
    split
    · rw [← State.turn_reportFull]
      rfl
    · rfl

theorem State.turn_judgeNearFull (side : Side) : (s.turn turn).judgeNearFull side = (s.judgeNearFull side).turn turn := by
  unfold State.judgeNearFull
  dsimp only
  rw [State.turn_slot]
  cases (s.slot side).summary with
  | none => rfl
  | some sum =>
    dsimp only
    split
    · rfl
    · split <;> rfl

theorem State.turn_openExtent (side : Side) : (s.turn turn).openExtent side = (s.openExtent side).turn turn := by
  unfold State.openExtent
  dsimp only
  rw [State.turn_slot]
  cases (s.slot side).summary with
  | none => rfl
  | some sum =>
    cases (s.slot side).copy with
    | none => rfl
    | some copy =>
      dsimp only
      rw [← State.turn_judgeNearFull, ← State.turn_judgeFull]
      rfl

theorem State.turn_writerWork (side : Side) :
    (s.turn turn).writerWork side = (s.writerWork side).map (fun u => u.turn turn) := by
  unfold State.writerWork
  dsimp only
  rw [State.turn_slot]
  cases (s.slot side).copy with
  | none => rfl
  | some copy =>
    dsimp only
    split
    · rfl
    · split
      · split
        · exact congrArg some (State.turn_openExtent (s.setSlot side (s.slot side).closeExtent) turn side)
        · rfl
      · exact congrArg some (State.turn_openExtent s turn side)
      · split
        · split <;> rfl
        · split <;> rfl
        · rfl

theorem State.turn_writerLoop (fuel : Nat) (side : Side) :
    State.writerLoop fuel side (s.turn turn) = (State.writerLoop fuel side s).turn turn := by
  induction fuel generalizing s with
  | zero => rfl
  | succ fuel ih =>
    unfold State.writerLoop
    rw [State.turn_writerWork, State.turn_slot]
    cases s.writerWork side with
    | some u => exact ih u
    | none =>
      cases (s.slot side).fillPlace with
      | some c => exact ih (s.setSlot side c)
      | none => rfl

theorem State.turn_runWriter (side : Side) : (s.turn turn).runWriter side = (s.runWriter side).turn turn := by
  unfold State.runWriter
  rw [State.turn_writerLoop, State.turn_modifySlot]

theorem State.turn_nameLast (side : Side) (last : LastUnit) : (s.turn turn).nameLast side last = (s.nameLast side last).turn turn := by
  unfold State.nameLast
  rw [State.turn_modifySlot, State.turn_runWriter]

theorem State.turn_openCopy (side : Side) (flags : CopyFlags) (continues : Option CopyRef) :
    (s.turn turn).openCopy side flags continues =
      ((s.openCopy side flags continues).1.turn turn, (s.openCopy side flags continues).2) := by
  unfold State.openCopy
  dsimp only
  rw [State.turn_slot]
  cases (s.slot side).summary with
  | none => rfl
  | some sum =>
    dsimp only
    rw [← State.turn_runWriter, ← State.turn_judgeFull]
    rfl

/-! ## The Recorder -/

theorem State.turn_openFor (side : Side) (flags : CopyFlags) (continues : Option CopyRef) :
    (s.turn turn).openFor side flags continues = (s.openFor side flags continues).turn turn := by
  unfold State.openFor
  rw [State.turn_openCopy]
  rfl

theorem State.turn_openCopies : (s.turn turn).openCopies = s.openCopies.turn turn := by
  unfold State.openCopies
  rw [State.turn_rcd]
  cases s.rcd.mode <;> simp only [State.turn_openFor]

theorem State.turn_chooseHead (floor : Serial) : (s.turn turn).chooseHead floor = (s.chooseHead floor).turn turn := by
  unfold State.chooseHead
  rw [State.turn_rcd, State.turn_bfm]
  cases s.rcd.clip with
  | none => rfl
  | some clip =>
    dsimp only
    split <;> rfl

/-- The catch-up advance and the generator's own are one function, so their order does not matter (R15). -/
theorem Ftb.turn_clipStarted (ftb : Ftb) : (ftb.turn turn).clipStarted = ftb.clipStarted.turn turn := by
  cases interval : ftb.interval <;> cases mode : ftb.mode <;> cases moves : turn.moves <;>
    simp [Ftb.clipStarted, Ftb.turn, Ftb.advance, interval, mode, moves]

theorem State.turn_takeStart (n : Serial) : (s.turn turn).takeStart n = (s.takeStart n).turn turn := by
  have opened : ((s.turn turn).beginClip .normal .recording (some n)).openCopies =
      (s.beginClip .normal .recording (some n)).openCopies.turn turn := State.turn_openCopies (s.beginClip ..) turn
  have begins (u : State) : (({ u.turn turn with ftb := (u.turn turn).ftb.clipStarted } : State).reportRec .started 0 0) =
      (({ u with ftb := u.ftb.clipStarted } : State).reportRec .started 0 0).turn turn := by
    rw [← State.turn_reportRec]
    exact congrArg (fun ftb => ({ u with ftb := ftb } : State).reportRec .started 0 0) (u.ftb.turn_clipStarted turn)
  unfold State.takeStart
  dsimp only
  rw [opened, State.turn_interval, State.turn_bfm]
  split
  · rw [State.turn_chooseHead, begins]
  · exact begins _

theorem State.turn_start (source : StartSource) (n : Serial) :
    (s.turn turn).start source n = ((s.start source n).1.turn turn, (s.start source n).2) := by
  have judged : (s.turn turn).judgeStart = s.judgeStart := rfl
  unfold State.start
  rw [State.turn_pwc, State.turn_rcd, judged, State.turn_takeStart]
  dsimp only
  split
  · rfl
  · split
    · rfl
    · rfl
    · rfl
    · split <;> rfl

theorem State.turn_startReported (source : StartSource) (n : Serial) :
    (s.turn turn).startReported source n = (s.startReported source n).turn turn := by
  rw [State.startReported_eq, State.startReported_eq, State.turn_start]
  dsimp only
  split <;> rfl

theorem State.turn_endClip (reason : EndReason) : (s.turn turn).endClip reason = (s.endClip reason).turn turn := by
  have latched (u : State) :
      (if (u.turn turn).rcd.latch then
        ({ u.turn turn with rcd := { (u.turn turn).rcd with latch := false } } : State).startReported .latch (u.turn turn).rcd.noted
      else u.turn turn) =
      (if u.rcd.latch then ({ u with rcd := { u.rcd with latch := false } } : State).startReported .latch u.rcd.noted
      else u).turn turn := by
    rw [State.turn_rcd]
    split
    · exact State.turn_startReported { u with rcd := { u.rcd with latch := false } } turn .latch u.rcd.noted
    · rfl
  unfold State.endClip
  extract_lets _ _ _ _ _ _ _ _ _ _ _ _ _ ended
  exact latched ended

theorem State.turn_tellLast (side : Side) : (s.turn turn).tellLast side = (s.tellLast side).turn turn := by
  unfold State.tellLast
  rw [State.turn_rcd]
  cases s.rcd.clip with
  | none => rfl
  | some clip =>
    dsimp only
    split
    · exact State.turn_nameLast (s.modifyClip (fun clip => clip.modifyCopy side (fun copy => { copy with state := .closing }))) turn side _
    · rfl

theorem State.turn_watchClip : (s.turn turn).watchClip = s.watchClip.turn turn := by
  have ends (u : State) (clip : Clip) (reason : EndReason) :
      (if (u.turn turn).clipDone clip then (u.turn turn).endClip reason else u.turn turn) =
      (if u.clipDone clip then u.endClip reason else u).turn turn := by
    rw [State.turn_endClip]
    exact (apply_ite (fun w : State => w.turn turn) (u.clipDone clip = true) _ _).symm
  have remains (clip : Clip) : (s.turn turn).entryRemains clip = s.entryRemains clip := rfl
  unfold State.watchClip
  rw [State.turn_rcd]
  cases s.rcd.clip with
  | none => rfl
  | some clip =>
    cases s.rcd.state with
    | closing =>
      dsimp only
      rw [remains, State.turn_tellLast, State.turn_tellLast, State.turn_rcd]
      split
      · rfl
      · cases ((s.tellLast .a).tellLast .b).rcd.clip with
        | none => rfl
        | some clip => exact ends _ clip _
    | retaining => exact ends s clip _
    | standing => rfl
    | recording => rfl

theorem State.turn_stop (n : Serial) : (s.turn turn).stop n = (s.stop n).turn turn := by
  unfold State.stop
  rw [State.turn_rcd]
  cases s.rcd.state with
  | recording =>
    dsimp only
    rw [← State.turn_watchClip]
    rfl
  | standing => rfl
  | closing => rfl
  | retaining => rfl

theorem State.turn_deliver (action : TriggerAction) (n : Serial) :
    (s.turn turn).deliver action n = ((s.deliver action n).1.turn turn, (s.deliver action n).2) := by
  cases action with
  | start => exact State.turn_start s turn .trigger n
  | stop => exact Prod.ext (State.turn_stop s turn n) rfl
  | noticeOnly => rfl

end
/-! ## The trigger that matches -/

/-- The trigger is disarmed (R20). -/
def State.disarmed (s : State) : State := { s with ftb := { s.ftb with trigger := none } }

/-- A trigger's action is delivered at the frame start of serial `n`, and TC_TRIGGER tells of it (R20). -/
def State.told (s : State) (t : Trigger) (n : Serial) : State :=
  (s.deliver t.action n).1.report .tcTrigger
    (serialBytes n ++ t.time.bytes ++ u8 t.action.code ++ u8 (s.deliver t.action n).2.code)

section
variable (s : State) (t : Trigger) (n : Serial)

theorem State.tryTrigger_matched {e : HistoryEntry} (armed : s.ftb.trigger = some t) (label : t.time = e.label.time) :
    s.tryTrigger e = s.disarmed.told t e.serial := by
  unfold State.tryTrigger
  rw [armed]
  exact if_pos (beq_iff_eq.mpr label)

theorem State.turn_told (turn : Turn) : (s.turn turn).told t n = (s.told t n).turn turn := by
  unfold State.told
  rw [State.turn_deliver]
  rfl

/-- The action and its notice leave what decides of the generator's advance. -/
theorem State.told_ftb : ∃ counter generator, (s.told t n).ftb = { s.ftb with counter := counter, generator := generator } :=
  (RecorderActs.deliver s t.action n).ftb_eq

/-- A frame start with a trigger that matches: the trigger's action is taken by the part as the frame start leaves it. -/
theorem State.frameStart_matched (substituted : Bool) (armed : s.ftb.trigger = some t) (label : t.time = s.ftb.nextTime) :
    s.frameStart substituted = (s.framed substituted).disarmed.told t (s.ftb.serial + 1) := by
  have matched : (s.frameBegun substituted).tryTrigger (s.frameEntry substituted) =
      (s.frameBegun substituted).disarmed.told t (s.ftb.serial + 1) := by
    rw [State.tryTrigger_matched (t := t), State.frameEntry_eq]
    · rw [State.frameBegun_ftb]
      exact armed
    · rw [State.frameEntry_eq]
      exact label
  obtain ⟨counter, generator, ftb⟩ := (s.frameBegun substituted).disarmed.told_ftb t (s.ftb.serial + 1)
  have advances : ((s.frameBegun substituted).disarmed.told t (s.ftb.serial + 1)).ftb.advances (s.frameEntry substituted) =
      (s.frameBegun substituted).ftb.advances (s.frameEntry substituted) := by
    rw [ftb]
    rfl
  rw [State.frameStart_eq, matched, State.frameEnds, advances, ← State.turn_told, State.framed_eq]
  rfl

theorem State.setTimebase_told (timebase : TimebaseState) : (s.told t n).setTimebase timebase = (s.setTimebase timebase).told t n :=
  (s.turn_told t n { moves := false, state := fun _ => timebase, count := id }).symm

theorem State.countSubstituted_told : (s.told t n).countSubstituted = s.countSubstituted.told t n :=
  (s.turn_told t n { moves := false, state := id, count := bump16 }).symm

/-- The notice of an action, once it is known what the action does and answers. -/
theorem State.told_of_deliver {u : State} {status : Status} (h : s.deliver t.action n = (u, status)) :
    s.told t n = u.report .tcTrigger (serialBytes n ++ t.time.bytes ++ u8 t.action.code ++ u8 status.code) := by
  rw [State.told, h]

end

/-! ## What the Recorder makes of it -/

section
variable {v : State} {n : Serial}

theorem State.stop_idle (state : v.rcd.state ≠ .recording) : v.stop n = v := by
  unfold State.stop
  cases recorder : v.rcd.state with
  | recording => exact absurd recorder state
  | standing => rfl
  | closing => rfl
  | retaining => rfl

/-- A stop in RECORDING: E is fixed, and the clip is CLOSING (R121). -/
def State.stopped (v : State) (clip : Clip) (n : Serial) : State :=
  ({ v with rcd := { v.rcd with
    state := .closing, clip := some { clip with last := some n, reason := some .stopped } } } : State).reportRec .stopped 0 0

theorem State.stop_recording {clip : Clip} (state : v.rcd.state = .recording) (held : v.rcd.clip = some clip) :
    v.stop n = (v.stopped clip n).watchClip := by
  unfold State.stop State.stopped State.modifyClip
  rw [state]
  dsimp only
  rw [held]
  rfl

/-- While BFM has this frame's start to act on in RUN, an entry of the clip is still to come (R122). -/
theorem State.stopped_watchClip {clip : Clip} {f : FrameStart} (outstanding : f ∈ v.due.bfm) (run : f.inRun = true)
    (serial : f.serial = n) :
    (v.stopped clip n).watchClip = v.stopped clip n := by
  have counts : (f.inRun && olderOrSame f.serial n) = true := by simp [run, serial, olderOrSame]
  have remains : (v.stopped clip n).entryRemains { clip with last := some n, reason := some .stopped } = true :=
    Bool.or_eq_true_iff.mpr (.inr (List.any_eq_true.mpr ⟨f, outstanding, counts⟩))
  exact if_pos remains

theorem State.judgeStart_eq (v : State) : v.judgeStart = if v.startStatus = .ok then none else some v.startStatus := by
  unfold State.judgeStart State.startStatus
  cases v.rcd.mode with
  | single =>
    simp only [reduceCtorEq, if_false]
    split <;> simp_all
  | relay =>
    simp only [reduceCtorEq, if_false]
    split <;> simp_all
  | mirror =>
    simp only [if_true]
    obtain ⟨a, slotA⟩ : ∃ a, (v.slot .a).state = a := ⟨_, rfl⟩
    obtain ⟨b, slotB⟩ : ∃ b, (v.slot .b).state = b := ⟨_, rfl⟩
    simp only [slotA, slotB]
    cases a <;> cases b <;> rfl

/-- A start taken begins the clip as the statements write it out (R117). -/
theorem State.takeStart_eq (v : State) (n : Serial) : v.takeStart n = v.clipBegun n := by
  let began := v.beginClip .normal .recording (some n)
  have mode : began.rcd.mode = v.rcd.mode := rfl
  have opened : began.openCopies =
      if v.rcd.mode = .mirror then
        (began.openFor .a { continuation := false, retained := false, mirrored := true } none).openFor .b
          { continuation := false, retained := false, mirrored := true } none
      else began.openFor v.rcd.primary { continuation := false, retained := false, mirrored := false } none := by
    unfold State.openCopies
    rw [mode]
    cases v.rcd.mode <;> rfl
  obtain ⟨ftb, bfm, _⟩ : began.openCopies.ftb = v.ftb ∧ began.openCopies.bfm = v.bfm ∧ _ := began.openCopies_keeps
  have started (ftb : Ftb) : ftb.clipStarted = match ftb.interval with
      | some iv => { ftb with counter := iv.period }
      | none => if ftb.mode = .recRun then { ftb with generator := ftb.generator.advance ftb.rate ftb.dropFrame } else ftb := by
    rcases ftb with ⟨_, _, _, _, _, _, _, _, _, _, _, _, _, _, _, _, interval, _⟩
    cases interval with
    | some iv => rfl
    | none => exact if_congr beq_iff_eq rfl rfl
  have headed : (if began.openCopies.ftb.interval.isNone then began.openCopies.chooseHead (n - BitVec.ofNat 32 began.openCopies.bfm.depth)
      else began.openCopies).ftb = v.ftb := by
    split
    · exact (State.chooseHead_ftb ..).1.trans ftb
    · exact ftb
  have taken : v.takeStart n = ({ (if began.openCopies.ftb.interval.isNone then
      began.openCopies.chooseHead (n - BitVec.ofNat 32 began.openCopies.bfm.depth) else began.openCopies) with
        ftb := (if began.openCopies.ftb.interval.isNone then
          began.openCopies.chooseHead (n - BitVec.ofNat 32 began.openCopies.bfm.depth) else began.openCopies).ftb.clipStarted } :
      State).reportRec .started 0 0 := rfl
  rw [taken, headed, started, ftb, bfm, opened]
  rfl

end

/-! ### A start of source TRIGGER, in each state of the Recorder -/

section
variable {v : State} {source : StartSource} {n : Serial}

theorem State.start_inStandby (standby : v.pwc.inRun = false) :
    v.start source n = (v.withLastStart source .badState n, .badState) := by
  rw [State.start, standby]
  rfl

theorem State.start_recording (run : v.pwc.inRun = true) (state : v.rcd.state = .recording) :
    v.start source n = (v.withLastStart source .ok n, .ok) := by
  rw [State.start, run, state]
  rfl

theorem State.start_busy (run : v.pwc.inRun = true) (state : v.rcd.state = .closing ∨ v.rcd.state = .retaining) :
    v.start source n = (v.withLastStart source .busy n, .busy) := by
  rw [State.start, run]
  rcases state with state | state <;> rw [state] <;> rfl

theorem State.start_standing (run : v.pwc.inRun = true) (state : v.rcd.state = .standing) :
    v.start source n =
      if v.startStatus = .ok then ((v.clipBegun n).withLastStart source .ok n, .ok)
      else (v.withLastStart source v.startStatus n, v.startStatus) := by
  rw [State.start, run, state, State.judgeStart_eq, State.takeStart_eq]
  by_cases taken : v.startStatus = .ok
  · rw [if_pos taken, if_pos taken]
    rfl
  · rw [if_neg taken, if_neg taken]
    rfl

end

/-! ## The trigger at each kind of frame start -/

section
variable {s : State} {t : Trigger} {cycles : Nat} (armed : s.ftb.trigger = some t) (label : t.time = s.ftb.nextTime)
include armed label

/-- An edge in ACQUIRE, or in HOLDOVER from three quarters of a period on (R6, R8). -/
theorem State.edge_matched
    (start : s.ftb.state = .acquire ∨ (s.ftb.state = .holdover ∧ 3 * s.ftb.rate.period ≤ 4 * (s.ftb.elapsed + cycles))) :
    (s.pass cycles).edge = ((s.framed false).disarmed.setTimebase .locked).told t (s.ftb.serial + 1) := by
  have started : ((s.pass cycles).frameStart false).setTimebase .locked =
      ((s.framed false).disarmed.setTimebase .locked).told t (s.ftb.serial + 1) := by
    rw [State.frameStart_matched (s.pass cycles) t false armed label, State.setTimebase_told]
    rfl
  rcases start with state | ⟨state, start⟩
  · rw [State.edge_acquire (s := s.pass cycles) state, started]
  · rw [State.edge_holdover (s := s.pass cycles) state, State.isEarly_pass, if_neg (by simpa using start), started]

/-- An edge in LOCKED, from three quarters of a period on: the period is measured first (R7, R11). -/
theorem State.edge_matched_locked (state : s.ftb.state = .locked) (start : 3 * s.ftb.rate.period ≤ 4 * (s.ftb.elapsed + cycles)) :
    (s.pass cycles).edge = ((({ s.pass cycles with ftb := (s.pass cycles).ftb.measure } : State).framed false).disarmed).told t
      (s.ftb.serial + 1) := by
  rw [State.edge_locked (s := s.pass cycles) state, State.isEarly_pass, if_neg (by simpa using start), Ftb.measure_eq]
  exact State.frameStart_matched _ t false armed label

/-- A substituted start that follows real ones: the trigger's notice comes before FRAME_LOSS (R6, R20). -/
theorem State.timerFires_matched_lost (state : s.ftb.state = .acquire ∨ s.ftb.state = .locked) :
    s.timerFires = (((s.framed true).countSubstituted.setTimebase .holdover).disarmed.told t (s.ftb.serial + 1)).report .frameLoss
      (serialBytes (s.ftb.serial + 1) ++ serialBytes s.ftb.lastReal) := by
  have fired : s.timerFires = s.frameLoss := by
    unfold State.timerFires
    rcases state with state | state <;> rw [state]
  have lost : (s.frameStart true).countSubstituted.setTimebase .holdover =
      ((s.framed true).countSubstituted.setTimebase .holdover).disarmed.told t (s.ftb.serial + 1) := by
    rw [State.frameStart_matched s t true armed label, State.countSubstituted_told, State.setTimebase_told]
    rfl
  obtain ⟨counter, generator, ftb⟩ :=
    ((s.framed true).countSubstituted.setTimebase .holdover).disarmed.told_ftb t (s.ftb.serial + 1)
  rw [fired, State.frameLoss]
  rw [lost, ftb]
  rfl

theorem State.timerFires_matched_holdover (state : s.ftb.state = .holdover) :
    s.timerFires = (s.framed true).disarmed.countSubstituted.told t (s.ftb.serial + 1) := by
  rw [State.timerFires, state, State.frameStart_matched s t true armed label]
  exact State.countSubstituted_told ..

theorem State.timerFires_matched_standby (state : s.ftb.state = .standby) :
    s.timerFires = (s.framed true).disarmed.told t (s.ftb.serial + 1) := by
  rw [State.timerFires, state]
  exact State.frameStart_matched s t true armed label

end

/-- Settles O10: the action is taken by the part as the frame start leaves it, at each kind of frame start, and is then what the
Recorder makes of it. -/
theorem triggerFires : Obligations.TriggerFires := by
  unfold Obligations.TriggerFires
  intro c cycles s v t works armed label within e real late counted timer lost kinds n fires noted
  have becomes : (¬ lost → Becomes c s (v.told t n)) ∧
      (lost → Becomes c s ((v.told t n).report .frameLoss (serialBytes n ++ serialBytes s.ftb.lastReal))) := by
    have fire (due : timer) {u : State} (fired : s.timerFires = u) : Becomes c s u := by
      obtain ⟨rfl, rfl, due⟩ := due
      exact becomes_act works (f := State.fireIfDue) rfl ((State.fireIfDue_due due).trans fired)
    have noEdge (edge : c = .frameStartEdge cycles) : ¬ lost := by
      rintro ⟨⟨rfl, _⟩, _⟩
      cases edge
    rcases kinds with ⟨rfl, start, rfl⟩ | ⟨rfl, ⟨state, start⟩, rfl⟩ | ⟨loss, rfl⟩ | ⟨due, state, rfl⟩ | ⟨due, state, rfl⟩
    · exact ⟨fun _ => becomes_edge works within (State.edge_matched armed label start), fun loss => absurd loss (noEdge rfl)⟩
    · refine ⟨fun _ => becomes_edge works within ?_, fun loss => absurd loss (noEdge rfl)⟩
      rw [State.edge_matched_locked armed label state start, Ftb.measure_eq]
      rfl
    · exact ⟨fun kept => absurd loss kept, fun _ => fire loss.1 (State.timerFires_matched_lost armed label loss.2)⟩
    · exact ⟨fun _ => fire due (State.timerFires_matched_holdover armed label state), fun loss => absurd loss.2 (by simp [state])⟩
    · exact ⟨fun _ => fire due (State.timerFires_matched_standby armed label state), fun loss => absurd loss.2 (by simp [state])⟩
  obtain ⟨substituted, ftb, rfl⟩ : ∃ substituted ftb, v = { s.framed substituted with ftb := ftb } := by
    rcases kinds with ⟨_, _, rfl⟩ | ⟨_, _, rfl⟩ | ⟨_, rfl⟩ | ⟨_, _, rfl⟩ | ⟨_, _, rfl⟩
    · exact ⟨false, _, rfl⟩
    · exact ⟨false, _, rfl⟩
    · exact ⟨true, _, rfl⟩
    · exact ⟨true, _, rfl⟩
    · exact ⟨true, _, rfl⟩
  have fired {u : State} {status : Status}
      (delivered : ({ s.framed substituted with ftb := ftb } : State).deliver t.action n = (u, status)) : fires u status := by
    rw [State.told_of_deliver _ t n delivered] at becomes
    exact becomes
  refine ⟨fun idle => fired ?_, fun clip action state held => ⟨fired ?_, fun run => ?_⟩, fun action => ⟨fun standby => fired ?_, fun run =>
    ⟨fun state => fired ?_, fun state => fired ?_, fun state refused => fired ?_, fun state taken => fired ?_⟩⟩⟩
  · rcases idle with action | ⟨action, state⟩
    · rw [action]
      rfl
    · rw [action]
      exact Prod.ext (State.stop_idle state) rfl
  · rw [action]
    exact Prod.ext (State.stop_recording state held) rfl
  · exact State.stopped_watchClip (List.mem_append_right _ (List.mem_singleton_self _)) run rfl
  · rw [action]
    exact State.start_inStandby standby
  · rw [action]
    exact State.start_recording run state
  · rw [action]
    exact State.start_busy run state
  · rw [action]
    exact (State.start_standing (v := { s.framed substituted with ftb := ftb }) run state).trans (if_neg refused)
  · rw [action]
    exact (State.start_standing (v := { s.framed substituted with ftb := ftb }) run state).trans (if_pos taken)

end Sys2Proof.Machine

namespace Sys2Proof.Machine

/-! # The lens (R26 to R45) -/

/-! ## What an ending of a move leaves alone -/

/-- An ending changes the mode or the move of an axis and its last-ending entry, and nothing else of LNC. -/
theorem State.endMove_lnc (s : State) (axis : Axis) (status : MoveStatus) :
    ∃ zm ze fm fe im ie, (s.endMove axis status).lnc = { s.lnc with
      zoom := { s.lnc.zoom with mode := zm, lastEnding := ze }
      focus := { s.lnc.focus with mode := fm, lastEnding := fe }
      iris := { s.lnc.iris with move := im, lastEnding := ie } } := by
  unfold State.endMove
  split
  · exact ⟨_, _, _, _, _, _, rfl⟩
  · cases axis <;> exact ⟨_, _, _, _, _, _, rfl⟩

section
variable (s : State) (axis : Axis) (status : MoveStatus)

@[simp] theorem State.endMove_latest : (s.endMove axis status).lnc.latest = s.lnc.latest := by
  obtain ⟨_, _, _, _, _, _, h⟩ := s.endMove_lnc axis status
  rw [h]

@[simp] theorem State.endMove_reported : (s.endMove axis status).lnc.reported = s.lnc.reported := by
  obtain ⟨_, _, _, _, _, _, h⟩ := s.endMove_lnc axis status
  rw [h]

@[simp] theorem State.endMove_iris_demand : (s.endMove axis status).lnc.iris.demand = s.lnc.iris.demand := by
  obtain ⟨_, _, _, _, _, _, h⟩ := s.endMove_lnc axis status
  rw [h]

/-- An ending leaves a servo's release, demand, limits and speeds. -/
theorem State.endMove_servo (d : Drive) : ∃ mode ending,
    (s.endMove axis status).lnc.servo d = { s.lnc.servo d with mode := mode, lastEnding := ending } := by
  obtain ⟨_, _, _, _, _, _, h⟩ := s.endMove_lnc axis status
  rw [h]
  cases d <;> exact ⟨_, _, rfl⟩

/-- An ending on zoom leaves the focus servo. -/
@[simp] theorem State.endMove_zoom_focus : (s.endMove .zoom status).lnc.focus = s.lnc.focus := by
  unfold State.endMove
  split <;> rfl

@[simp] theorem State.endMove_pwc : (s.endMove axis status).pwc = s.pwc := by
  obtain ⟨_, _, h, _⟩ := s.endMove_eq axis status
  rw [h]

@[simp] theorem State.endMove_inbound : (s.endMove axis status).lnk.inbound = s.lnk.inbound := by
  obtain ⟨_, _, h, inbound⟩ := s.endMove_eq axis status
  rw [h, inbound]

/-- An ending neither reads nor changes the frame starts outstanding. -/
theorem State.endMove_due (due : Due) :
    ({ s with due := due } : State).endMove axis status = { s.endMove axis status with due := due } := by
  have moveOf : ({ s with due := due } : State).lnc.moveOf axis = s.lnc.moveOf axis := rfl
  unfold State.endMove
  rw [moveOf]
  cases s.lnc.moveOf axis <;> rfl

end

/-- Without a move nothing ends (R35). -/
theorem State.endMove_none {s : State} {axis : Axis} {status : MoveStatus} (h : s.lnc.moveOf axis = none) :
    s.endMove axis status = s := by
  rw [State.endMove, h]

/-- A servo carries the move of its axis in its mode. -/
theorem Lnc.moveOf_servo {l : Lnc} {d : Drive} {m : Move} (h : (l.servo d).mode = .move m) : l.moveOf d.axis = some m := by
  cases d
  · rw [show (l.servo .zoom).mode = l.zoom.mode from rfl] at h
    simp only [Drive.axis, Lnc.moveOf, h]
  · rw [show (l.servo .focus).mode = l.focus.mode from rfl] at h
    simp only [Drive.axis, Lnc.moveOf, h]

/-! ## How a move ends (R34, R35) -/

/-- The 50th frame start of WAIT leaves no move. -/
theorem Move.frame_last {m : Move} (last : m.phase = .wait 49) : m.frame = (none, m.p1) := by
  rw [Move.frame, last]
  rfl

/-- Settles O17: by the endings' own definition, and the last wait of `Move.frame`. -/
theorem moveEnds : Obligations.MoveEnds := by
  unfold Obligations.MoveEnds
  refine ⟨fun axis status m s carried => ?_, fun axis m w s carried waits => ?_, fun d m s held moving last => ?_,
    fun n m s held manual moving last => ?_⟩
  · unfold State.endMove
    rw [carried]
    obtain ⟨_, _, _, _, origin⟩ := m
    cases axis <;> cases origin <;> rfl
  · have near : (m.waiting && nearTarget m (s.lnc.latest.position axis)) = true ↔
        m.p1 ≤ s.lnc.latest.position axis + 4 ∧ s.lnc.latest.position axis ≤ m.p1 + 4 := by
      rw [Move.waiting, waits]
      simp [nearTarget, and_comm]
    unfold State.judgeArrival
    rw [carried]
    dsimp only
    simp only [near]
  · unfold State.driveFrame
    dsimp only
    rw [held, moving]
    have moved : ∀ v : Servo, v.moveOn m = { v with demand := m.p1 } := fun v => by
      rw [Servo.moveOn, Move.frame_last last]
    simp only [moved, Move.frame_last last]
    rfl
  · have same : s.lnc.iris = { s.lnc.iris with move := some m } := by rw [← moving]
    unfold State.irisFrame
    rw [held, manual, moving]
    simp only [Move.frame_last last]
    rw [same]
    rfl

/-! ## A report missed (R28) -/

/-- A miss is what `State.missed` writes out. -/
theorem State.missReport_eq (s : State) : s.missReport = s.missed := by
  have third : bump 255 s.lnc.misses 1 = 3 ↔ s.lnc.misses = 2 := by
    unfold bump
    omega
  unfold State.missReport State.missed
  by_cases lost : s.lnc.misses = 2 ∧ s.lnc.lens ≠ .lost
  · rw [if_pos lost, if_pos (by simpa [third] using lost)]
    rfl
  · rw [if_neg lost, if_neg (by simpa [third] using lost)]
    rfl

/-- A malformed report is none (R27, R196). -/
theorem parseReport_malformed {bytes : List Byte} (h : bytes.length ≠ 8 ∨ field bytes 6 2 ≠ crcBytes (bytes.take 6) ∨
    4095 < num bytes 0 2 ∨ 4095 < num bytes 2 2) : parseReport bytes = none := by
  unfold parseReport
  dsimp only
  rw [if_neg]
  simp only [Bool.and_eq_true, beq_iff_eq, decide_eq_true_eq]
  rintro ⟨⟨⟨length, crc⟩, zoom⟩, focus⟩
  rcases h with h | h | h | h
  · exact h length
  · exact h crc
  · omega
  · omega

/-- Settles O16: the expiry and the malformed report are one miss; with no window open neither is one. -/
theorem reportMissed : Obligations.ReportMissed := by
  unfold Obligations.ReportMissed
  refine ⟨fun c s works missed opened => ?_, fun s works shut => ⟨?_, fun bytes => ?_⟩⟩
  · rcases missed with rfl | ⟨bytes, rfl, malformed⟩
    · exact becomes_act works (f := State.windowExpires) rfl ((if_pos opened).trans s.missReport_eq)
    · obtain ⟨w, opened⟩ := Option.isSome_iff_exists.mp opened
      refine becomes_act works (f := fun s => s.lensReport bytes) rfl ?_
      rw [State.lensReport, opened, parseReport_malformed malformed]
      exact s.missReport_eq
  · exact becomes_act works (f := State.windowExpires) rfl (by rw [State.windowExpires, shut]; rfl)
  · exact becomes_act works (f := fun s => s.lensReport bytes) rfl (by rw [State.lensReport, shut])

end Sys2Proof.Machine

namespace Sys2Proof.Machine

/-! ## A good report (R27, R39, R196) -/

theorem crcBytes_length (bytes : List Byte) : (crcBytes bytes).length = 2 := u16_length _

/-- The bytes of a report with positions in range are read as its content (R196). -/
theorem parseReport_bytes {zoom focus iris flags : Nat} (hz : zoom ≤ 4095) (hf : focus ≤ 4095) (hi : iris ≤ 255) :
    parseReport ((u16 zoom ++ u16 focus ++ u8 iris ++ u8 flags) ++ crcBytes (u16 zoom ++ u16 focus ++ u8 iris ++ u8 flags)) =
      some { zoom := zoom, focus := focus, iris := iris, extender := flags.testBit 0,
             override := { zoom := flags.testBit 1, focus := flags.testBit 2, iris := flags.testBit 3 } } := by
  generalize crc : crcBytes (u16 zoom ++ u16 focus ++ u8 iris ++ u8 flags) = c
  have size : c.length = 2 := crc ▸ crcBytes_length _
  have zoomAt : num ((u16 zoom ++ u16 focus ++ u8 iris ++ u8 flags) ++ c) 0 2 = zoom := by
    simpa [u16] using num_field [] (u16 focus ++ u8 iris ++ u8 flags ++ c) 2 zoom (by omega)
  have focusAt : num ((u16 zoom ++ u16 focus ++ u8 iris ++ u8 flags) ++ c) 2 2 = focus := by
    simpa [u16] using num_field (u16 zoom) (u8 iris ++ u8 flags ++ c) 2 focus (by omega)
  have irisAt : num ((u16 zoom ++ u16 focus ++ u8 iris ++ u8 flags) ++ c) 4 1 = iris := by
    simpa [u8] using num_field (u16 zoom ++ u16 focus) (u8 flags ++ c) 1 iris (by omega)
  have bit (i : Nat) (h : i < 8) : (BitVec.ofNat 8 flags).getLsbD i = flags.testBit i := by
    rw [BitVec.getLsbD_ofNat, decide_eq_true h, Bool.true_and]
  have sum : field ((u16 zoom ++ u16 focus ++ u8 iris ++ u8 flags) ++ c) 6 2 = c := by
    rw [field, List.drop_left' (by simp), List.take_of_length_le size.le]
  have front : ((u16 zoom ++ u16 focus ++ u8 iris ++ u8 flags) ++ c).take 6 = u16 zoom ++ u16 focus ++ u8 iris ++ u8 flags :=
    List.take_left' (by simp)
  have fifth : ((u16 zoom ++ u16 focus ++ u8 iris ++ u8 flags) ++ c)[5]?.getD 0 = BitVec.ofNat 8 flags := by
    simp [u16, u8, beBytes]
  unfold parseReport
  dsimp only
  rw [zoomAt, focusAt, irisAt, sum, front, crc, fifth, bit 0 (by decide), bit 1 (by decide), bit 2 (by decide), bit 3 (by decide), if_pos]
  simp [size, hz, hf]

section
variable (s : State) (axis : Axis)

@[simp] theorem State.judgeOverride_latest (replaced : LensReport) : (s.judgeOverride replaced axis).lnc.latest = s.lnc.latest := by
  unfold State.judgeOverride State.reportOverride
  split <;> cases axis <;> simp [Lnc.release, Lnc.followHand, Lnc.engage]

@[simp] theorem State.judgeArrival_latest : (s.judgeArrival axis).lnc.latest = s.lnc.latest := by
  unfold State.judgeArrival
  split
  · rfl
  · split
    · cases axis <;> simp [Lnc.setDemand]
    · rfl

end

/-- The target of a move in WAIT that position `x` shows within 4 counts (R34). -/
def Lnc.arrivalAt (l : Lnc) (axis : Axis) (x : Nat) : Option Nat :=
  match l.moveOf axis with
  | some m =>
    (match m.phase with
     | .wait _ => if m.p1 ≤ x + 4 ∧ x ≤ m.p1 + 4 then some m.p1 else none
     | .ramp _ => none)
  | none => none

/-- The arrival test ends a move whose target the report shows. -/
theorem State.judgeArrival_eq (s : State) (axis : Axis) :
    s.judgeArrival axis = match s.lnc.arrivalAt axis (s.lnc.latest.position axis) with
      | some p1 => (s.endMove axis .arrived).modifyLnc (fun l => l.setDemand axis p1)
      | none => s := by
  unfold State.judgeArrival Lnc.arrivalAt
  rcases s.lnc.moveOf axis with _ | ⟨p0, p1, duration, phase | w, origin⟩
  · rfl
  · rfl
  · by_cases near : p1 ≤ s.lnc.latest.position axis + 4 ∧ s.lnc.latest.position axis ≤ p1 + 4
    · dsimp only
      rw [if_pos near, if_pos (by simpa [nearTarget, Move.waiting, and_comm] using near)]
    · dsimp only
      rw [if_neg near, if_neg (by simpa [nearTarget, Move.waiting, and_comm] using near)]

/-- The demand of an axis whose flag stays set, at the reported position `x` (R39). -/
def Lnc.heldAt (l : Lnc) (axis : Axis) (x : Nat) : Lnc :=
  match axis with
  | .zoom => { l with zoom := { l.zoom with demand := l.zoom.clampTo x } }
  | .focus => { l with focus := { l.focus with demand := l.focus.clampTo x } }
  | .iris => { l with iris := { l.iris with demand := x } }

/-- An axis whose release ends at the reported position `x` (R39). -/
def Lnc.engagedAt (l : Lnc) (axis : Axis) (x : Nat) : Lnc :=
  match axis with
  | .zoom => { l with zoom := { l.zoom with mode := .idle, released := false, demand := l.zoom.clampTo x } }
  | .focus => { l with focus := { l.focus with mode := .idle, released := false, demand := l.focus.clampTo x } }
  | .iris => { l with iris := { l.iris with released := false, demand := x } }

theorem Lnc.followHand_eq (l : Lnc) (axis : Axis) : l.followHand axis = l.heldAt axis (l.latest.position axis) := by
  cases axis <;> rfl

theorem Lnc.engage_eq (l : Lnc) (axis : Axis) : l.engage axis = l.engagedAt axis (l.latest.position axis) := by
  cases axis <;> rfl

/-- The override flag of an axis, judged with the report's position `x` (R39). -/
def State.overrideJudged (s : State) (axis : Axis) (x : Nat) (before now : Bool) : State :=
  match before, now with
  | false, true => ((s.endMove axis .overridden).modifyLnc (fun l => l.release axis)).report .lensOverride (u8 (axisCode axis) ++ u16 x)
  | true, true => s.modifyLnc (fun l => l.heldAt axis x)
  | true, false => s.modifyLnc (fun l => l.engagedAt axis x)
  | false, false => s

theorem State.judgeOverride_eq {s : State} {r : LensReport} (latest : s.lnc.latest = r) (replaced : LensReport) (axis : Axis) :
    s.judgeOverride replaced axis = s.overrideJudged axis (r.position axis) (replaced.overrideOf axis) (r.overrideOf axis) := by
  have released : ((s.endMove axis .overridden).modifyLnc (fun l => l.release axis)).lnc.latest = r := by
    cases axis <;> simp [Lnc.release, latest]
  have held : s.modifyLnc (fun l => l.followHand axis) = s.modifyLnc (fun l => l.heldAt axis (r.position axis)) :=
    congrArg (fun l => ({ s with lnc := l } : State)) (latest ▸ s.lnc.followHand_eq axis)
  have engaged : s.modifyLnc (fun l => l.engage axis) = s.modifyLnc (fun l => l.engagedAt axis (r.position axis)) :=
    congrArg (fun l => ({ s with lnc := l } : State)) (latest ▸ s.lnc.engage_eq axis)
  unfold State.judgeOverride State.overrideJudged State.reportOverride
  rw [latest, released, held, engaged] <;> rfl

/-- Settles O15: the report is read as its content, then each axis is judged with the report as the latest. -/
theorem goodReportTaken : Obligations.GoodReportTaken := by
  unfold Obligations.GoodReportTaken
  intro zoom focus iris flags w s works opened hz hf hi _ body old u servo hand drive judged judged arrival arrives arrived
  have onZoom {v : State} (latest : v.lnc.latest = u.lnc.latest) :
      v.judgeOverride s.lnc.latest .zoom = drive v .zoom 0 zoom old.zoom (flags.testBit 1) := State.judgeOverride_eq latest _ _
  have onFocus {v : State} (latest : v.lnc.latest = u.lnc.latest) :
      v.judgeOverride s.lnc.latest .focus = drive v .focus 1 focus old.focus (flags.testBit 2) := State.judgeOverride_eq latest _ _
  have onIris {v : State} (latest : v.lnc.latest = u.lnc.latest) :
      v.judgeOverride s.lnc.latest .iris = v.overrideJudged .iris iris old.iris (flags.testBit 3) := State.judgeOverride_eq latest _ _
  have overrides : ((u.judgeOverride s.lnc.latest .zoom).judgeOverride s.lnc.latest .focus).judgeOverride s.lnc.latest .iris = judged := by
    rw [onZoom rfl, onFocus (by rw [← onZoom rfl, State.judgeOverride_latest]), onIris]
    · rfl
    · rw [← onZoom rfl, ← onFocus (State.judgeOverride_latest ..), State.judgeOverride_latest, State.judgeOverride_latest]
  have latest : judged.lnc.latest = u.lnc.latest := by
    rw [← overrides]
    simp only [State.judgeOverride_latest]
  have endsZoom : judged.judgeArrival .zoom = arrives judged .zoom zoom := by
    rw [State.judgeArrival_eq, latest]
    rfl
  have endsFocus : (judged.judgeArrival .zoom).judgeArrival .focus = arrived := by
    rw [State.judgeArrival_eq, State.judgeArrival_latest, latest, endsZoom]
    rfl
  refine becomes_act works (f := fun s => s.lensReport (body ++ crcBytes body)) rfl ?_
  rw [State.lensReport, opened, parseReport_bytes hz hf hi]
  calc s.goodReport w u.lnc.latest
    _ = ((judged.judgeArrival .zoom).judgeArrival .focus).judgeArrival .iris := by
      rw [← overrides]
      rfl
    _ = _ := by
      rw [State.judgeArrival_eq, State.judgeArrival_latest, State.judgeArrival_latest, latest, endsFocus]
      rfl

end Sys2Proof.Machine

namespace Sys2Proof.Machine

/-! ## The frame start (R26, R30 to R34, R41, R42) -/

/-! ### The computations -/

/-- The last step of a ramp asks for the target itself (R34). -/
theorem rampDemand_last {m : Move} (long : 1 ≤ m.duration) : rampDemand m m.duration = m.p1 := by
  have whole (x d : Int) (pos : 0 < d) : roundDiv (x * d) d = x := by
    unfold roundDiv
    have up (y : Int) : (2 * (y * d) + d) / (2 * d) = y := by
      rw [show 2 * (y * d) + d = d + y * (2 * d) by ring, Int.add_mul_ediv_right _ _ (by omega),
        Int.ediv_eq_zero_of_lt (by omega) (by omega), zero_add]
    split
    · rw [← Int.neg_mul, up, neg_neg]
    · exact up x
  rw [rampDemand, whole _ _ (by omega)]
  omega

/-- A rate between two knots of the table (R33). -/
theorem tableSpeed_between {speeds : List Nat} {r : Int} {i w a b : Nat} (rate : r.natAbs = 16 * i + w) (within : w < 16)
    (low : speeds[i]? = some a) (high : speeds[i + 1]? = some b) (le : a ≤ b) : tableSpeed speeds r = a + (b - a) * w / 16 := by
  have knot : r.natAbs / 16 = i := by omega
  unfold tableSpeed
  dsimp only
  rw [knot, low, high, rate]
  have part : ((b : Int) - a) * (((16 * i + w : Nat) : Int) - 16 * i) / 16 = (((b - a) * w / 16 : Nat) : Int) := by
    push_cast [Nat.cast_sub le]
    congr 2
    ring
  dsimp only [Option.getD_some]
  rw [part]
  omega

/-- The saturation of a demand that a rate moves is the clamp of R30. -/
theorem saturate_toNat {lo hi : Nat} (le : lo ≤ hi) (x : Int) : (saturate lo hi x).toNat = max lo (min hi x.toNat) := by
  unfold saturate
  split
  · omega
  · split <;> omega

/-- An automatic iris moves by an eighth of an error above the deadband, 4 at most (R41). -/
theorem autoIris_eq (iris : Iris) (luma : Nat) : autoIris iris luma =
    if iris.deadband < ((iris.target : Int) - luma).natAbs then
      (saturate 0 255 ((iris.demand : Int) +
        if 0 ≤ (iris.target : Int) - luma then ((min 4 (((iris.target : Int) - luma).natAbs / 8) : Nat) : Int)
        else -((min 4 (((iris.target : Int) - luma).natAbs / 8) : Nat) : Int))).toNat
    else iris.demand := by
  have change (e : Int) : saturate (-4) 4 (e.tdiv 8) =
      if 0 ≤ e then ((min 4 (e.natAbs / 8) : Nat) : Int) else -((min 4 (e.natAbs / 8) : Nat) : Int) := by
    rcases le_or_gt 0 e with pos | neg
    · rw [if_pos pos, Int.tdiv_eq_ediv_of_nonneg pos]
      unfold saturate
      split
      · omega
      · split <;> omega
    · have mirrored : e.tdiv 8 = -(-e / 8) := by
        rw [← Int.tdiv_eq_ediv_of_nonneg (by omega), Int.neg_tdiv, neg_neg]
      rw [if_neg (by omega), mirrored]
      unfold saturate
      split
      · omega
      · split <;> omega
  unfold autoIris
  dsimp only
  rw [change]

/-- A focal length between two knots of the curve (R42). -/
theorem zoomFocal_between {curve : List Nat} {z i w a b : Nat} (position : z = 256 * i + w) (within : w < 256)
    (low : curve[i]? = some a) (high : curve[i + 1]? = some b) :
    zoomFocal curve z = a + Int.fdiv (((b : Int) - a) * w) 256 := by
  have knot : z / 256 = i := by omega
  unfold zoomFocal
  dsimp only
  rw [knot, low, high, position, Int.fdiv_eq_ediv_of_nonneg _ (by decide)]
  dsimp only [Option.getD_some]
  congr 3
  push_cast
  ring

/-- What lies between two natural numbers on a line of 256 parts is no negative number. -/
theorem between_nonneg {a b w : Nat} (within : w < 256) : 0 ≤ (a : Int) + Int.fdiv (((b : Int) - a) * w) 256 := by
  rw [Int.fdiv_eq_ediv_of_nonneg _ (by decide)]
  have : -(a : Int) * 256 ≤ ((b : Int) - a) * w := by nlinarith
  omega

/-! ### One axis -/

/-- One frame start of a move that is not at its last wait (R34). -/
def Move.stepped (m : Move) : Nat × Move :=
  match m.phase with
  | .ramp k =>
    (((m.p0 : Int) + roundDiv (((m.p1 : Int) - m.p0) * (k + 1 : Nat)) m.duration).toNat,
      { m with phase := if k + 1 < m.duration then .ramp (k + 1) else .wait 0 })
  | .wait w => (m.p1, { m with phase := .wait (w + 1) })

/-- The axis carries no move at its last wait. -/
def Lnc.waitsOn (l : Lnc) (axis : Axis) : Prop := ∀ m w, l.moveOf axis = some m → m.phase = .wait w → w + 1 < 50

theorem Move.frame_stepped {m : Move} (on : ∀ w, m.phase = .wait w → w + 1 < 50) : m.frame = (some m.stepped.2, m.stepped.1) := by
  unfold Move.frame Move.stepped rampDemand
  cases phase : m.phase with
  | ramp k => rfl
  | wait w =>
    dsimp only
    rw [if_pos (on w phase)]

/-- Zoom or focus at a frame start, before the clamp (R31, R33, R34). -/
def Servo.movedTo (v : Servo) (reported : Nat) : Servo :=
  if v.released then { v with demand := reported }
  else match v.mode with
  | .idle => v
  | .rate r => { v with demand := rateDemand v r }
  | .move m => { v with demand := m.stepped.1, mode := .move m.stepped.2 }

/-- A change of a servo is known by what it makes of that servo. -/
theorem Lnc.modifyServo_congr {l : Lnc} {d : Drive} {f g : Servo → Servo} (h : f (l.servo d) = g (l.servo d)) :
    l.modifyServo d f = l.modifyServo d g := by
  cases d
  · exact congrArg (fun v => { l with zoom := v }) h
  · exact congrArg (fun v => { l with focus := v }) h

theorem Lnc.modifyServo_same {l : Lnc} {d : Drive} {f : Servo → Servo} (h : f (l.servo d) = l.servo d) : l.modifyServo d f = l := by
  rw [Lnc.modifyServo_congr (g := id) h]
  cases d <;> rfl

/-- A frame start on zoom or focus changes its servo alone, unless a move is at its last wait. -/
theorem State.driveFrame_eq {s : State} (d : Drive) (on : s.lnc.waitsOn d.axis) :
    s.driveFrame d = s.modifyLnc (fun l => l.modifyServo d (fun v => v.movedTo (s.lnc.reportedAt d))) := by
  have becomes {f : Servo → Servo} (h : f (s.lnc.servo d) = (s.lnc.servo d).movedTo (s.lnc.reportedAt d)) :
      s.modifyLnc (fun l => l.modifyServo d f) =
        s.modifyLnc (fun l => l.modifyServo d (fun v => v.movedTo (s.lnc.reportedAt d))) :=
    congrArg (fun l => ({ s with lnc := l } : State)) (Lnc.modifyServo_congr h)
  unfold State.driveFrame
  dsimp only
  by_cases released : (s.lnc.servo d).released = true
  · rw [if_pos released, ← becomes (f := fun v => { v with demand := s.lnc.reportedAt d }) (by rw [Servo.movedTo, if_pos released])]
    rfl
  · rw [if_neg released]
    cases mode : (s.lnc.servo d).mode with
    | idle =>
      rw [← becomes (f := id) (by rw [Servo.movedTo, if_neg released, mode]; rfl)]
      cases d <;> rfl
    | rate r => exact becomes (by rw [Servo.movedTo, if_neg released, mode])
    | move m =>
      have frame := Move.frame_stepped (on m · (Lnc.moveOf_servo mode))
      dsimp only
      rw [frame]
      exact becomes (by rw [Servo.movedTo, if_neg released, mode, Servo.moveOn, frame])

/-- The iris at the frame start of serial `n`, unless its move is at its last wait (R34, R40, R41). -/
def Lnc.irisMoved (l : Lnc) (n : Serial) : Iris :=
  if l.iris.released then l.iris
  else if l.iris.auto then
    (match l.tileMean with
     | some (m, luma) =>
       if m = n - 1 ∧ l.lens ≠ .lost then { l.iris with demand := autoIris l.iris luma } else l.iris
     | none => l.iris)
  else match l.iris.move with
  | some m => { l.iris with demand := m.stepped.1, move := some m.stepped.2 }
  | none => l.iris

theorem State.irisFrame_eq {s : State} (n : Serial) (on : s.lnc.waitsOn .iris) :
    s.irisFrame n = s.modifyLnc (fun l => { l with iris := l.irisMoved n }) := by
  have becomes {v : Iris} (h : s.lnc.irisMoved n = v) :
      s.modifyLnc (fun l => { l with iris := l.irisMoved n }) = s.modifyLnc (fun l => { l with iris := v }) :=
    congrArg (fun i => ({ s with lnc := { s.lnc with iris := i } } : State)) h
  unfold State.irisFrame
  by_cases released : s.lnc.iris.released = true
  · rw [if_pos released, becomes (v := s.lnc.iris) (by rw [Lnc.irisMoved, if_pos released])]
    rfl
  rw [if_neg released]
  by_cases auto : s.lnc.iris.auto = true
  · rw [if_pos auto]
    have moved : s.lnc.autoFrame n = { s.lnc with iris := s.lnc.irisMoved n } := by
      rw [Lnc.irisMoved, if_neg released, if_pos auto]
      unfold Lnc.autoFrame
      cases noted : s.lnc.tileMean with
      | none => rfl
      | some mean =>
        by_cases fresh : mean.1 = n - 1 ∧ s.lnc.lens ≠ .lost
        · dsimp only
          rw [if_pos fresh, if_pos (by simpa using fresh), noted]
        · dsimp only
          rw [if_neg fresh, if_neg (by simpa using fresh)]
    exact congrArg (fun l => ({ s with lnc := l } : State)) moved
  · rw [if_neg auto]
    cases carried : s.lnc.iris.move with
    | none =>
      rw [becomes (v := s.lnc.iris) (by rw [Lnc.irisMoved, if_neg released, if_neg auto, carried])]
      rfl
    | some m =>
      rw [becomes (by rw [Lnc.irisMoved, if_neg released, if_neg auto, carried])]
      dsimp only
      rw [Move.frame_stepped (on m · carried)]
      rfl

/-! ### The whole frame start -/

/-- The three axes at a frame start, none at its last wait: each is read as it stood before (R31). -/
theorem State.axesFrame_eq {s : State} (n : Serial) (on : ∀ axis, s.lnc.waitsOn axis) :
    ((s.driveFrame .zoom).driveFrame .focus).irisFrame n = s.modifyLnc (fun l => { l with
      zoom := l.zoom.movedTo l.latest.zoom, focus := l.focus.movedTo l.latest.focus, iris := l.irisMoved n }) := by
  have zoom := State.driveFrame_eq .zoom (on .zoom)
  have focus := State.driveFrame_eq (s := s.driveFrame .zoom) .focus (by rw [zoom]; exact on .focus)
  have iris := State.irisFrame_eq (s := (s.driveFrame .zoom).driveFrame .focus) n (by rw [focus, zoom]; exact on .iris)
  rw [iris, focus, zoom]
  rfl

theorem State.endMoves_due (s : State) (status : MoveStatus) (due : Due) :
    ({ s with due := due } : State).endMoves status = { s.endMoves status with due := due } := by
  simp only [State.endMoves, State.endMove_due]

/-- `v` differs from `u` in LNC and LNK alone. -/
def LensOnly (u v : State) : Prop := ∃ lnc lnk, v = { u with lnc := lnc, lnk := lnk }

theorem LensOnly.trans {u v w : State} (h : LensOnly u v) (k : LensOnly v w) : LensOnly u w := by
  obtain ⟨_, _, rfl⟩ := h
  obtain ⟨lnc, lnk, rfl⟩ := k
  exact ⟨lnc, lnk, rfl⟩

theorem LensOnly.modifyLnc (u : State) (f : Lnc → Lnc) : LensOnly u (u.modifyLnc f) := ⟨_, _, rfl⟩

theorem LensOnly.report (u : State) (src : Source) (detail : List Byte) : LensOnly u (u.report src detail) := ⟨_, _, rfl⟩

theorem LensOnly.endMoves (u : State) (status : MoveStatus) : LensOnly u (u.endMoves status) := by
  obtain ⟨lnc, lnk, ends, _⟩ := u.endMoves_eq status
  exact ⟨lnc, lnk, ends⟩

theorem LensOnly.windowExpires (u : State) : LensOnly u u.windowExpires := by
  have lost (v : State) : LensOnly v v.lensLost := by
    unfold State.lensLost
    exact (((LensOnly.modifyLnc v _).trans (.report ..)).trans (.endMoves ..)).trans (.modifyLnc ..)
  unfold State.windowExpires State.missReport
  split
  · dsimp only
    split
    · exact (LensOnly.modifyLnc ..).trans (lost _)
    · exact .modifyLnc ..
  · exact ⟨_, _, rfl⟩

/-- The expiry of a window neither reads nor changes the frame starts outstanding. -/
theorem State.windowExpires_due (s : State) (due : Due) :
    ({ s with due := due } : State).windowExpires = { s.windowExpires with due := due } := by
  have lost (v : State) : ({ v with due := due } : State).lensLost = { v.lensLost with due := due } :=
    congrArg (fun w : State => w.modifyLnc (fun l => { l with zoom := l.zoom.idle, focus := l.focus.idle }))
      (State.endMoves_due ((v.modifyLnc (fun l => { l with lens := .lost })).report .lensLost
        (serialBytes v.ftb.serial ++ serialBytes v.lnc.lastGood)) .lost due)
  unfold State.windowExpires State.missReport
  dsimp only
  split
  · rw [apply_ite (fun w : State => ({ w with due := due } : State)), ← lost]
    rfl
  · rfl

theorem State.windowExpires_missed (s : State) : s.windowExpires = if s.lnc.window.isSome then s.missed else s := by
  rw [State.windowExpires, State.missReport_eq]

/-- LNC after its frame start of serial `n` (R31). -/
def Lnc.framed (l : Lnc) (n : Serial) (period : Nat) : Lnc :=
  ({ l with
    zoom := (l.zoom.movedTo l.latest.zoom).clamp, focus := (l.focus.movedTo l.latest.focus).clamp, iris := l.irisMoved n } : Lnc).sendDemand
      n period

/-- A working LNC at a frame start, no move at its last wait. -/
theorem State.lncFrame_acts {s v : State} {f : FrameStart} (acts : s.lncActs f = true) (opened : s.windowExpires = v)
    (on : ∀ axis, v.lnc.waitsOn axis) :
    s.lncFrame f = (v.modifyLnc (fun l => l.framed f.serial s.ftb.rate.period)).leaveRecord f.serial := by
  subst opened
  obtain ⟨_, _, keeps⟩ := LensOnly.windowExpires s
  have ftb : s.windowExpires.ftb = s.ftb := by rw [keeps]
  rw [State.lncFrame, if_pos acts]
  dsimp only
  rw [State.axesFrame_eq f.serial on, State.modifyLnc_ftb, ftb]
  rfl

theorem FrameStart.leave_eq (n : Serial) (r : LensRecord) :
    FrameStart.leave n r = fun g => if g.serial = n then { g with lens := some r } else g := by
  funext g
  simp only [FrameStart.leave, beq_iff_eq]

/-- LNC takes its oldest frame start. -/
theorem State.lncStep_cons {s : State} {f : FrameStart} {rest : List FrameStart} (due : s.due.lnc = f :: rest) :
    s.lncStep = ({ s with due := { s.due with lnc := rest } } : State).lncFrame f := by
  rw [State.lncStep, due]

/-! ### The demands that are sent (R30) -/

/-- The soft limits of zoom and focus. -/
def Lnc.limits (l : Lnc) : (Nat × Nat) × Nat × Nat := ((l.zoom.least, l.zoom.greatest), l.focus.least, l.focus.greatest)

section
variable (s : State)

@[simp] theorem State.endMove_limits (axis : Axis) (status : MoveStatus) : (s.endMove axis status).lnc.limits = s.lnc.limits := by
  obtain ⟨_, _, _, _, _, _, h⟩ := s.endMove_lnc axis status
  rw [h]
  rfl

@[simp] theorem State.windowExpires_limits : s.windowExpires.lnc.limits = s.lnc.limits := by
  have ended (v : State) : (v.endMoves .lost).lnc.limits = v.lnc.limits := by simp [State.endMoves]
  unfold State.windowExpires State.missReport
  split
  · dsimp only
    split
    · exact ended _
    · rfl
  · rfl

theorem Lnc.modifyServo_limits (l : Lnc) (d : Drive) (f : Servo → Servo)
    (same : (f (l.servo d)).least = (l.servo d).least ∧ (f (l.servo d)).greatest = (l.servo d).greatest) :
    (l.modifyServo d f).limits = l.limits := by
  obtain ⟨least, greatest⟩ := same
  cases d <;> simp only [Lnc.limits, Lnc.modifyServo, Lnc.servo] at * <;> rw [least, greatest]

@[simp] theorem State.driveFrame_limits (d : Drive) : (s.driveFrame d).lnc.limits = s.lnc.limits := by
  unfold State.driveFrame
  dsimp only
  split
  · exact Lnc.modifyServo_limits _ d _ ⟨rfl, rfl⟩
  · split
    · rfl
    · exact Lnc.modifyServo_limits _ d _ ⟨rfl, rfl⟩
    · have moved (m : Move) : (s.modifyLnc (fun l => l.modifyServo d (fun v => v.moveOn m))).lnc.limits = s.lnc.limits :=
        Lnc.modifyServo_limits _ d _ (by unfold Servo.moveOn; split <;> exact ⟨rfl, rfl⟩)
      split
      · rw [State.endMove_limits, moved]
      · exact moved _

theorem Lnc.autoFrame_limits (l : Lnc) (n : Serial) : (l.autoFrame n).limits = l.limits := by
  unfold Lnc.autoFrame
  split
  · split <;> rfl
  · rfl

@[simp] theorem State.irisFrame_limits (n : Serial) : (s.irisFrame n).lnc.limits = s.lnc.limits := by
  unfold State.irisFrame
  split
  · rfl
  · split
    · exact s.lnc.autoFrame_limits n
    · split
      · rfl
      · dsimp only
        split
        · exact State.endMove_limits ..
        · rfl

end

theorem clampNat_within {lo hi : Nat} (le : lo ≤ hi) (x : Nat) : lo ≤ clampNat lo hi x ∧ clampNat lo hi x ≤ hi := by
  unfold clampNat
  split
  · omega
  · split <;> omega

theorem demandFor_position {released : Bool} {x y : Nat} (h : demandFor released x = .position y) : x = y := by
  unfold demandFor at h
  split at h
  · cases h
  · exact Demand.position.inj h

@[simp] theorem State.settle_lnc (s : State) : s.settle.lnc = s.lnc := by
  unfold State.settle
  dsimp only
  split <;> rfl

/-- A working LNC sends at its frame start demands within the soft limits (R30). -/
theorem State.lncStep_sent {s : State} {f : FrameStart} {rest : List FrameStart} (due : s.due.lnc = f :: rest)
    (acts : s.lncActs f = true) : ∃ l : Lnc, l.limits = s.lnc.limits ∧
      s.lncStep.lnc.sent = some (f.serial,
        { zoom := demandFor l.zoom.released (clampNat l.zoom.least l.zoom.greatest l.zoom.demand)
          focus := demandFor l.focus.released (clampNat l.focus.least l.focus.greatest l.focus.demand)
          iris := demandFor l.iris.released l.iris.demand }) := by
  rw [State.lncStep_cons due]
  refine ⟨((((({ s with due := { s.due with lnc := rest } } : State).windowExpires.driveFrame .zoom).driveFrame .focus).irisFrame
    f.serial).lnc), by simp, ?_⟩
  exact congrArg (fun v : State => v.lnc.sent) (if_pos acts)

/-- Settles O14: the axes move each as it stood before, the frame start's record is what the sent demand leaves, and the formulas are
those of the computations. -/
theorem lensFrame : Obligations.LensFrame := by
  unfold Obligations.LensFrame
  refine ⟨fun f rest s works due => ?_, ⟨fun f rest s t works due acts zoomLimits focusLimits ran => ?_, fun m => rampDemand_last⟩, ?_, ?_, ?_⟩
  · intro s' l
    have opened : ({ s with due := { s.due with lnc := rest } } : State).windowExpires =
        { s' with due := { s.due with lnc := rest } } := by
      rw [State.windowExpires_due, State.windowExpires_missed]
    refine ⟨fun rests => becomes_act works (f := State.lncStep) rfl ?_, fun began run on waits => ?_⟩
    · rw [State.lncStep_cons due, State.lncFrame, if_neg]
      exact Bool.eq_false_iff.mp rests
    · intro step moved clamped zoom focus iris focal record left sent
      have acts : ({ s with due := { s.due with lnc := rest } } : State).lncActs f = true := by
        simp [State.lncActs, began, run, on]
      have enabled : s'.pwc.enables.lnc = true := by
        obtain ⟨_, _, keeps⟩ := LensOnly.windowExpires s
        rw [State.windowExpires_missed] at keeps
        rw [show s' = _ from keeps]
        exact on
      have leaves : (({ s' with due := { s.due with lnc := rest } } : State).modifyLnc
          (fun l => l.framed f.serial s.ftb.rate.period)).lensRecord = record := by
        have stale : (!s'.pwc.enables.lnc || s'.lnc.lens != .present) = decide (s'.lnc.lens ≠ .present) := by
          rw [enabled]
          cases s'.lnc.lens <;> rfl
        exact congrArg (fun stale => ({ record with stale := stale } : LensRecord)) stale
      refine becomes_act works (f := State.lncStep) rfl ?_
      rw [State.lncStep_cons due, State.lncFrame_acts acts opened waits, State.leaveRecord, leaves, FrameStart.leave_eq]
      rfl
  · obtain ⟨l, limits, sends⟩ := State.lncStep_sent due acts
    have ends : t = s.lncStep.settle := by
      have : exec .lncFrameStart s = .next s.lncStep.settle := s.act_works works State.lncStep
      exact (Host.Outcome.next.inj (this.symm.trans ran)).symm
    simp only [Lnc.limits, Prod.mk.injEq] at limits
    obtain ⟨⟨zl, zg⟩, fl, fg⟩ := limits
    refine ⟨_, by rw [ends, State.settle_lnc, sends], fun x asked => ?_, fun x asked => ?_⟩
    · rw [← demandFor_position asked, ← zl, ← zg]
      exact clampNat_within (by omega) _
    · rw [← demandFor_position asked, ← fl, ← fg]
      exact clampNat_within (by omega) _
  · intro v r i w a b rate within low high le limits speed slow
    have table : tableSpeed v.speeds r = speed := tableSpeed_between rate within low high le
    refine ⟨fun up => ?_, fun down => ?_⟩
    · refine ⟨if 1 ≤ speed ∧ v.greatest ≤ v.demand + 64 then max 1 (speed / 4) else speed, ⟨fun near moving => if_pos ⟨moving, near⟩,
        fun far => if_neg (by omega)⟩, ?_⟩
      have near : (v.greatest : Int) - v.demand ≤ 64 ↔ v.greatest ≤ v.demand + 64 := by omega
      unfold rateDemand
      simp only [table, if_neg (not_lt.mpr up), near, saturate_toNat limits]
      rw [← Nat.cast_add, Int.toNat_natCast]
    · refine ⟨if 1 ≤ speed ∧ v.demand ≤ v.least + 64 then max 1 (speed / 4) else speed, ⟨fun near moving => if_pos ⟨moving, near⟩,
        fun far => if_neg (by omega)⟩, ?_⟩
      have near : (v.demand : Int) - v.least ≤ 64 ↔ v.demand ≤ v.least + 64 := by omega
      unfold rateDemand
      simp only [table, if_pos down, near, saturate_toNat limits]
      rw [Int.toNat_sub]
  · intro iris luma least error change
    rw [autoIris_eq]
    refine ⟨fun still => if_neg (by omega), fun moves up => ?_, fun moves down => ?_⟩
    · rw [if_pos moves, if_pos up]
      unfold saturate
      split
      · omega
      · split <;> omega
    · rw [if_pos moves, if_neg (by omega)]
      unfold saturate
      split
      · omega
      · split <;> omega
  · intro curve report i w a b position within low high
    refine ⟨(a + Int.fdiv (((b : Int) - a) * w) 256).toNat, Int.toNat_of_nonneg (between_nonneg within), ?_⟩
    rw [focalLength, zoomFocal_between position within low high]

end Sys2Proof.Machine

namespace Sys2Proof.Machine

/-! ## Rates, moves and stops (R32, R34, R38) -/

/-! ### Their fields -/

/-- A signed byte in range reads as the number written (R194). -/
theorem signedNum_signedBytes {v : Int} (least : -128 ≤ v) (greatest : v ≤ 127) : signedNum (signedBytes 1 v) 0 1 = v := by
  have read : num (signedBytes 1 v) 0 1 = (v % 256).toNat := by
    simpa [signedBytes] using num_field [] [] 1 (v % 256).toNat (by omega)
  unfold signedNum
  rw [read]
  dsimp only
  split <;> omega

/-- What LENS_GOTO's four fields are read as. -/
structure GotoFields (p : List Byte) (axes zt ft t : Nat) : Prop where
  axes : num p 0 1 = axes
  zoom : num p 1 2 = zt
  focus : num p 3 2 = ft
  duration : num p 5 2 = t

theorem GotoFields.written {axes zt ft t : Nat} (ha : axes ≤ 255) (hz : zt ≤ 65535) (hf : ft ≤ 65535) (ht : t ≤ 65535) :
    GotoFields (u8 axes ++ u16 zt ++ u16 ft ++ u16 t) axes zt ft t where
  axes := by simpa [u8] using num_field [] (u16 zt ++ u16 ft ++ u16 t) 1 axes (by omega)
  zoom := by simpa [u16] using num_field (u8 axes) (u16 ft ++ u16 t) 2 zt (by omega)
  focus := by simpa [u16] using num_field (u8 axes ++ u16 zt) (u16 t) 2 ft (by omega)
  duration := by simpa [u16] using num_field (u8 axes ++ u16 zt ++ u16 ft) [] 2 t (by omega)

/-- The axis sets of LENS_GOTO are the flags of zoom and focus, not both clear. -/
theorem gotoAxes_iff {p : List Byte} {z f : Bool} :
    gotoAxes p = some (z, f) ↔ num p 0 1 = packFlags [z, f] ∧ (z = true ∨ f = true) := by
  unfold gotoAxes
  constructor
  · intro named
    split at named
    · next n => cases named; exact ⟨n, .inl rfl⟩
    · next n => cases named; exact ⟨n, .inr rfl⟩
    · next n => cases named; exact ⟨n, .inl rfl⟩
    · cases named
  · rintro ⟨n, named⟩
    rw [n]
    cases z
    · cases f
      · simp at named
      · rfl
    · cases f <;> rfl

/-! ### A move begins, a servo stops -/

/-- Zoom or focus enters MOVE from its demand to the clamped target, once the move it carries has ended (R34). -/
theorem State.moveDrive_eq (s : State) (d : Drive) (target duration : Nat) (origin : Origin) :
    s.moveDrive d target duration origin = (s.endMove d.axis .interrupted).modifyLnc (fun l => l.modifyServo d (fun v =>
      { v with mode := .move { p0 := (s.lnc.servo d).demand, p1 := (s.lnc.servo d).clampTo target, duration := duration,
                               phase := .ramp 0, origin := origin } })) := by
  obtain ⟨_, _, kept⟩ := s.endMove_servo d.axis .interrupted d
  exact congrArg (fun l => ({ s.endMove d.axis .interrupted with lnc := l } : State)) (Lnc.modifyServo_congr (by rw [kept]; rfl))

theorem State.moveDrive_zoom_focus (s : State) (target duration : Nat) (origin : Origin) :
    (s.moveDrive .zoom target duration origin).lnc.focus = s.lnc.focus := s.endMove_zoom_focus .interrupted

theorem State.moveDrive_inbound (s : State) (d : Drive) (target duration : Nat) (origin : Origin) :
    (s.moveDrive d target duration origin).lnk.inbound = s.lnk.inbound := s.endMove_inbound d.axis .interrupted

/-- Zoom or focus stops where the lens reports it to stand (R38). -/
theorem State.stopDrive_eq (s : State) (d : Drive) :
    s.stopDrive d = if (s.lnc.servo d).released then s
      else (s.endMove d.axis .interrupted).modifyLnc (fun l => l.modifyServo d (fun v =>
        { v with mode := .idle, demand := if s.lnc.reported then v.clampTo (s.lnc.reportedAt d) else v.demand })) := by
  have stopped : (s.endMove d.axis .interrupted).lnc.modifyServo d (fun v => { v with
      mode := .idle
      demand := if (s.endMove d.axis .interrupted).lnc.reported then v.clampTo ((s.endMove d.axis .interrupted).lnc.reportedAt d)
        else v.demand }) =
      (s.endMove d.axis .interrupted).lnc.modifyServo d (fun v => { v with
        mode := .idle, demand := if s.lnc.reported then v.clampTo (s.lnc.reportedAt d) else v.demand }) := by
    rw [State.endMove_reported, Lnc.reportedAt, State.endMove_latest, Lnc.reportedAt]
  unfold State.stopDrive State.modifyLnc
  dsimp only
  rw [stopped]

theorem State.stopDrive_zoom_lnc (s : State) : (s.stopDrive .zoom).lnc.focus = s.lnc.focus ∧
    (s.stopDrive .zoom).lnc.latest = s.lnc.latest ∧ (s.stopDrive .zoom).lnc.reported = s.lnc.reported := by
  rw [State.stopDrive_eq]
  split
  · exact ⟨rfl, rfl, rfl⟩
  · exact ⟨s.endMove_zoom_focus .interrupted, s.endMove_latest .zoom .interrupted, s.endMove_reported .zoom .interrupted⟩

theorem State.stopDrive_inbound (s : State) (d : Drive) : (s.stopDrive d).lnk.inbound = s.lnk.inbound := by
  rw [State.stopDrive_eq]
  split
  · rfl
  · exact s.endMove_inbound d.axis .interrupted

/-! ### The requests -/

section
variable {s : State}

/-- A rate is taken in RUN, on an axis that is not released, and unless it is 0 while the lens is not LOST (R32). -/
theorem State.takeRate_eq {v : Int} (least : -127 ≤ v) (greatest : v ≤ 127) (d : Drive) :
    s.takeRate d (signedBytes 1 v) =
      if s.pwc.inRun = true ∧ (v = 0 ∨ s.lnc.lens ≠ .lost) ∧ (s.lnc.servo d).released = false then
        answerOk ((s.endMove d.axis .interrupted).modifyLnc (fun l => l.modifyServo d (fun w =>
          { w with mode := if v = 0 then .idle else .rate v }))) []
      else refuse s .badState := by
  have asked : signedRangeAt (signedBytes 1 v) 0 1 (-127) 127 = some v :=
    signedRangeAt_of_num (signedNum_signedBytes (by omega) greatest) least greatest
  have refused : (!s.pwc.inRun || (s.lnc.servo d).released || (v != 0 && s.lnc.lens == .lost)) = true ↔
      ¬ (s.pwc.inRun = true ∧ (v = 0 ∨ s.lnc.lens ≠ .lost) ∧ (s.lnc.servo d).released = false) := by
    simp only [Bool.or_eq_true, Bool.and_eq_true, Bool.not_eq_true', bne_iff_ne, beq_iff_eq, Bool.eq_false_iff]
    tauto
  unfold State.takeRate
  rw [asked]
  dsimp only
  rw [if_congr refused rfl rfl, ite_not]
  simp only [beq_iff_eq]

section
variable {p : List Byte} {zt ft t : Nat} {z f : Bool} (fields : GotoFields p (packFlags [z, f]) zt ft t)
include fields

/-- LENS_GOTO with its fields in range is judged by the states, and each axis named enters MOVE over the common T (R34). -/
theorem reqLensGoto_eq (named : z = true ∨ f = true) (zoomRange : z = true → zt ≤ 4095) (focusRange : f = true → ft ≤ 4095)
    (least : 1 ≤ t) (greatest : t ≤ 600) :
    reqLensGoto p s =
      if s.pwc.inRun = true ∧ s.lnc.lens ≠ .lost ∧ (z = true → s.lnc.zoom.released = false) ∧
          (f = true → s.lnc.focus.released = false) then
        let used := max t (max (if z then s.lnc.zoom.needs zt else 0) (if f then s.lnc.focus.needs ft else 0))
        let u := if z then s.moveDrive .zoom zt used .goto else s
        answerOk (if f then u.moveDrive .focus ft used .goto else u)
          (presence 3 (if z then some (s.lnc.zoom.targetReply zt) else none) ++
            presence 3 (if f then some (s.lnc.focus.targetReply ft) else none) ++ u16 used ++ flagByte (used != t))
      else refuse s .badState := by
  unfold reqLensGoto
  rw [gotoAxes_iff.mpr ⟨fields.axes, named⟩, rangeAt_of_num fields.duration least greatest, fields.zoom, fields.focus]
  dsimp only
  have refused : (!s.pwc.inRun || (z && s.lnc.zoom.released) || (f && s.lnc.focus.released) || s.lnc.lens == .lost) = true ↔
      ¬ (s.pwc.inRun = true ∧ s.lnc.lens ≠ .lost ∧ (z = true → s.lnc.zoom.released = false) ∧
        (f = true → s.lnc.focus.released = false)) := by
    simp only [Bool.or_eq_true, Bool.and_eq_true, Bool.not_eq_true', beq_iff_eq, Bool.eq_false_iff]
    tauto
  rw [if_neg (by simp; tauto), if_congr refused rfl rfl, ite_not]

/-- A named target or a T out of range is a bad value. -/
theorem reqLensGoto_badValue (named : z = true ∨ f = true)
    (out : ¬ ((z = true → zt ≤ 4095) ∧ (f = true → ft ≤ 4095) ∧ 1 ≤ t ∧ t ≤ 600)) : reqLensGoto p s = refuse s .badValue := by
  unfold reqLensGoto
  rw [gotoAxes_iff.mpr ⟨fields.axes, named⟩, fields.zoom, fields.focus]
  by_cases duration : 1 ≤ t ∧ t ≤ 600
  · rw [rangeAt_of_num fields.duration duration.1 duration.2]
    dsimp only
    rw [if_pos]
    by_contra taken
    simp at taken
    exact out ⟨by tauto, by tauto, duration⟩
  · rw [rangeAt_none fields.duration duration]

end

/-- An axis set that names no axis, or another bit, is a bad value. -/
theorem reqLensGoto_noAxes {p : List Byte} (none : gotoAxes p = none) : reqLensGoto p s = refuse s .badValue := by
  rw [reqLensGoto, none]

end

/-- Settles O18: each request is what its fields make of it, and an ending leaves what the new mode is made of. -/
theorem lensMotionTaken : Obligations.LensMotionTaken := by
  unfold Obligations.LensMotionTaken
  intro tag s ready on rate setZoom setFocus
  have enabled : offUnless s.pwc.enables.lnc = none := offUnless_on on
  refine ⟨fun v least greatest => ?_, ⟨?_, ?_⟩, fun axes zt ft t ha hz hf ht => ?_, fun z f zt ft t named hz hf zoomRange focusRange least
    greatest run lens zoomHeld focusHeld => ?_, ?_⟩
  · intro zoom focus may
    have zoomRate := State.takeRate_eq (s := s) least greatest .zoom
    have focusRate := State.takeRate_eq (s := s) least greatest .focus
    refine ⟨fun held => ?_, fun held => ?_, fun held => ?_, fun held => ?_⟩
    · exact answers_ok ready rfl ⟨le_rfl, le_rfl⟩ enabled (zoomRate.trans (if_pos held)) (s.endMove_inbound ..)
    · exact answers_refused ready rfl ⟨le_rfl, le_rfl⟩ enabled (zoomRate.trans (if_neg held))
    · exact answers_ok ready rfl ⟨le_rfl, le_rfl⟩ enabled (focusRate.trans (if_pos held)) (s.endMove_inbound ..)
    · exact answers_refused ready rfl ⟨le_rfl, le_rfl⟩ enabled (focusRate.trans (if_neg held))
  · exact answers_refused ready rfl ⟨le_rfl, le_rfl⟩ enabled rfl
  · exact answers_refused ready rfl ⟨le_rfl, le_rfl⟩ enabled rfl
  · intro goto good may
    have fields := GotoFields.written ha hz hf ht
    refine ⟨fun bad => answers_refused ready rfl ⟨le_rfl, le_rfl⟩ enabled ?_, fun fine mayNot =>
      answers_refused ready rfl ⟨le_rfl, le_rfl⟩ enabled ?_⟩
    · cases axesAt : gotoAxes (u8 axes ++ u16 zt ++ u16 ft ++ u16 t) with
      | none => exact reqLensGoto_noAxes axesAt
      | some zf =>
        obtain ⟨set, named⟩ := (gotoAxes_iff (z := zf.1) (f := zf.2)).mp axesAt
        rw [fields.axes] at set
        exact reqLensGoto_badValue (set ▸ fields) named fun ⟨zoomRange, focusRange, least, greatest⟩ =>
          bad ⟨zf.1, zf.2, set, named, zoomRange, focusRange, least, greatest⟩
    · obtain ⟨z, f, rfl, named, zoomRange, focusRange, least, greatest⟩ := fine
      refine (reqLensGoto_eq fields named zoomRange focusRange least greatest).trans (if_neg fun taken => mayNot ?_)
      obtain ⟨run, lens, zoomHeld, focusHeld⟩ := taken
      refine ⟨run, lens, fun other => zoomHeld ?_, fun other => focusHeld ?_⟩
      · cases z
        · exact absurd (by rw [named.resolve_left (by decide)]; rfl) other
        · rfl
      · cases f
        · exact absurd (by rw [named.resolve_right (by decide)]; rfl) other
        · rfl
  · intro p1 needs used move u u' told
    have fields := GotoFields.written (axes := packFlags [z, f]) (by cases z <;> cases f <;> decide) hz hf
      (show t ≤ 65535 by omega)
    have taken := (reqLensGoto_eq (s := s) fields named zoomRange focusRange least greatest).trans
      (if_pos ⟨run, lens, zoomHeld, focusHeld⟩)
    have onZoom : (if z then s.moveDrive .zoom zt used .goto else s) = u := by
      simp only [u, State.moveDrive_eq]
      rfl
    have focusKept : u.lnc.focus = s.lnc.focus := by
      rw [← onZoom]
      split
      · exact s.moveDrive_zoom_focus ..
      · rfl
    have onFocus : (if f then u.moveDrive .focus ft used .goto else u) = u' := by
      simp only [u', State.moveDrive_eq, ← focusKept]
      rfl
    have inbound : u'.lnk.inbound = s.lnk.inbound := by
      rw [← onFocus, ← onZoom]
      cases z <;> cases f <;> simp [State.moveDrive_inbound]
    refine answers_ok ready rfl ⟨le_rfl, le_rfl⟩ enabled (taken.trans ?_) inbound
    rw [← onFocus, ← onZoom]
    rfl
  · intro halt u u'
    obtain ⟨focusKept, latest, reported⟩ := s.stopDrive_zoom_lnc
    have onZoom : s.stopDrive .zoom = u := s.stopDrive_eq .zoom
    have onFocus : (s.stopDrive .zoom).stopDrive .focus = u' := by
      rw [State.stopDrive_eq, Lnc.reportedAt, latest, reported, Lnc.servo, focusKept, onZoom]
      rfl
    refine answers_ok ready rfl ⟨le_rfl, le_rfl⟩ enabled (u := u'.endMove .iris .interrupted) ?_ ?_
    · rw [← onFocus]
      rfl
    · rw [State.endMove_inbound, ← onFocus, State.stopDrive_inbound, State.stopDrive_inbound]

end Sys2Proof.Machine

namespace Sys2Proof.Machine

/-! ## Presets, iris, curve and configuration (R36, R37, R40, R42, R43) -/

/-! ### Series of numbers in a payload -/

/-- Where a series of `n`-byte numbers was written, its `i`-th number is read. -/
theorem num_series {n : Nat} {xs : List Nat} (fits : ∀ x ∈ xs, x < 256 ^ n) (front back : List Byte) {i : Nat} (h : i < xs.length) :
    num (front ++ ((xs.map (beBytes n)).flatten ++ back)) (front.length + n * i) n = xs[i] := by
  have cut : (xs.map (beBytes n)).flatten =
      ((xs.take i).map (beBytes n)).flatten ++ (beBytes n xs[i] ++ ((xs.drop (i + 1)).map (beBytes n)).flatten) := by
    calc (xs.map (beBytes n)).flatten = ((xs.take i ++ xs[i] :: xs.drop (i + 1)).map (beBytes n)).flatten := by
          rw [← List.drop_eq_getElem_cons h, List.take_append_drop]
      _ = _ := by rw [List.map_append, List.map_cons, List.flatten_append, List.flatten_cons]
  have before : ((xs.take i).map (beBytes n)).flatten.length = n * i := by
    simp [List.length_flatten, Function.comp_def, Nat.min_eq_left h.le, Nat.mul_comm]
  have read := num_field (front ++ ((xs.take i).map (beBytes n)).flatten) (((xs.drop (i + 1)).map (beBytes n)).flatten ++ back) n xs[i]
    (fits _ (List.getElem_mem h))
  rw [List.length_append, before] at read
  rw [cut]
  simpa only [List.append_assoc] using read

/-- A series that was written is read whole. -/
theorem range_map_series {n count : Nat} {xs : List Nat} (fits : ∀ x ∈ xs, x < 256 ^ n) (size : xs.length = count)
    (front back : List Byte) :
    (List.range count).map (fun i => num (front ++ ((xs.map (beBytes n)).flatten ++ back)) (front.length + n * i) n) = xs := by
  refine List.ext_getElem (by simp [size]) fun i _ h => ?_
  rw [List.getElem_map, List.getElem_range, num_series fits front back h]

/-! ### The zoom curve and the configuration -/

theorem reqZoomCurveLoad_eq {s : State} {knots : List Nat} (size : knots.length = 17) (fits : ∀ k ∈ knots, k ≤ 65535) :
    reqZoomCurveLoad (knots.map u16).flatten s =
      if ∀ k ∈ knots, 100 ≤ k ∧ k ≤ 32767 then answerOk (s.modifyLnc (fun l => { l with curve := knots })) []
      else refuse s .badValue := by
  have read := range_map_series (n := 2) (fun k mem => by have := fits k mem; omega) size [] []
  simp only [List.nil_append, List.append_nil, List.length_nil, zero_add] at read
  unfold reqZoomCurveLoad
  dsimp only [u16]
  rw [show (fun i => num (List.map u16 knots).flatten (2 * i) 2) = fun i => num (List.map (beBytes 2) knots).flatten (2 * i) 2 from rfl, read]
  simp only [List.all_eq_true, Bool.and_eq_true, decide_eq_true_eq]

/-- A speed table falls nowhere when no speed is below an earlier one. -/
theorem neverFalls_iff : ∀ speeds : List Nat, neverFalls speeds = true ↔ speeds.Pairwise (· ≤ ·)
  | [] => by simp [neverFalls]
  | [x] => by simp [neverFalls]
  | x :: y :: rest => by
    rw [neverFalls, Bool.and_eq_true, decide_eq_true_eq, neverFalls_iff (y :: rest), List.pairwise_cons (a := x)]
    constructor
    · rintro ⟨le, rises⟩
      refine ⟨fun z mem => ?_, rises⟩
      rcases List.mem_cons.mp mem with rfl | mem
      · exact le
      · exact le.trans ((List.pairwise_cons.mp rises).1 z mem)
    · rintro ⟨first, rises⟩
      exact ⟨first y (List.mem_cons_self ..), rises⟩

/-- The limits and the speed table of one drive that LENS_CONFIG takes (R43). -/
abbrev configGood (least greatest : Nat) (speeds : List Nat) : Prop :=
  least < greatest ∧ greatest ≤ 4095 ∧ speeds.Pairwise (· ≤ ·) ∧ speeds.getLast? ≠ some 0

/-- A drive's part of LENS_CONFIG reads as the limits and the speed table written there. -/
theorem configAt_written {least greatest : Nat} {speeds : List Nat} (hl : least ≤ 65535) (hg : greatest ≤ 65535)
    (size : speeds.length = 9) (fits : ∀ x ∈ speeds, x ≤ 255) (front back : List Byte) :
    configAt (front ++ (u16 least ++ (u16 greatest ++ ((speeds.map u8).flatten ++ back)))) front.length =
      if configGood least greatest speeds then some (least, greatest, speeds) else none := by
  have leastAt : num (front ++ (u16 least ++ (u16 greatest ++ ((speeds.map u8).flatten ++ back)))) front.length 2 = least :=
    num_field front _ 2 least (by omega)
  have greatestAt : num (front ++ (u16 least ++ (u16 greatest ++ ((speeds.map u8).flatten ++ back)))) (front.length + 2) 2 =
      greatest := by
    simpa [u16] using num_field (front ++ u16 least) ((speeds.map u8).flatten ++ back) 2 greatest (by omega)
  have speedsAt : (List.range 9).map (fun i =>
      num (front ++ (u16 least ++ (u16 greatest ++ ((speeds.map u8).flatten ++ back)))) (front.length + 4 + i) 1) = speeds := by
    have read := range_map_series (n := 1) (fun k mem => by have := fits k mem; omega) size (front ++ u16 least ++ u16 greatest) back
    simp only [List.length_append, u16_length, one_mul, List.append_assoc] at read
    exact read
  have top : speeds[8]?.getD 0 ≠ 0 ↔ speeds.getLast? ≠ some 0 := by
    rw [List.getLast?_eq_getElem?, size]
    simp [size]
  have good : (decide (greatest ≤ 4095) && decide (least < greatest) && neverFalls speeds && speeds[8]?.getD 0 != 0) = true ↔
      configGood least greatest speeds := by
    simp only [Bool.and_eq_true, decide_eq_true_eq, bne_iff_ne, neverFalls_iff, top]
    tauto
  unfold configAt
  dsimp only
  rw [leastAt, greatestAt, speedsAt, if_congr good rfl rfl]

theorem reqLensConfig_eq {s : State} {zl zg fl fg : Nat} {zs fs : List Nat} (hzl : zl ≤ 65535) (hzg : zg ≤ 65535) (hfl : fl ≤ 65535)
    (hfg : fg ≤ 65535) (zSize : zs.length = 9) (fSize : fs.length = 9) (fits : ∀ x ∈ zs ++ fs, x ≤ 255) :
    reqLensConfig (u16 zl ++ u16 zg ++ (zs.map u8).flatten ++ u16 fl ++ u16 fg ++ (fs.map u8).flatten) s =
      if configGood zl zg zs ∧ configGood fl fg fs then
        answerOk (s.modifyLnc (fun l => { l with
          zoom := { l.zoom with least := zl, greatest := zg, speeds := zs }
          focus := { l.focus with least := fl, greatest := fg, speeds := fs } })) []
      else refuse s .badValue := by
  have zoom := configAt_written hzl hzg zSize (fun x mem => fits x (List.mem_append_left _ mem)) []
    (u16 fl ++ u16 fg ++ (fs.map u8).flatten)
  have focus := configAt_written hfl hfg fSize (fun x mem => fits x (List.mem_append_right _ mem))
    (u16 zl ++ u16 zg ++ (zs.map u8).flatten) []
  have place : (u16 zl ++ u16 zg ++ (zs.map u8).flatten).length = 13 := by
    simp [List.length_flatten, Function.comp_def, zSize]
  rw [place] at focus
  simp only [List.nil_append, List.append_nil, List.length_nil, List.append_assoc] at zoom focus ⊢
  unfold reqLensConfig
  by_cases zGood : configGood zl zg zs
  · by_cases fGood : configGood fl fg fs
    · rw [zoom, focus, if_pos (⟨zGood, fGood⟩ : configGood zl zg zs ∧ configGood fl fg fs), if_pos zGood, if_pos fGood]
      rfl
    · rw [zoom, focus, if_neg (fun both : configGood zl zg zs ∧ configGood fl fg fs => fGood both.2), if_neg fGood]
      split
      · next absent => cases absent
      · rfl
  · rw [zoom, if_neg (fun both : configGood zl zg zs ∧ configGood fl fg fs => zGood both.1), if_neg zGood]

/-! ### The iris -/

/-- The iris takes a new mode in RUN, when it is not released (R40). -/
theorem State.takeIris_eq (s : State) (f : Iris → Iris) :
    s.takeIris f =
      if s.pwc.inRun = false ∨ s.lnc.iris.released = true then refuse s .badState
      else
        let u := (s.endMove .iris .interrupted).modifyLnc (fun l => { l with iris := f l.iris })
        answerOk u u.lnc.iris.reply := by
  have still : (!s.pwc.inRun || s.lnc.iris.released) = true ↔ s.pwc.inRun = false ∨ s.lnc.iris.released = true := by
    rw [Bool.or_eq_true, Bool.not_eq_true']
  rw [State.takeIris, if_congr still rfl rfl]

theorem takeRequest_irisSet (s : State) (p : List Byte) :
    takeRequest .irisSet p s = s.takeIris (fun i => { i with auto := false, demand := num p 0 1 }) := rfl

/-- The iris starts the timed move of a recall from its demand, once the move it carries has ended (R36). -/
theorem State.moveIris_eq (s : State) (target duration : Nat) (origin : Origin) :
    s.moveIris target duration origin = (s.endMove .iris .interrupted).modifyLnc (fun l => { l with iris := { l.iris with
      auto := false
      move := some { p0 := s.lnc.iris.demand, p1 := target, duration := duration, phase := .ramp 0, origin := origin } } }) := by
  have demand := s.endMove_iris_demand .iris .interrupted
  rw [← demand]
  rfl

theorem reqIrisAuto_eq {s : State} {target deadband : Nat} (ht : target ≤ 255) (hd : deadband ≤ 255) :
    reqIrisAuto (u8 target ++ u8 deadband) s =
      if deadband ≤ 16 then s.takeIris (fun i => { i with auto := true, target := target, deadband := deadband })
      else refuse s .badValue := by
  have targetAt : num (u8 target ++ u8 deadband) 0 1 = target := num_field [] (u8 deadband) 1 target (by omega)
  have deadbandAt : num (u8 target ++ u8 deadband) 1 1 = deadband := by
    simpa [u8] using num_field (u8 target) [] 1 deadband (by omega)
  unfold reqIrisAuto
  rw [targetAt]
  by_cases small : deadband ≤ 16
  · rw [rangeAt_of_num deadbandAt (Nat.zero_le _) small, if_pos small]
  · rw [rangeAt_none deadbandAt (by omega), if_neg small]

/-! ### Presets -/

/-- What the first three fields of PRESET_STORE are read as. -/
structure StoreFields (p : List Byte) (i source irisToo : Nat) : Prop where
  preset : num p 0 1 = i
  source : num p 1 1 = source
  flag : num p 2 1 = irisToo

theorem StoreFields.written {i source irisToo : Nat} (hi : i ≤ 255) (hs : source ≤ 255) (hf : irisToo ≤ 255) (back : List Byte) :
    StoreFields (u8 i ++ (u8 source ++ (u8 irisToo ++ back))) i source irisToo where
  preset := num_field [] _ 1 i (by omega)
  source := num_field (u8 i) _ 1 source (by omega)
  flag := num_field (u8 i ++ u8 source) _ 1 irisToo (by omega)

/-- What the explicit positions of PRESET_STORE are read as. -/
structure ExplicitFields (p : List Byte) (zoom focus iris : Nat) : Prop where
  zoom : num p 3 2 = zoom
  focus : num p 5 2 = focus
  iris : iris ≤ 255 → num p 7 1 = iris

theorem ExplicitFields.written {zoom focus : Nat} (hz : zoom ≤ 65535) (hf : focus ≤ 65535) (iris : Nat) {front : List Byte}
    (three : front.length = 3) : ExplicitFields (front ++ (u16 zoom ++ (u16 focus ++ u8 iris))) zoom focus iris where
  zoom := by simpa [three, u16] using num_field front (u16 focus ++ u8 iris) 2 zoom (by omega)
  focus := by simpa [three, u16] using num_field (front ++ u16 zoom) (u8 iris) 2 focus (by omega)
  iris hi := by simpa [three, u16, u8] using num_field (front ++ u16 zoom ++ u16 focus) [] 1 iris (by omega)

section
variable {s : State} {p : List Byte} {i : Nat} {irisToo : Bool}

/-- A preset is stored from the report of a lens that is PRESENT (R37). -/
theorem reqPresetStore_report (fields : StoreFields p i 0 (if irisToo then 1 else 0)) (hi : i ≤ 7) :
    reqPresetStore p s =
      if s.lnc.lens = .present then
        s.storePreset i { zoom := s.lnc.latest.zoom, focus := s.lnc.latest.focus,
                          iris := if irisToo then some s.lnc.latest.iris else none }
      else refuse s .badState := by
  have absent : (s.lnc.lens != .present) = true ↔ ¬ s.lnc.lens = .present := bne_iff_ne
  unfold reqPresetStore
  rw [rangeAt_of_num fields.preset (Nat.zero_le _) hi, fields.source, flagAt_of_num fields.flag]
  exact (if_congr absent rfl rfl).trans (ite_not ..)

/-- A preset is stored with explicit positions in range (R37). -/
theorem reqPresetStore_explicit {zoom focus iris : Nat} (fields : StoreFields p i 1 (if irisToo then 1 else 0))
    (explicit : ExplicitFields p zoom focus iris) (hi : i ≤ 7) (hz : zoom ≤ 4095) (hf : focus ≤ 4095) (hx : iris ≤ 255) :
    reqPresetStore p s = s.storePreset i { zoom := zoom, focus := focus, iris := if irisToo then some iris else none } := by
  unfold reqPresetStore
  rw [rangeAt_of_num fields.preset (Nat.zero_le _) hi, fields.source, flagAt_of_num fields.flag,
    rangeAt_of_num explicit.zoom (Nat.zero_le _) hz, rangeAt_of_num explicit.focus (Nat.zero_le _) hf, explicit.iris hx]
  rfl

/-- A preset, a source, a flag or an explicit position out of range is a bad value. -/
theorem reqPresetStore_badValue {source flag zoom focus iris : Nat} (fields : StoreFields p i source flag)
    (explicit : ExplicitFields p zoom focus iris)
    (out : 7 < i ∨ 1 < source ∨ 1 < flag ∨ (source = 1 ∧ (4095 < zoom ∨ 4095 < focus))) : reqPresetStore p s = refuse s .badValue := by
  unfold reqPresetStore
  rw [fields.source]
  by_cases hi : i ≤ 7
  · rw [rangeAt_of_num fields.preset (Nat.zero_le _) hi]
    by_cases hf : flag ≤ 1
    · have known : flagAt p 2 = some (decide (flag = 1)) := by
        refine flagAt_of_num (fields.flag.trans ?_)
        split <;> simp at * <;> omega
      rw [known]
      rcases Nat.lt_or_ge 1 source with above | within
      · obtain ⟨k, rfl⟩ : ∃ k, source = k + 2 := ⟨source - 2, by omega⟩
        rfl
      · have positions : source = 1 ∧ (4095 < zoom ∨ 4095 < focus) := by omega
        obtain ⟨rfl, above⟩ := positions
        rcases above with above | above
        · rw [rangeAt_none explicit.zoom (by omega)]
          rfl
        · rw [rangeAt_none explicit.focus (by omega)]
          cases rangeAt p 3 2 0 4095 <;> rfl
    · rw [flagAt_none (by rw [fields.flag]; omega)]
      rcases source with _ | _ | source <;> rfl
  · rw [rangeAt_none fields.preset (by omega)]

end

section
variable {s : State} {i t : Nat} (hi : i ≤ 255) (ht : t ≤ 65535)
include hi ht

/-- A valid preset and a T in range are judged by the states, and the axes enter MOVE (R36). -/
theorem reqPresetRecall_eq {x : Preset} (valid : s.lnc.presets[i]? = some (some x)) (known : i ≤ 7) (least : 1 ≤ t) (greatest : t ≤ 600) :
    reqPresetRecall (u8 i ++ u16 t) s =
      if s.pwc.inRun = false ∨ s.lnc.lens = .lost ∨ s.lnc.zoom.released = true ∨ s.lnc.focus.released = true ∨
          (x.iris.isSome = true ∧ s.lnc.iris.released = true) then refuse s .badState
      else s.recall i x t := by
  have presetAt : num (u8 i ++ u16 t) 0 1 = i := num_field [] (u16 t) 1 i (by omega)
  have durationAt : num (u8 i ++ u16 t) 1 2 = t := by simpa [u16] using num_field (u8 i) [] 2 t (by omega)
  have refused : (!s.pwc.inRun || s.lnc.lens == .lost || s.lnc.zoom.released || s.lnc.focus.released ||
      (x.iris.isSome && s.lnc.iris.released)) = true ↔
      s.pwc.inRun = false ∨ s.lnc.lens = .lost ∨ s.lnc.zoom.released = true ∨ s.lnc.focus.released = true ∨
        (x.iris.isSome = true ∧ s.lnc.iris.released = true) := by
    simp only [Bool.or_eq_true, Bool.and_eq_true, Bool.not_eq_true', beq_iff_eq, or_assoc]
  unfold reqPresetRecall
  rw [rangeAt_of_num presetAt (Nat.zero_le _) known, rangeAt_of_num durationAt least greatest]
  dsimp only
  rw [valid, show (some (some x)).join = some x from rfl]
  exact if_congr refused rfl rfl

/-- A preset that is not valid, or a field out of range, is a bad value. -/
theorem reqPresetRecall_badValue (out : 7 < i ∨ t < 1 ∨ 600 < t ∨ ∀ x, s.lnc.presets[i]? ≠ some (some x)) :
    reqPresetRecall (u8 i ++ u16 t) s = refuse s .badValue := by
  have presetAt : num (u8 i ++ u16 t) 0 1 = i := num_field [] (u16 t) 1 i (by omega)
  have durationAt : num (u8 i ++ u16 t) 1 2 = t := by simpa [u16] using num_field (u8 i) [] 2 t (by omega)
  unfold reqPresetRecall
  by_cases known : i ≤ 7
  · rw [rangeAt_of_num presetAt (Nat.zero_le _) known]
    by_cases duration : 1 ≤ t ∧ t ≤ 600
    · have invalid : (s.lnc.presets[i]?).join = none := by
        cases held : (s.lnc.presets[i]?).join with
        | none => rfl
        | some x =>
          have valid := Option.join_eq_some_iff.mp held
          exact absurd valid ((out.resolve_left (by omega)).resolve_left (by omega) |>.resolve_left (by omega) <| x)
      rw [rangeAt_of_num durationAt duration.1 duration.2]
      dsimp only
      rw [invalid]
    · rw [rangeAt_none durationAt duration]
  · rw [rangeAt_none presetAt (by omega)]

end

/-! ### The requests -/

/-- An ending on zoom or focus leaves the iris. -/
theorem State.moveDrive_iris (s : State) (d : Drive) (target duration : Nat) (origin : Origin) :
    (s.moveDrive d target duration origin).lnc.iris = s.lnc.iris := by
  have kept : (s.endMove d.axis .interrupted).lnc.iris = s.lnc.iris := by
    unfold State.endMove
    split
    · rfl
    · cases d <;> rfl
  rw [State.moveDrive_eq]
  cases d <;> exact kept

/-- A recall moves zoom and focus, and the iris when the preset holds a value for it (R36). -/
theorem State.recall_eq (s : State) (i : Nat) (x : Preset) (t : Nat) :
    s.recall i x t =
      let used := max t (max (s.lnc.zoom.needs x.zoom) (s.lnc.focus.needs x.focus))
      let v := (s.moveDrive .zoom x.zoom used (.recall i)).moveDrive .focus x.focus used (.recall i)
      answerOk (x.iris.elim v (fun iris => v.moveIris iris used (.recall i)))
        (s.lnc.zoom.targetReply x.zoom ++ s.lnc.focus.targetReply x.focus ++ presence 1 (x.iris.map u8) ++ u16 used ++
          flagByte (used != t)) := by
  unfold State.recall
  cases x.iris <;> rfl

theorem length_curvePayload {knots : List Nat} (size : knots.length = 17) : (knots.map u16).flatten.length = 34 := by
  simp [List.length_flatten, Function.comp_def, size]

theorem length_configPayload {zs fs : List Nat} (zl zg fl fg : Nat) (zSize : zs.length = 9) (fSize : fs.length = 9) :
    (u16 zl ++ u16 zg ++ (zs.map u8).flatten ++ u16 fl ++ u16 fg ++ (fs.map u8).flatten).length = 26 := by
  simp [List.length_flatten, Function.comp_def, zSize, fSize]

/-- Settles O19: each request is what its fields make of it, and an ending leaves what the new moves are made of. -/
theorem lensSettingsTaken : Obligations.LensSettingsTaken := by
  unfold Obligations.LensSettingsTaken
  refine ⟨fun tag i s ready on known => ?_, fun tag s ready on => ⟨?_, fun i t hi ht => ⟨fun out => ?_, ?_⟩⟩,
    fun tag s ready on => ⟨fun x target deadband hx htg hd => ⟨fun still => ?_, fun wide => ?_, fun small still => ?_⟩, ?_, ?_⟩,
    fun tag s ready on => ?_⟩
  · have enabled : offUnless s.pwc.enables.lnc = none := offUnless_on on
    intro stored told
    have fields (source : Nat) (small : source ≤ 1) (irisToo : Bool) (back : List Byte) :
        StoreFields (u8 i ++ u8 source ++ flagByte irisToo ++ back) i source (if irisToo then 1 else 0) := by
      simpa only [List.append_assoc, flagByte] using StoreFields.written (by omega) (by omega) (by split <;> omega) back
    have fits (source : Nat) (irisToo : Bool) {back : List Byte} (size : back.length = 5) :
        (u8 i ++ u8 source ++ flagByte irisToo ++ back).length = 8 := by simp [flagByte, size]
    refine ⟨fun irisToo rest present size => ?_, fun irisToo zoom focus iris hz hf hx => ?_, fun irisToo rest absent size => ?_,
      fun x t valid least greatest run lens zoomHeld focusHeld irisHeld => ?_⟩
    · exact answers_ok ready rfl ⟨(fits 0 irisToo size).ge, (fits 0 irisToo size).le⟩ enabled
        ((reqPresetStore_report (fields 0 (by decide) irisToo rest) known).trans (if_pos present)) rfl
    · have head := fields 1 le_rfl irisToo (u16 zoom ++ (u16 focus ++ u8 iris))
      have explicit := ExplicitFields.written (zoom := zoom) (focus := focus) (by omega) (by omega) iris
        (front := u8 i ++ u8 1 ++ flagByte irisToo) rfl
      simp only [← List.append_assoc] at head explicit
      exact answers_ok ready rfl ⟨le_rfl, le_rfl⟩ enabled (reqPresetStore_explicit head explicit known hz hf hx) rfl
    · exact answers_refused ready rfl ⟨(fits 0 irisToo size).ge, (fits 0 irisToo size).le⟩ enabled
        ((reqPresetStore_report (fields 0 (by decide) irisToo rest) known).trans (if_neg absent))
    · intro p1 needs used move u1 u2 u3 u4 u5 target
      have taken := (reqPresetRecall_eq (s := s) (t := t) (by omega) (by omega) valid known least greatest).trans
        (if_neg (by simpa [run, lens, zoomHeld, focusHeld] using irisHeld))
      have onZoom : s.moveDrive .zoom x.zoom used (.recall i) = u2 := s.moveDrive_eq ..
      have onFocus : (s.moveDrive .zoom x.zoom used (.recall i)).moveDrive .focus x.focus used (.recall i) = u4 := by
        rw [State.moveDrive_eq (d := .focus), Lnc.servo, State.moveDrive_zoom_focus, onZoom]
        rfl
      have irisKept : u4.lnc.iris = s.lnc.iris := by
        rw [← onFocus, State.moveDrive_iris, State.moveDrive_iris]
      have inbound : u4.lnk.inbound = s.lnk.inbound := by
        rw [← onFocus, State.moveDrive_inbound, State.moveDrive_inbound]
      have onIris : x.iris.elim u4 (fun iris => u4.moveIris iris used (.recall i)) = u5 := by
        cases held : x.iris with
        | none =>
          simp only [u5, held]
          rfl
        | some iris =>
          simp only [u5, held]
          exact (u4.moveIris_eq ..).trans (by rw [irisKept]; rfl)
      refine answers_ok ready rfl ⟨le_rfl, le_rfl⟩ enabled (u := u5) ?_ ?_
      · rw [← onIris, ← onFocus]
        exact taken.trans (s.recall_eq i x t)
      · rw [← onIris]
        cases x.iris with
        | none => exact inbound
        | some iris => exact (State.endMove_inbound u4 .iris .interrupted).trans inbound
  · intro i source irisToo zoom focus iris hi hs hi' hz hf out
    have head := StoreFields.written hi hs hi' (u16 zoom ++ (u16 focus ++ u8 iris))
    have explicit := ExplicitFields.written hz hf iris (front := u8 i ++ u8 source ++ u8 irisToo) rfl
    simp only [← List.append_assoc] at head explicit
    exact answers_refused ready rfl ⟨le_rfl, le_rfl⟩ (offUnless_on on) (reqPresetStore_badValue head explicit out)
  · exact answers_refused ready rfl ⟨le_rfl, le_rfl⟩ (offUnless_on on) (reqPresetRecall_badValue hi ht out)
  · intro x known least greatest valid refused
    exact answers_refused ready rfl ⟨le_rfl, le_rfl⟩ (offUnless_on on)
      ((reqPresetRecall_eq hi ht valid known least greatest).trans (if_pos refused))
  · exact answers_refused ready rfl ⟨le_rfl, le_rfl⟩ (offUnless_on on)
      ((takeRequest_irisSet s _).trans ((s.takeIris_eq _).trans (if_pos still)))
  · exact answers_refused ready rfl ⟨le_rfl, le_rfl⟩ (offUnless_on on) ((reqIrisAuto_eq htg hd).trans (if_neg (by omega)))
  · exact answers_refused ready rfl ⟨le_rfl, le_rfl⟩ (offUnless_on on)
      (((reqIrisAuto_eq htg hd).trans (if_pos small)).trans ((s.takeIris_eq _).trans (if_pos still)))
  · rintro knots size fits ⟨k, mem, out⟩
    have length := length_curvePayload size
    exact answers_refused ready rfl ⟨length.ge, length.le⟩ (offUnless_on on)
      ((reqZoomCurveLoad_eq size fits).trans (if_neg fun good => by have := good k mem; omega))
  · intro zl zg fl fg zs fs hzl hzg hfl hfg zSize fSize fits out
    have length := length_configPayload zl zg fl fg zSize fSize
    refine answers_refused ready rfl ⟨length.ge, length.le⟩ (offUnless_on on)
      ((reqLensConfig_eq hzl hzg hfl hfg zSize fSize fits).trans (if_neg ?_))
    rintro ⟨⟨zLess, zMost, zRises, zTop⟩, fLess, fMost, fRises, fTop⟩
    rcases out with out | out | out | out | out | out | out | out
    · omega
    · omega
    · omega
    · omega
    · exact out zRises
    · exact out fRises
    · exact zTop out
    · exact fTop out
  · have enabled : offUnless s.pwc.enables.lnc = none := offUnless_on on
    have takes (f : Iris → Iris) (run : s.pwc.inRun = true) (held : s.lnc.iris.released = false) :=
      (s.takeIris_eq f).trans (if_neg (by simp [run, held]))
    intro u
    refine ⟨fun x run held => ?_, fun target deadband htg hd run held => ?_, fun knots size fits => ?_, ?_⟩
    · refine answers_ok ready rfl ⟨le_rfl, le_rfl⟩ enabled
        ((takeRequest_irisSet s [x]).trans ((takes _ run held).trans ?_)) (s.endMove_inbound .iris .interrupted)
      have reply : flagByte false ++ u8 x.toNat = [0, x] := congrArg (flagByte false ++ ·) (u8_toNat x)
      rw [num_head, ← reply]
      rfl
    · refine answers_ok ready rfl ⟨le_rfl, le_rfl⟩ enabled
        (((reqIrisAuto_eq htg (by omega)).trans (if_pos hd)).trans ((takes _ run held).trans ?_))
        (s.endMove_inbound .iris .interrupted)
      rw [← s.endMove_iris_demand .iris .interrupted]
      rfl
    · have length := length_curvePayload size
      exact answers_ok ready rfl ⟨length.ge, length.le⟩ enabled
        ((reqZoomCurveLoad_eq size fun k mem => by have := fits k mem; omega).trans (if_pos fits)) rfl
    · intro zl zg fl fg zs fs zLess zMost fLess fMost zSize fSize fits zRises fRises zTop fTop
      have length := length_configPayload zl zg fl fg zSize fSize
      exact answers_ok ready rfl ⟨length.ge, length.le⟩ enabled
        ((reqLensConfig_eq (by omega) (by omega) (by omega) (by omega) zSize fSize fits).trans
          (if_pos ⟨⟨zLess, zMost, zRises, zTop⟩, fLess, fMost, fRises, fTop⟩)) rfl

end Sys2Proof.Machine

namespace Sys2Proof.Machine

/-! # Tile sets and the correlator (R41, R50 to R53) -/

/-! ## The candidates in scan order -/

/-- Rows of values along a row, as one list. -/
theorem flatten_range_mul {α : Type} (g : Nat → Nat → α) {n : Nat} (pos : 0 < n) (m : Nat) :
    ((List.range m).map (fun y => (List.range n).map (g y))).flatten = (List.range (m * n)).map (fun i => g (i / n) (i % n)) := by
  induction m with
  | zero => simp
  | succ m ih =>
    rw [Nat.succ_mul, List.range_succ, List.map_append, List.flatten_append, ih, List.range_add, List.map_append, List.map_map]
    congr 1
    simp only [List.map_cons, List.map_nil, List.flatten_cons, List.flatten_nil, List.append_nil]
    refine List.map_congr_left fun x mem => ?_
    have less := List.mem_range.mp mem
    simp only [Function.comp_apply]
    rw [Nat.add_comm, Nat.add_mul_div_right _ _ pos, Nat.div_eq_of_lt less, Nat.zero_add, Nat.add_mul_mod_self_right,
      Nat.mod_eq_of_lt less]

/-- The candidate at place `i` of the scan (R52). -/
def candidateAt (a b : List Byte) (i : Nat) : Candidate :=
  { dx := ((i % 15 : Nat) : Int) - 7, dy := ((i / 15 : Nat) : Int) - 4, sad := sadAt (tileRows a) (tileRows b) (i % 15) (i / 15) }

theorem candidatesOf_eq (a b : List Byte) : candidatesOf a b = (List.range 135).map (candidateAt a b) :=
  flatten_range_mul (fun j i => ({ dx := (i : Int) - 7, dy := (j : Int) - 4, sad := sadAt (tileRows a) (tileRows b) i j } : Candidate))
    (by decide) 9

theorem candidatesOf_length (a b : List Byte) : (candidatesOf a b).length = 135 := by
  rw [candidatesOf_eq, List.length_map, List.length_range]

theorem candidatesOf_scanned (a b : List Byte) : (candidatesOf a b).Pairwise Candidate.scannedBefore := by
  rw [candidatesOf_eq, List.pairwise_map]
  refine List.pairwise_lt_range.imp fun {i j} less => ?_
  simp only [Candidate.scannedBefore, candidateAt]
  omega

/-- The SAD of an offset within the search range is a candidate's, and of one outside it is absent (R52). -/
theorem sadOf_candidatesOf (a b : List Byte) (x y : Int) :
    (x.natAbs ≤ 7 ∧ y.natAbs ≤ 4 → ∃ c ∈ candidatesOf a b, c.dx = x ∧ c.dy = y ∧ sadOf (candidatesOf a b) x y = some c.sad) ∧
    (¬ (x.natAbs ≤ 7 ∧ y.natAbs ≤ 4) → sadOf (candidatesOf a b) x y = none) := by
  unfold sadOf
  constructor
  · rintro ⟨hx, hy⟩
    have stands : candidateAt a b (15 * (y + 4).toNat + (x + 7).toNat) ∈ candidatesOf a b := by
      rw [candidatesOf_eq]
      exact List.mem_map_of_mem (List.mem_range.mpr (by omega))
    have there : ((candidatesOf a b).find? (fun c => c.dx == x && c.dy == y)).isSome := by
      refine List.find?_isSome.mpr ⟨_, stands, ?_⟩
      simp only [candidateAt, Bool.and_eq_true, beq_iff_eq]
      omega
    obtain ⟨c, found⟩ := Option.isSome_iff_exists.mp there
    have at' := List.find?_some found
    simp only [Bool.and_eq_true, beq_iff_eq] at at'
    exact ⟨c, List.mem_of_find?_eq_some found, at'.1, at'.2, by rw [found]; rfl⟩
  · intro out
    rw [List.find?_eq_none.mpr fun c mem at' => ?_]
    · rfl
    · obtain ⟨i, j, hi, hj, dx, dy, -⟩ := mem_candidatesOf mem
      simp only [Bool.and_eq_true, beq_iff_eq] at at'
      omega

theorem distance_natAbs (x y : Nat) : distance x y = ((x : Int) - y).natAbs := by
  unfold distance
  split <;> omega

/-! ## The record -/

/-- The record's four best are the first four of the ascending order. -/
theorem correlate_best (o n : TileSet) : (correlate o n).best = (bySad (candidatesOf o.pixels n.pixels)).take 4 := by
  rw [correlate]

theorem correlate_best_length (o n : TileSet) : (correlate o n).best.length = 4 := by
  rw [correlate_best, List.length_take, (perm_bySad _).length_eq, candidatesOf_length]
  decide

/-- The four best and the others are the candidates, each better than all that follow it. -/
theorem correlate_others (o n : TileSet) : ∃ others, ((correlate o n).best ++ others).Perm (candidatesOf o.pixels n.pixels) ∧
    ((correlate o n).best ++ others).Pairwise Candidate.better := by
  refine ⟨(bySad (candidatesOf o.pixels n.pixels)).drop 4, ?_, ?_⟩
  · rw [correlate_best, List.take_append_drop]
    exact perm_bySad _
  · rw [correlate_best, List.take_append_drop]
    exact better_bySad _ (candidatesOf_scanned ..)

theorem Candidate.better.sad_le {c d : Candidate} (h : c.better d) : c.sad ≤ d.sad := by
  rcases h with less | ⟨same, -⟩
  · exact less.le
  · exact same.le

/-- The best candidate has no larger SAD than any. -/
theorem correlate_head {o n : TileSet} {d : Candidate} (h : (correlate o n).best.head? = some d) :
    d ∈ candidatesOf o.pixels n.pixels ∧ ∀ c ∈ candidatesOf o.pixels n.pixels, d.sad ≤ c.sad := by
  obtain ⟨others, perm, ascending⟩ := correlate_others o n
  obtain ⟨rest, first⟩ := List.head?_eq_some_iff.mp h
  rw [first, List.cons_append] at perm ascending
  refine ⟨perm.mem_iff.mp (List.mem_cons_self ..), fun c mem => ?_⟩
  rcases List.mem_cons.mp (perm.mem_iff.mpr mem) with rfl | mem
  · exact le_rfl
  · exact ((List.pairwise_cons.mp ascending).1 c mem).sad_le

/-- The neighbours are the SADs one tile pixel from the best on each side (R52). -/
theorem correlate_sides {o n : TileSet} {d : Candidate} (h : (correlate o n).best.head? = some d) :
    (correlate o n).left = sadOf (candidatesOf o.pixels n.pixels) (d.dx + -1) (d.dy + 0) ∧
    (correlate o n).right = sadOf (candidatesOf o.pixels n.pixels) (d.dx + 1) (d.dy + 0) ∧
    (correlate o n).up = sadOf (candidatesOf o.pixels n.pixels) (d.dx + 0) (d.dy + -1) ∧
    (correlate o n).down = sadOf (candidatesOf o.pixels n.pixels) (d.dx + 0) (d.dy + 1) := by
  rw [correlate_best] at h
  unfold correlate
  dsimp only
  rw [h]
  simp [Int.sub_eq_add_neg]

/-! ## Tile sets -/

theorem tileMeanOf_eq (pixels : List Byte) : tileMeanOf pixels = (pixels.map BitVec.toNat).sum / 9216 := by
  rw [tileMeanOf, List.sum_eq_foldl, List.foldl_map]

/-- A set is accepted by its size, the latest frame start and the set before it (R50). -/
theorem State.acceptsSet_iff (s : State) (t : TileSet) : s.acceptsSet t = true ↔
    t.pixels.length = 9216 ∧ ¬ newer t.serial s.ftb.serial ∧
      ∀ o, (if s.stb.waiting.isSome then s.stb.waiting else s.stb.newer) = some o → newer t.serial o.serial := by
  have before : s.stb.lastSet = if s.stb.waiting.isSome then s.stb.waiting else s.stb.newer := by
    unfold Stb.lastSet
    cases s.stb.waiting <;> rfl
  unfold State.acceptsSet
  rw [before]
  simp only [Bool.and_eq_true, beq_iff_eq, Bool.not_eq_true', Bool.not_eq_true, and_assoc]
  cases (if s.stb.waiting.isSome then s.stb.waiting else s.stb.newer) <;> simp

/-- The record held counts as dropped if no frame start took it (R53). -/
theorem Stb.unusedResult_eq (b : Stb) : b.unusedResult = b.result.any (fun r => !r.used) := by
  unfold Stb.unusedResult
  cases b.result <;> rfl

/-- The end of a correlation (R53): the record of the two sets replaces the one held, and a waiting set is placed. -/
theorem Stb.correlated_busy {b : Stb} {o n : TileSet} (busy : b.correlating = true) (older : b.older = some o)
    (newer : b.newer = some n) :
    let ended := { b with
      result := some (correlate o n), correlating := false
      droppedResults := if b.result.any (fun r => !r.used) then min 65535 (b.droppedResults + 1) else b.droppedResults }
    (b.waiting = none → b.correlated = ended) ∧
    ∀ t, b.waiting = some t → b.correlated =
      { ended with waiting := none, older := some n, newer := some t, correlating := n.serial + 1 == t.serial } := by
  rw [← Stb.unusedResult_eq, Stb.correlated, busy, older, newer]
  cases b with
  | mk =>
    simp only at busy older newer
    subst busy older newer
    exact ⟨fun alone => by subst alone; rfl, fun t waits => by subst waits; rfl⟩

/-- Settles O21: the candidates stand in scan order, the record is cut from their ascending order, and the sets are placed as the
correlator is busy or not. -/
theorem tilesCorrelated : Obligations.TilesCorrelated := by
  unfold Obligations.TilesCorrelated
  refine ⟨fun n pixels s works rests => ?_, fun n pixels s works runs => ?_, fun s works => ⟨fun idle => ?_, fun o n busy older newer => ?_⟩,
    fun older newer olderSize newerSize => ⟨?_, fun c mem => ?_⟩⟩
  · refine becomes_act works (f := fun s => s.tileSet { serial := n, pixels := pixels }) rfl ?_
    rw [State.tileSet, rests]
    rfl
  · intro b set' before accepted note
    have accepts : s.acceptsSet set' = true ↔ accepted := s.acceptsSet_iff set'
    have takes (ok : accepted) : s.tileSet set' = (s.modifyStb (fun b => b.takeSet set')).noteMean set' := by
      rw [State.tileSet, runs, if_pos (accepts.mpr ok)]
      rfl
    have noted (v : Stb) : ({ s with stb := v } : State).noteMean set' = note { s with stb := v } := by
      unfold State.noteMean
      rw [tileMeanOf_eq]
      rfl
    refine ⟨fun bad => ?_, fun ok idle => ?_, fun ok busy => ?_⟩
    · refine becomes_act works (f := fun s => s.tileSet set') rfl ?_
      rw [State.tileSet, runs, if_neg (fun yes => bad (accepts.mp yes))]
      rfl
    · have placed : b.takeSet set' = { b with
          older := b.newer, newer := some set', correlating := b.newer.any (fun t => t.serial + 1 == n) } := by
        unfold Stb.takeSet Stb.place
        rw [idle]
        cases b.newer <;> rfl
      refine becomes_act works (f := fun s => s.tileSet set') rfl ((takes ok).trans ?_)
      rw [← placed]
      exact noted _
    · have waits : b.takeSet set' = { b with
          waiting := some set'
          droppedSets := if b.waiting.isSome then min 65535 (b.droppedSets + 1) else b.droppedSets } := by
        unfold Stb.takeSet
        rw [busy]
        cases b.waiting <;> rfl
      refine becomes_act works (f := fun s => s.tileSet set') rfl ((takes ok).trans ?_)
      rw [← waits]
      exact noted _
  · refine becomes_act works (f := fun s => s.modifyStb Stb.correlated) rfl ?_
    rw [State.modifyStb, Stb.correlated, idle]
  · intro r b
    obtain ⟨ends, endsAndPlaces⟩ := Stb.correlated_busy busy older newer
    refine ⟨⟨?_, ?_, ?_, correlate_best_length o n, ?_, correlate_others o n, ?_, fun d first => ?_⟩, fun alone => ?_, fun t waits => ?_⟩
    · simp only [r, correlate]
    · simp only [r, correlate]
    · simp only [r, correlate]
    · obtain ⟨others, -, ascending⟩ := correlate_others o n
      exact (List.pairwise_append.mp ascending).1.imp Candidate.better.sad_le
    · simp only [r, correlate]
    · obtain ⟨stands, least⟩ := correlate_head first
      have sides := correlate_sides first
      rw [← show r = correlate o n from rfl] at sides
      obtain ⟨left, right, up, down⟩ := sides
      refine ⟨stands, least, fun side mem => ?_⟩
      have neighbour {shown : Option Nat} {x y : Int} (at' : shown = sadOf (candidatesOf o.pixels n.pixels) (d.dx + x) (d.dy + y)) :
          ((d.dx + x).natAbs ≤ 7 ∧ (d.dy + y).natAbs ≤ 4 →
            ∃ c ∈ candidatesOf o.pixels n.pixels, c.dx = d.dx + x ∧ c.dy = d.dy + y ∧ shown = some c.sad) ∧
          (¬ ((d.dx + x).natAbs ≤ 7 ∧ (d.dy + y).natAbs ≤ 4) → shown = none) := at' ▸ sadOf_candidatesOf ..
      simp only [List.mem_cons, List.not_mem_nil, or_false] at mem
      rcases mem with rfl | rfl | rfl | rfl <;> dsimp only
      · exact neighbour left
      · exact neighbour right
      · exact neighbour up
      · exact neighbour down
    · exact becomes_act works (f := fun s => s.modifyStb Stb.correlated) rfl (congrArg (fun b => ({ s with stb := b } : State)) (ends alone))
    · exact becomes_act works (f := fun s => s.modifyStb Stb.correlated) rfl
        (congrArg (fun b => ({ s with stb := b } : State)) (endsAndPlaces t waits))
  · rw [candidatesOf_eq, List.map_map]
    rfl
  · obtain ⟨i, j, hi, hj, dx, dy, sad⟩ := mem_candidatesOf mem
    intro luma
    rw [sad, sadAt_eq older newer i j olderSize newerSize hi hj]
    refine congrArg List.sum (List.map_congr_left fun k mem => ?_)
    have lumaAt (pixels : List Byte) {x y : Int} {i : Nat} (place : 128 * y + x = i) :
        luma pixels x y = ((pixels.getD i 0).toNat : Int) := by
      simp only [luma, place, Int.toNat_natCast]
    dsimp only
    rw [distance_natAbs, lumaAt older (i := 128 * (k / 114 + 4) + (k % 114 + 7)) (by omega),
      lumaAt newer (i := 128 * (k / 114 + j) + (k % 114 + i)) (by rw [dx, dy]; omega)]

end Sys2Proof.Machine

namespace Sys2Proof.Machine

/-! # The Buffer Manager's frame start (R90, R96) -/

/-! ## What the lens record is read from (R29) -/

/-- The two states have the same LNC, FTB and PWC, of which alone LNC's frame start makes its record. -/
structure LensAgree (u v : State) : Prop where
  lnc : u.lnc = v.lnc
  ftb : u.ftb = v.ftb
  pwc : u.pwc = v.pwc

section
variable {u v : State}

theorem LensAgree.modifyLnc (h : LensAgree u v) (f : Lnc → Lnc) : LensAgree (u.modifyLnc f) (v.modifyLnc f) :=
  ⟨congrArg f h.lnc, h.ftb, h.pwc⟩

theorem LensAgree.notify (h : LensAgree u v) {src src' : Source} {detail detail' : List (Option Byte)} :
    LensAgree (u.notify src detail) (v.notify src' detail') := ⟨h.lnc, h.ftb, h.pwc⟩

theorem LensAgree.report (h : LensAgree u v) {src src' : Source} {detail detail' : List Byte} :
    LensAgree (u.report src detail) (v.report src' detail') := ⟨h.lnc, h.ftb, h.pwc⟩

theorem LensAgree.ite {u' v' : State} {c : Prop} [Decidable c] (h : LensAgree u v) (k : LensAgree u' v') :
    LensAgree (if c then u else u') (if c then v else v') := by
  split
  · exact h
  · exact k

theorem LensAgree.endMove (h : LensAgree u v) (axis : Axis) (status : MoveStatus) :
    LensAgree (u.endMove axis status) (v.endMove axis status) := by
  unfold State.endMove
  rw [h.lnc, h.ftb]
  cases v.lnc.moveOf axis with
  | none => exact h
  | some m => exact (h.modifyLnc _).notify

theorem LensAgree.windowExpires (h : LensAgree u v) : LensAgree u.windowExpires v.windowExpires := by
  have lost {u v : State} (h : LensAgree u v) : LensAgree u.lensLost v.lensLost := by
    unfold State.lensLost State.endMoves
    exact (((((h.modifyLnc _).report).endMove .zoom .lost).endMove .focus .lost).endMove .iris .lost).modifyLnc _
  have judged {u v : State} (h : LensAgree u v) :
      LensAgree (if u.lnc.misses == 3 && u.lnc.lens != .lost then u.lensLost else u)
        (if v.lnc.misses == 3 && v.lnc.lens != .lost then v.lensLost else v) := by
    rw [h.lnc]
    exact .ite (lost h) h
  unfold State.windowExpires State.missReport
  rw [h.lnc]
  exact .ite (judged (h.modifyLnc _)) h

theorem LensAgree.driveFrame (h : LensAgree u v) (d : Drive) : LensAgree (u.driveFrame d) (v.driveFrame d) := by
  unfold State.driveFrame
  dsimp only
  rw [h.lnc]
  refine .ite (h.modifyLnc _) ?_
  cases (v.lnc.servo d).mode with
  | idle => exact h
  | rate r => exact h.modifyLnc _
  | move m => exact .ite ((h.modifyLnc _).endMove ..) (h.modifyLnc _)

theorem LensAgree.irisFrame (h : LensAgree u v) (n : Serial) : LensAgree (u.irisFrame n) (v.irisFrame n) := by
  unfold State.irisFrame
  rw [h.lnc]
  refine .ite h (.ite (h.modifyLnc _) ?_)
  cases v.lnc.iris.move with
  | none => exact h
  | some m => exact .ite ((h.modifyLnc _).endMove ..) (h.modifyLnc _)

theorem LensAgree.lncFrame (h : LensAgree u v) (f : FrameStart) : LensAgree (u.lncFrame f) (v.lncFrame f) := by
  have leave {u v : State} (h : LensAgree u v) : LensAgree (u.leaveRecord f.serial) (v.leaveRecord f.serial) := ⟨h.lnc, h.ftb, h.pwc⟩
  have axes := ((h.windowExpires.driveFrame .zoom).driveFrame .focus).irisFrame f.serial
  unfold State.lncFrame State.lncActs
  dsimp only
  rw [h.pwc, axes.ftb]
  exact .ite (leave (axes.modifyLnc _)) h

theorem LensAgree.foldl_lncFrame : ∀ (fs : List FrameStart) {u v : State}, LensAgree u v →
    LensAgree (fs.foldl State.lncFrame u) (fs.foldl State.lncFrame v)
  | [], _, _, h => h
  | f :: fs, _, _, h => LensAgree.foldl_lncFrame fs (h.lncFrame f)

theorem LensAgree.lensRecord (h : LensAgree u v) : u.lensRecord = v.lensRecord := by
  unfold State.lensRecord State.lensStale
  rw [h.lnc, h.pwc]

/-- The lens record of a frame start is made of LNC, FTB, PWC and of the frame starts LNC has yet to act on. -/
theorem State.lensRecordFor_congr (h : LensAgree u v) (due : u.due.lnc = v.due.lnc) (f : FrameStart) :
    u.lensRecordFor f = v.lensRecordFor f := by
  unfold State.lensRecordFor
  rw [h.lensRecord, h.pwc, due, ((h.foldl_lncFrame _).lensRecord)]

end

/-! ## An abandonment (R96) -/

/-- An abandonment is BFM's and LNK's alone. -/
theorem State.abandon_eq (s : State) (e : Entry) (reason : AbandonReason) :
    ∃ bfm lnk, s.abandon e reason = { s with bfm := bfm, lnk := lnk } := by
  unfold State.abandon
  dsimp only
  split <;> exact ⟨_, _, rfl⟩

/-- An entry lies within the open clip's range (R96). -/
theorem State.inClipRange_iff (s : State) (e : Entry) : s.inClipRange e = true ↔
    ∃ clip head, s.rcd.clip = some clip ∧ (s.rcd.state = .recording ∨ s.rcd.state = .closing) ∧ clip.head = some head ∧
      older e.serial head = false ∧ (∀ last, clip.last = some last → olderOrSame e.serial last = true) ∧
      (s.ftb.interval.isSome = true → ∃ h, e.label = some h ∧ h.burst = true) := by
  have burst : e.burst = true ↔ ∃ h, e.label = some h ∧ h.burst = true := by
    unfold Entry.burst
    cases e.label <;> simp
  have reaches (clip : Clip) : clip.reaches e.serial = true ↔ ∀ last, clip.last = some last → olderOrSame e.serial last = true := by
    unfold Clip.reaches
    cases clip.last <;> simp
  have interval : (s.ftb.interval.isNone || e.burst) = true ↔ (s.ftb.interval.isSome = true → ∃ h, e.label = some h ∧ h.burst = true) := by
    rw [Bool.or_eq_true, burst]
    cases s.ftb.interval <;> simp
  unfold State.inClipRange
  cases s.rcd.clip with
  | none => simp
  | some clip =>
    cases head : clip.head with
    | none => simp [head]
    | some first =>
      simp only [head, Bool.and_eq_true, Bool.or_eq_true, beq_iff_eq, Bool.not_eq_true', ← interval, ← reaches]
      constructor
      · rintro ⟨⟨state, after, before⟩, within⟩
        exact ⟨clip, first, rfl, state, head, after, before, within⟩
      · rintro ⟨_, _, ⟨⟩, state, found, after, before, within⟩
        cases head.symm.trans found
        exact ⟨⟨state, after, before⟩, within⟩

/-- What an abandonment leaves before UNIT_DROPPED is told. -/
theorem State.abandon_cases (s : State) (e : Entry) (reason : AbandonReason) :
    let gone : State := { s with bfm := { s.bfm with
      entries := s.bfm.entries.filter (fun x => x.serial != e.serial)
      free := s.bfm.free.give e.pages
      port := s.bfm.port.abandoned e.serial
      counts := s.bfm.counts.abandon reason } }
    (s.inClipRange e = false → s.abandon e reason = gone) ∧
    (s.inClipRange e = true → s.abandon e reason =
      ({ gone with bfm := { gone.bfm with gapPending := true } } : State).report .unitDropped (serialBytes e.serial ++ u8 reason.code)) := by
  unfold State.abandon
  refine ⟨fun out => ?_, fun within => ?_⟩
  · rw [out]
    simp only [Bool.or_false]
    rfl
  · rw [within]
    simp only [Bool.or_true]
    rfl

/-! ## The frame start -/

/-- States that agree on what the entry of a frame start reads make the same entry. -/
theorem State.newEntry_congr {u v : State} (h : LensAgree u v) (due : u.due.lnc = v.due.lnc) (attachments : u.bfm.attachments = v.bfm.attachments)
    (mark : u.bfm.nextMark = v.bfm.nextMark) (f : FrameStart) : u.newEntry f = v.newEntry f := by
  unfold State.newEntry State.newSound Bfm.attachmentFor
  rw [State.lensRecordFor_congr h due, h.ftb, h.pwc, attachments, mark]

/-- A table with room loses no entry. -/
theorem State.ageOldest_room {s : State} (room : s.bfm.entries.length < 16) : s.ageOldest = s := by
  unfold State.ageOldest
  split
  · rfl
  · next e rest entries =>
    rw [if_neg]
    rw [entries, List.length_cons] at room
    omega

theorem State.ageOldest_full {s : State} {e : Entry} {es : List Entry} (entries : s.bfm.entries = e :: es) (full : 15 ≤ es.length) :
    s.ageOldest = s.abandon e .aged := by
  rw [State.ageOldest, entries]
  exact if_pos full

/-- BFM takes its oldest frame start. -/
theorem State.bfmStep_cons {s : State} {f : FrameStart} {rest : List FrameStart} (due : s.due.bfm = f :: rest) :
    s.bfmStep = ({ s with due := { s.due with bfm := rest } } : State).bfmFrame f := by
  rw [State.bfmStep, due]

/-- Settles O30: the entry is made of what the abandonment of an older one leaves alone. -/
theorem bufferFrame : Obligations.BufferFrame := by
  unfold Obligations.BufferFrame
  refine ⟨fun f rest s works due => ?_, fun s e reason => ?_⟩
  · intro n u passed stay lost sound entry created
    have begins (run : (f.inRun && s.pwc.inRun) = true) {v : State} (aged : u.ageOldest = v) (agree : LensAgree v s)
        (dueLnc : v.due.lnc = s.due.lnc) (attachments : v.bfm.attachments = s.bfm.attachments)
        (mark : v.bfm.nextMark = s.bfm.nextMark) : Becomes .bfmFrameStart s (created v) := by
      have made : v.newEntry f = entry := State.newEntry_congr agree dueLnc attachments mark f
      refine becomes_act works (f := State.bfmStep) rfl ?_
      have acts : (f.inRun && u.pwc.inRun) = true := run
      have joined : (v.bfm.addEntry entry).discardPassed n = lost { v.bfm with
          entries := v.bfm.entries ++ [entry]
          attachments := stay (s.bfm.attachments.filter (fun a => a.1 != n))
          nextMark := none } (s.bfm.attachments.filter (fun a => a.1 != n)) := by
        rw [← attachments]
        rfl
      calc s.bfmStep
        _ = u.bfmFrame f := State.bfmStep_cons due
        _ = (u.ageOldest.modifyBfm (fun b => (b.addEntry (u.ageOldest.newEntry f)).discardPassed n)).review := if_pos acts
        _ = (v.modifyBfm (fun b => (b.addEntry entry).discardPassed n)).review := by rw [aged, made]
        _ = created v := congrArg (fun b => ({ v with bfm := b } : State).review) joined
    refine ⟨fun run room => ?_, fun e es run entries full => ?_, fun rests => ?_⟩
    · exact begins run (State.ageOldest_room (s := u) room) ⟨rfl, rfl, rfl⟩ rfl rfl rfl
    · obtain ⟨_, _, keeps⟩ := u.abandon_eq e .aged
      refine begins run (State.ageOldest_full (s := u) entries full) ?_ ?_ ?_ ?_
      · rw [keeps]
        exact ⟨rfl, rfl, rfl⟩
      · rw [keeps]
      · rw [State.abandon_bfm]
      · rw [State.abandon_bfm]
    · refine becomes_act works (f := State.bfmStep) rfl ?_
      rw [State.bfmStep_cons due, State.bfmFrame]
      exact if_neg (Bool.eq_false_iff.mp rests)
  · intro k up counted gone inRange
    obtain ⟨out, within⟩ := s.abandon_cases e reason
    have left : gone = { s with bfm := { s.bfm with
        entries := s.bfm.entries.filter (fun x => x.serial != e.serial)
        free := s.bfm.free.give e.pages
        port := s.bfm.port.abandoned e.serial
        counts := s.bfm.counts.abandon reason } } := by
      simp only [gone, EssencePort.abandoned, beq_iff_eq]
      cases reason <;> rfl
    refine ⟨fun outside => ?_, fun inside => ?_⟩
    · rw [left]
      exact out (Bool.eq_false_iff.mpr fun yes => outside (s.inClipRange_iff e |>.mp yes))
    · have code : reason.code = counted.2 := by cases reason <;> rfl
      rw [left, ← code]
      exact within (s.inClipRange_iff e |>.mpr inside)

end Sys2Proof.Machine

namespace Sys2Proof.Machine

/-! # The viewfinder's frame start (R163 to R167) -/

/-! ## The rotation is not changed by what LNK does by itself -/

/-- What the table holds for a source, without its sent flag. -/
def SourceState.unsent (st : SourceState) : SourceState := { st with sent := false }

/-- Tables alike without their sent flags hold the same of every source but that flag. -/
theorem SameBut.of_unsent {l k : Lnk} (h : k.unsent = l.unsent) : SameBut l k := by
  have table : k.table.map SourceState.unsent = l.table.map SourceState.unsent := congrArg Lnk.table h
  refine ⟨by simpa using congrArg List.length table, (show k.unsent.mask = l.unsent.mask by rw [h]), fun src => ?_⟩
  have at' := congrArg (fun t : List SourceState => t[src.number]?.getD src.afterReset.unsent) table
  simp only [List.getElem?_map, Option.getD_map] at at'
  exact at'

theorem SameBut.alerts {l k : Lnk} (h : SameBut l k) (src : Source) : k.alerts src = l.alerts src := by
  have same := h.source src
  simp only [SourceState.mk.injEq] at same
  obtain ⟨enabled, level, routes, pending, rest⟩ := same
  simp only [Lnk.alerts, enabled, routes, pending]

theorem SameBut.rotation {l k : Lnk} (h : SameBut l k) : k.rotation = l.rotation := by
  have alerts : k.alerts = l.alerts := funext h.alerts
  rw [Lnk.rotation, alerts, h.inOrder]
  rfl

theorem Lnk.rotation_follow (lnk : Lnk) : lnk.follow.rotation = lnk.rotation := (SameBut.of_unsent lnk.unsent_follow).rotation

/-! ## The alert line (R167) -/

/-- The alert shown after a frame start, and its dwell count. -/
def Vog.alertLine (v : Vog) (rotation : List Source) (length : Nat) : Option Source × Nat :=
  match rotation, v.shown with
  | [], _ => (none, 0)
  | first :: _, none => (some first, 1)
  | first :: _, some x =>
    if v.dwell < length then (some x, v.dwell + 1)
    else (some (((rotation.dropWhile (fun y => y != x)).drop 1).head?.getD first), 1)

theorem Vog.moveAlert_eq (v : Vog) (rotation : List Source) (length : Nat) :
    v.moveAlert rotation length =
      { v with shown := (v.alertLine rotation length).1, dwell := (v.alertLine rotation length).2 } := by
  unfold Vog.moveAlert Vog.alertLine
  cases rotation with
  | nil => rfl
  | cons first rest =>
    cases shown : v.shown with
    | none => rfl
    | some x =>
      dsimp only
      split
      · rw [← shown]
      · rfl

/-- The alert line shows a source of the rotation. -/
theorem Vog.alertLine_mem {v : Vog} {rotation : List Source} (held : ∀ x, v.shown = some x → x ∈ rotation) (length : Nat) {x : Source}
    (h : (v.alertLine rotation length).1 = some x) : x ∈ rotation := by
  unfold Vog.alertLine at h
  split at h
  · cases h
  · cases h
    exact List.mem_cons_self ..
  · next first rest y shown =>
    split at h
    · cases h
      exact held _ shown
    · cases next : (((first :: rest).dropWhile (fun z => z != y)).drop 1).head? with
      | none =>
        rw [next] at h
        cases h
        exact List.mem_cons_self ..
      | some z =>
        rw [next] at h
        cases h
        exact ((List.drop_sublist ..).trans (List.dropWhile_sublist _)).mem (List.mem_of_head? next)

/-- An alert line that shows a source of the rotation is not moved by what follows the table. -/
theorem Vog.follow_held {v : Vog} {rotation : List Source} (held : ∀ x, v.shown = some x → x ∈ rotation) :
    v.follow rotation = { v with rotation := rotation } := by
  unfold Vog.follow
  split
  · next x shown => rw [if_pos (List.contains_iff_mem.mpr (held x shown))]
  · rfl

/-! ## The items chosen (R164) -/

/-- `x` has to go before `y`: it has the lower priority, or the same and the higher slot number. -/
def OverlayItem.goesBefore (x y : OverlayItem) : Prop := x.priority < y.priority ∨ (x.priority = y.priority ∧ y.slot < x.slot)

theorem worst_eq_none {items : List OverlayItem} (h : worst items = none) : items = [] := by
  cases items with
  | nil => rfl
  | cons x rest =>
    unfold worst at h
    split at h
    · cases h
    · split at h <;> cases h

/-- The worst of items in rising slot order has to go before every other. -/
theorem worst_spec : ∀ {items : List OverlayItem} {w : OverlayItem}, items.Pairwise (fun x y => x.slot < y.slot) → worst items = some w →
    w ∈ items ∧ ∀ z ∈ items, z ≠ w → w.goesBefore z
  | [], _, _, h => by cases h
  | x :: rest, w, rising, h => by
    obtain ⟨first, rising⟩ := List.pairwise_cons.mp rising
    unfold worst at h
    split at h
    · next last =>
      cases h
      rw [worst_eq_none last]
      exact ⟨List.mem_cons_self .., fun z mem other => absurd (List.mem_singleton.mp mem) other⟩
    · next y found =>
      obtain ⟨mem, before⟩ := worst_spec rising found
      split at h
      · next less =>
        cases h
        refine ⟨List.mem_cons_self .., fun z stands other => ?_⟩
        rcases List.mem_cons.mp stands with rfl | stands
        · exact absurd rfl other
        · by_cases same : z = y
          · subst same
            exact .inl less
          · rcases before z stands same with lower | ⟨level, -⟩
            · exact .inl (less.trans lower)
            · exact .inl (level ▸ less)
      · next least =>
        cases h
        refine ⟨List.mem_cons_of_mem _ mem, fun z stands other => ?_⟩
        rcases List.mem_cons.mp stands with rfl | stands
        · have slot := first _ mem
          unfold OverlayItem.goesBefore
          omega
        · exact before z stands other

/-- Of items in rising slot order, more than 24, 24 are left, and one left out has to go before each of them. -/
theorem chooseItems_spec : ∀ (fuel : Nat) {items : List OverlayItem}, items.Pairwise (fun x y => x.slot < y.slot) →
    24 ≤ items.length → items.length ≤ 24 + fuel →
    (chooseItems fuel items).length = 24 ∧ (chooseItems fuel items).Sublist items ∧
      ∀ x ∈ chooseItems fuel items, ∀ y ∈ items, y ∉ chooseItems fuel items → y.goesBefore x
  | 0, items, _, least, most => ⟨by rw [chooseItems]; omega, .refl _, fun _ _ y mem out => absurd mem out⟩
  | fuel + 1, items, rising, least, most => by
    unfold chooseItems
    by_cases few : items.length ≤ 24
    · rw [if_pos few]
      exact ⟨by omega, .refl _, fun _ _ y mem out => absurd mem out⟩
    · rw [if_neg few]
      cases found : worst items with
      | none =>
        rw [worst_eq_none found] at least
        simp at least
      | some w =>
        obtain ⟨mem, before⟩ := worst_spec rising found
        have slots : (items.map OverlayItem.slot).Nodup := List.pairwise_map.mpr (rising.imp Nat.ne_of_lt)
        have only {z : OverlayItem} (stands : z ∈ items) (same : z.slot = w.slot) : z = w :=
          List.inj_on_of_nodup_map slots stands mem same
        have left : items.filter (fun y => y.slot != w.slot) = items.erase w := by
          rw [slots.of_map.erase_eq_filter]
          refine List.filter_congr fun z stands => ?_
          rw [Bool.eq_iff_iff, bne_iff_ne, bne_iff_ne]
          exact not_congr ⟨only stands, fun same => same ▸ rfl⟩
        dsimp only
        rw [left]
        obtain ⟨count, sub, ordered⟩ := chooseItems_spec fuel (rising.sublist List.erase_sublist)
          (by rw [List.length_erase_of_mem mem]; omega) (by rw [List.length_erase_of_mem mem]; omega)
        refine ⟨count, sub.trans List.erase_sublist, fun x placed y stands out => ?_⟩
        by_cases gone : y = w
        · subst gone
          have other := (slots.of_map.mem_erase_iff).mp (sub.subset placed)
          exact before x other.2 other.1
        · exact ordered x placed y ((List.mem_erase_of_ne gone).mpr stands) out

/-- The candidates stand in rising slot order, at most 32 of them. -/
theorem State.candidates_rising (s : State) (f : FrameStart) (r : LensRecord) :
    ((List.range 32).filterMap (fun i => s.candidate f r i)).Pairwise (fun x y => x.slot < y.slot) := by
  have slot {i : Nat} {x : OverlayItem} (h : s.candidate f r i = some x) : x.slot = i := by
    unfold State.candidate at h
    split at h
    · cases h
    · split at h
      · cases h
      · obtain ⟨_, -, rfl⟩ := Option.map_eq_some_iff.mp h
        rfl
  refine List.pairwise_filterMap.mpr (List.pairwise_lt_range.imp fun {i j} less x hx y hy => ?_)
  rw [slot hx, slot hy]
  exact less

/-! ## The frame start -/

/-- VOG takes its oldest frame start. -/
theorem State.vogStep_cons {s : State} {f : FrameStart} {rest : List FrameStart} (due : s.due.vog = f :: rest) :
    s.vogStep = ({ s with due := { s.due with vog := rest } } : State).vogFrame f := by
  rw [State.vogStep, due]

/-- A record is handed to the link, and nothing else of VOG changes (R165). -/
theorem Vog.hand_shown (v : Vog) (o : Overlay) : (v.hand o).blink = v.blink ∧ (v.hand o).shown = v.shown ∧ (v.hand o).dwell = v.dwell := by
  unfold Vog.hand
  split <;> exact ⟨rfl, rfl, rfl⟩

/-- Settling moves no alert line that shows a source of the rotation. -/
theorem State.settle_vog {s : State} (held : ∀ x, s.vog.shown = some x → x ∈ s.lnk.rotation) :
    s.settle.vog.blink = s.vog.blink ∧ s.settle.vog.shown = s.vog.shown ∧ s.settle.vog.dwell = s.vog.dwell := by
  unfold State.settle
  dsimp only
  split
  · rw [Lnk.rotation_follow, Vog.follow_held held]
    exact ⟨rfl, rfl, rfl⟩
  · exact ⟨rfl, rfl, rfl⟩

/-- Settles O49: settling keeps the alert line, and the items are chosen among candidates in rising slot order. -/
theorem vogFrame : Obligations.VogFrame := by
  unfold Obligations.VogFrame
  refine ⟨fun f rest s works due => ?_, fun s works => ⟨fun idle => ?_, fun busy => ?_, fun f s => ?_⟩⟩
  · intro u v blink rotation line moved o candidates placed
    have runs : (f.inRun && u.vogRuns) = (f.inRun && s.pwc.inRun && s.pwc.enables.vog) := (Bool.and_assoc ..).symm
    refine ⟨fun rests => ?_, fun acts held => ⟨?_, rfl, rfl, rfl, rfl, fun few => if_pos few, fun many => ?_⟩⟩
    · refine becomes_act works (f := State.vogStep) rfl ((State.vogStep_cons due).trans (if_neg ?_))
      rw [runs, rests]
      decide
    · have advanced : u.vog.advanceBlink.moveAlert u.lnk.rotation (2 * u.ftb.rate.nominal) = moved.vog := Vog.moveAlert_eq ..
      have stepped : s.vogStep = { moved with vog := moved.vog.hand o } := by
        rw [State.vogStep_cons due, State.vogFrame, if_pos (runs.trans acts)]
        dsimp only
        rw [advanced]
      have shows : ∀ x, (moved.vog.hand o).shown = some x → x ∈ s.lnk.rotation := fun x shown =>
        Vog.alertLine_mem (v := v) held (2 * s.ftb.rate.nominal) (((moved.vog.hand_shown o).2.1.symm.trans shown))
      obtain ⟨blinkHeld, shownHeld, dwellHeld⟩ := State.settle_vog (s := { moved with vog := moved.vog.hand o }) shows
      obtain ⟨blinkKept, shownKept, dwellKept⟩ := moved.vog.hand_shown o
      refine ⟨s.vogStep.settle, s.act_works works State.vogStep, ?_⟩
      rw [stepped]
      exact ⟨State.settle_lnk _, blinkHeld.trans blinkKept, shownHeld.trans shownKept, dwellHeld.trans dwellKept, Follows.settle _⟩
    · have most : candidates.length ≤ 32 := (List.length_filterMap_le ..).trans (List.length_range).le
      obtain ⟨count, sub, ordered⟩ := chooseItems_spec 32 (moved.candidates_rising f (moved.lensRecordFor f)) many.le (most.trans (by decide))
      exact ⟨count, sub, fun x _ y stands chosen out => ordered x chosen y stands out⟩
  · refine becomes_act works (f := fun s => { s with vog := s.vog.recordSent }) rfl ?_
    rw [Vog.recordSent, idle]
  · obtain ⟨o, flying⟩ := Option.isSome_iff_exists.mp busy
    refine becomes_act works (f := fun s => { s with vog := s.vog.recordSent }) rfl ?_
    rw [Vog.recordSent, flying]
  · intro r
    refine ⟨fun off => ?_, fun on left acted => s.lensRecordFor_left f left on acted, rfl, rfl, rfl⟩
    rw [show r = s.lensRecord from s.lensRecordFor_disabled f off, ← s.lensRecord_stale_disabled off]
    rfl

end Sys2Proof.Machine

namespace Sys2Proof.Machine

/-! # Block enables and PART_RESET (R156, R189 to R191) -/

/-! ## One block is switched -/

/-- A card writer whose slot's flag was `was` and is `on` (R156, R189). -/
def CardSlot.switched (c : CardSlot) (inRun was on : Bool) : CardSlot :=
  if on = was then c
  else if !on then c.disabled
  else if !c.present then c.enabled
  else if inRun then c.enabled.beginMount
  else { c.enabled with deferred := true }

section
variable (s : State) (on : Bool)

theorem State.mountOrDefer_eq (side : Side) : s.mountOrDefer side =
    s.setSlot side (if s.pwc.inRun then (s.slot side).beginMount else { s.slot side with deferred := true }) := by
  unfold State.mountOrDefer
  split <;> rfl

theorem State.switchSlot_eq (side : Side) : s.switchSlot side on =
    { s with
      pwc := { s.pwc with enables := { s.pwc.enables with slots := s.pwc.enables.slots.set side on } }
      slots := s.slots.set side ((s.slot side).switched s.pwc.inRun (s.pwc.enables.slots.get side) on) } := by
  unfold State.switchSlot CardSlot.switched
  by_cases same : on = s.pwc.enables.slots.get side
  · rw [if_pos (beq_iff_eq.mpr same), if_pos same, same]
    cases side <;> rfl
  · rw [if_neg (fun h => same (beq_iff_eq.mp h)), if_neg same]
    cases on with
    | false => rfl
    | true =>
      have present (f : Pwc → Pwc) :
          (((s.modifyPwc f).modifySlot side CardSlot.enabled).slot side).present = (s.slot side).present := by
        rw [State.slot_modifySlot_same]
        rfl
      dsimp only
      rw [present]
      cases (s.slot side).present with
      | false => cases side <;> rfl
      | true =>
        rw [if_pos rfl, State.mountOrDefer_eq, State.slot_modifySlot_same]
        cases side <;> rfl

theorem State.switchLnc_eq : s.switchLnc on =
    { s with
      pwc := { s.pwc with enables := { s.pwc.enables with lnc := on } }
      lnc := if on = s.pwc.enables.lnc then s.lnc
        else if on then .afterReset else .resetKeeping s.lnc.latest s.lnc.previous s.lnc.reported
      due := { s.due with lnc := if on && !s.pwc.enables.lnc then [] else s.due.lnc } } := by
  unfold State.switchLnc
  by_cases same : on = s.pwc.enables.lnc
  · rw [if_pos (beq_iff_eq.mpr same), if_pos same, same, Bool.and_not_self]
    rfl
  · rw [if_neg (fun h => same (beq_iff_eq.mp h)), if_neg same, Bool.eq_not_of_ne (Ne.symm same)]
    cases on <;> rfl

theorem State.switchStb_eq : s.switchStb on =
    { s with
      pwc := { s.pwc with enables := { s.pwc.enables with stb := on } }
      stb := if on = s.pwc.enables.stb then s.stb else .afterReset
      due := { s.due with stb := if on && !s.pwc.enables.stb then s.due.stb.map (fun f => { f with stbOff := true }) else s.due.stb } } := by
  unfold State.switchStb
  by_cases same : on = s.pwc.enables.stb
  · rw [if_pos (beq_iff_eq.mpr same), if_pos same, same, Bool.and_not_self]
    rfl
  · rw [if_neg (fun h => same (beq_iff_eq.mp h)), if_neg same, Bool.eq_not_of_ne (Ne.symm same)]
    cases on <;> rfl

theorem State.switchVog_eq : s.switchVog on =
    { s with
      pwc := { s.pwc with enables := { s.pwc.enables with vog := on } }
      vog := if on = s.pwc.enables.vog then s.vog else .afterReset
      due := { s.due with vog := if on && !s.pwc.enables.vog then [] else s.due.vog } } := by
  unfold State.switchVog
  by_cases same : on = s.pwc.enables.vog
  · rw [if_pos (beq_iff_eq.mpr same), if_pos same, same, Bool.and_not_self]
    rfl
  · rw [if_neg (fun h => same (beq_iff_eq.mp h)), if_neg same, Bool.eq_not_of_ne (Ne.symm same)]
    cases on <;> rfl

theorem State.switchAud_eq : s.switchAud on =
    let v := if s.pwc.enables.aud && !on && s.pwc.inRun then s.handOverOff else s
    { v with
      pwc := { v.pwc with enables := { v.pwc.enables with aud := on } }
      aud := if on = s.pwc.enables.aud then v.aud else .afterReset
      due := if on && !s.pwc.enables.aud then { v.due with aud := [] } else v.due } := by
  unfold State.switchAud
  by_cases same : on = s.pwc.enables.aud
  · subst same
    dsimp only
    rw [if_pos (beq_self_eq_true _), if_pos rfl, Bool.and_not_self]
    rfl
  · rw [if_neg (fun h => same (beq_iff_eq.mp h)), Bool.eq_not_of_ne (Ne.symm same)]
    cases on <;> rfl

end

/-! ## The request -/

/-- A byte that is read as a flag is 0 or 1 (R194). -/
theorem flagAt_le {front back : List Byte} {x : Byte} {b : Bool} (h : flagAt (front ++ x :: back) front.length = some b) :
    x.toNat ≤ 1 := by
  by_contra above
  rw [flagAt_none (by rw [num_byte]; omega)] at h
  cases h

theorem enablesAt_of_flags {p : List Byte} {lnc stb aud vog a b : Bool} (atLnc : flagAt p 0 = some lnc)
    (atStb : flagAt p 1 = some stb) (atAud : flagAt p 2 = some aud) (atVog : flagAt p 3 = some vog)
    (atA : flagAt p 4 = some a) (atB : flagAt p 5 = some b) :
    enablesAt p = some { lnc := lnc, stb := stb, aud := aud, vog := vog, slots := { a := a, b := b } } := by
  rw [enablesAt, atLnc, atStb, atAud, atVog, atA, atB]

/-- The six flags of BLOCK_ENABLE are read as they were written (R189). -/
theorem enablesAt_written (lnc stb aud vog a b : Bool) :
    enablesAt (flagByte lnc ++ flagByte stb ++ flagByte aud ++ flagByte vog ++ flagByte a ++ flagByte b) =
      some { lnc := lnc, stb := stb, aud := aud, vog := vog, slots := { a := a, b := b } } :=
  enablesAt_of_flags (flagAt_flagByte [] _ lnc) (flagAt_flagByte (flagByte lnc) _ stb)
    (flagAt_flagByte (flagByte lnc ++ flagByte stb) _ aud)
    (flagAt_flagByte (flagByte lnc ++ flagByte stb ++ flagByte aud) _ vog)
    (flagAt_flagByte (flagByte lnc ++ flagByte stb ++ flagByte aud ++ flagByte vog) _ a)
    (flagAt_flagByte (flagByte lnc ++ flagByte stb ++ flagByte aud ++ flagByte vog ++ flagByte a) [] b)

/-- A flag out of range is a bad value. -/
theorem enablesAt_none {lnc stb aud vog a b : Byte} (out : ∃ x ∈ [lnc, stb, aud, vog, a, b], 1 < x.toNat) :
    enablesAt [lnc, stb, aud, vog, a, b] = none := by
  obtain ⟨x, listed, above⟩ := out
  unfold enablesAt
  split
  · next atLnc atStb atAud atVog atA atB =>
    have inRange : ∀ y ∈ [lnc, stb, aud, vog, a, b], y.toNat ≤ 1 := by
      simp only [List.forall_mem_cons]
      exact ⟨flagAt_le (front := []) atLnc, flagAt_le (front := [lnc]) atStb, flagAt_le (front := [lnc, stb]) atAud,
        flagAt_le (front := [lnc, stb, aud]) atVog, flagAt_le (front := [lnc, stb, aud, vog]) atA,
        flagAt_le (front := [lnc, stb, aud, vog, a]) atB, List.forall_mem_nil _⟩
    exact absurd (inRange x listed) (by omega)
  · rfl

/-- BLOCK_ENABLE with six flags that are 0 or 1 (R189). -/
theorem reqBlockEnable_written (s : State) (lnc stb aud vog a b : Bool) :
    reqBlockEnable (flagByte lnc ++ flagByte stb ++ flagByte aud ++ flagByte vog ++ flagByte a ++ flagByte b) s =
      if (!a && s.isTarget .a) || (!b && s.isTarget .b) then refuse s .badState
      else
        let u := (((((s.switchSlot .a a).switchSlot .b b).switchLnc lnc).switchStb stb).switchVog vog).switchAud aud
        answerOk u u.partStatus := by
  rw [reqBlockEnable, enablesAt_written]

theorem reqBlockEnable_none (s : State) {lnc stb aud vog a b : Byte} (out : ∃ x ∈ [lnc, stb, aud, vog, a, b], 1 < x.toNat) :
    reqBlockEnable [lnc, stb, aud, vog, a, b] s = refuse s .badValue := by
  rw [reqBlockEnable, enablesAt_none out]

/-- A target of the clip would be disabled (R189). -/
theorem disables_target {s : State} {a b : Bool} : ((!a && s.isTarget .a) || (!b && s.isTarget .b)) = true ↔
    (a = false ∧ s.isTarget .a = true) ∨ (b = false ∧ s.isTarget .b = true) := by
  simp

/-- Settles O60: each switch writes its own block's parts of the state, AUD's last. -/
theorem enablesAndReset : Obligations.EnablesAndReset := by
  unfold Obligations.EnablesAndReset
  refine fun tag s ready => ⟨fun lnc stb aud vog a b keepA keepB => ?_, fun lnc stb aud vog a b out => ?_, fun s => rfl,
    fun lnc stb aud vog a b target => ?_, answers_ok ready rfl ⟨le_rfl, le_rfl⟩ rfl rfl rfl⟩
  · intro e slot u v w
    have five : ((((s.switchSlot .a a).switchSlot .b b).switchLnc lnc).switchStb stb).switchVog vog = u := by
      rw [State.switchSlot_eq, State.switchSlot_eq, State.switchLnc_eq, State.switchStb_eq, State.switchVog_eq]
      rfl
    have switched : (((((s.switchSlot .a a).switchSlot .b b).switchLnc lnc).switchStb stb).switchVog vog).switchAud aud = w :=
      (congrArg (State.switchAud · aud) five).trans (u.switchAud_eq aud)
    have kept : s.Keeps w := switched ▸ .switchAud (.switchVog (.switchStb (.switchLnc (.switchSlot (.switchSlot (.refl s))))))
    have spares : ¬ ((!a && s.isTarget .a) || (!b && s.isTarget .b)) = true := fun target => by
      rcases disables_target.mp target with ⟨off, held⟩ | ⟨off, held⟩
      · exact absurd held (Bool.eq_false_iff.mp (keepA off))
      · exact absurd held (Bool.eq_false_iff.mp (keepB off))
    refine answers_ok ready rfl ⟨le_rfl, le_rfl⟩ rfl ?_ kept.inbound
    rw [← switched]
    exact (reqBlockEnable_written s lnc stb aud vog a b).trans (if_neg spares)
  · exact answers_refused ready rfl ⟨le_rfl, le_rfl⟩ rfl (reqBlockEnable_none s out)
  · exact answers_refused ready rfl ⟨le_rfl, le_rfl⟩ rfl
      ((reqBlockEnable_written s lnc stb aud vog a b).trans (if_pos (disables_target.mpr target)))

end Sys2Proof.Machine

namespace Sys2Proof.Machine

/-! # The gyro port (R47 to R49) -/

/-- What a bad sample leaves of STB before the port's FAULT is judged (R48, R49). -/
def Stb.spoilt (b : Stb) : Stb :=
  { b.repeatSample with badSamples := min 65535 (b.badSamples + 1), goodRun := 0, badRun := b.badRun + 1 }

/-- A sample that joins again leaves the port's FAULT and its read (R48). -/
theorem Stb.repeatSample_keeps (b : Stb) : b.repeatSample.gyroFault = b.gyroFault ∧ ∀ reading,
    ({ b with reading := reading } : Stb).repeatSample = { b.repeatSample with reading := reading } := by
  unfold Stb.repeatSample
  dsimp only
  split <;> exact ⟨rfl, fun _ => rfl⟩

/-- A bad sample (R47 to R49): the tenth in a row puts the port into FAULT. -/
theorem State.badSample_eq (s : State) (answer : Option Byte) : s.badSample answer =
    if !s.stb.gyroFault && decide (10 ≤ s.stb.badRun + 1) then
      ({ s with stb := { s.stb.spoilt with gyroFault := true } } : State).notify .gyroFault
        ((serialBytes s.ftb.serial).map some ++ [answer] ++ (flagByte answer.isSome).map some)
    else { s with stb := s.stb.spoilt } := by
  rw [← s.stb.repeatSample_keeps.1]
  rfl

/-- Whether a read is in progress does not matter to a bad sample, and stays as it is. -/
theorem State.badSample_reading (s : State) (answer : Option Byte) (reading : Bool) :
    (s.badSample answer).modifyStb (fun b => { b with reading := reading }) =
      (s.modifyStb (fun b => { b with reading := reading })).badSample answer := by
  have spoilt : ({ s.stb with reading := reading } : Stb).spoilt = { s.stb.spoilt with reading := reading } := by
    rw [Stb.spoilt, s.stb.repeatSample_keeps.2]
    rfl
  rw [State.badSample_eq, State.badSample_eq, State.modifyStb_stb, spoilt]
  split <;> rfl

/-- Settles O20: each sample joins the sums as the good and the bad rule say, and the runs are judged after it. -/
theorem gyroSamples : Obligations.GyroSamples := by
  unfold Obligations.GyroSamples
  intro yaw pitch status s works b add put good bad
  have spoils (reading : Bool) (answer : Option Byte) :
      (s.modifyStb (fun b => { b with reading := reading })).badSample answer = bad reading answer := State.badSample_eq _ _
  have due {t : State} (h : s.gyroDue = t) : Becomes .gyroReadDue s t := becomes_act works (f := State.gyroDue) rfl h
  have answered {t : State} (h : s.gyroAnswered yaw.toInt pitch.toInt status = t) : Becomes (.gyroAnswer yaw pitch status) s t :=
    becomes_act works (f := fun s => s.gyroAnswered yaw.toInt pitch.toInt status) rfl h
  refine ⟨fun rests => ⟨due ?_, answered ?_⟩, fun (idle : s.stb.reading = false) => answered ?_,
    fun runs (idle : s.stb.reading = false) => due ?_, fun runs (busy : s.stb.reading = true) => due ?_,
    fun runs (busy : s.stb.reading = true) ok => answered ?_, fun runs (busy : s.stb.reading = true) wrong => answered ?_⟩
  · simp [State.gyroDue, rests]
  · simp [State.gyroAnswered, rests]
  · simp [State.gyroAnswered, idle]
  · simp only [State.gyroDue, runs, idle]
    rfl
  · simp only [State.gyroDue, runs, busy, if_true]
    exact (s.badSample_reading none true).trans (spoils true none)
  · simp only [State.gyroAnswered, runs, busy, ok]
    rfl
  · have notOk : (status == 0) = false := beq_eq_false_iff_ne.mpr wrong
    simp only [State.gyroAnswered, runs, busy, notOk, Bool.and_self, if_true]
    exact spoils false (some status)

end Sys2Proof.Machine

namespace Sys2Proof.Machine

/-! # STB's requests (R63, R64, R66) -/

/-! ## STAB_CONFIG's fields -/

/-- A signed field of two bytes in range reads as the number written (R194). -/
theorem signedNum_field {v : Int} (least : -32768 ≤ v) (greatest : v ≤ 32767) (front back : List Byte) :
    signedNum (front ++ (signedBytes 2 v ++ back)) front.length 2 = v := by
  have read : num (front ++ (signedBytes 2 v ++ back)) front.length 2 = (v % 65536).toNat :=
    num_field front back 2 (v % 65536).toNat (by omega)
  unfold signedNum
  rw [read]
  dsimp only
  split <;> omega

theorem rangeAt_within {bytes : List Byte} {first count lo hi x y : Nat} (written : num bytes first count = x)
    (read : rangeAt bytes first count lo hi = some y) : lo ≤ x ∧ x ≤ hi := by
  by_contra out
  rw [rangeAt_none written out] at read
  cases read

theorem flagAt_within {bytes : List Byte} {first x : Nat} {b : Bool} (written : num bytes first 1 = x)
    (read : flagAt bytes first = some b) : x ≤ 1 := by
  by_contra above
  rw [flagAt_none (by omega)] at read
  cases read

theorem flagAt_small {bytes : List Byte} {first x : Nat} (written : num bytes first 1 = x) (small : x ≤ 1) :
    flagAt bytes first = some (x == 1) := by
  refine flagAt_of_num (written.trans ?_)
  obtain rfl | rfl : x = 0 ∨ x = 1 := by omega
  · rfl
  · rfl

/-- What STAB_CONFIG's nine fields are read as. -/
structure StabFields (p : List Byte) (x : StabSettings) (invertX invertY : Nat) : Prop where
  marginX : num p 0 1 = x.marginX
  marginY : num p 1 1 = x.marginY
  pitch : num p 2 2 = x.pitch
  decimation : num p 4 1 = x.decimation
  biasX : signedNum p 5 2 = x.biasX
  biasY : signedNum p 7 2 = x.biasY
  invertX : num p 9 1 = invertX
  invertY : num p 10 1 = invertY
  panThreshold : num p 11 2 = x.panThreshold

theorem StabFields.written {x : StabSettings} {invertX invertY : Nat} (marginX : x.marginX ≤ 255) (marginY : x.marginY ≤ 255)
    (pitch : x.pitch ≤ 65535) (decimation : x.decimation ≤ 255) (leastX : -32768 ≤ x.biasX) (mostX : x.biasX ≤ 32767)
    (leastY : -32768 ≤ x.biasY) (mostY : x.biasY ≤ 32767) (flagX : invertX ≤ 255) (flagY : invertY ≤ 255)
    (panThreshold : x.panThreshold ≤ 65535) :
    StabFields (u8 x.marginX ++ u8 x.marginY ++ u16 x.pitch ++ u8 x.decimation ++ signedBytes 2 x.biasX ++
      signedBytes 2 x.biasY ++ u8 invertX ++ u8 invertY ++ u16 x.panThreshold) x invertX invertY := by
  let a := u8 x.marginX ++ u8 x.marginY
  let b := a ++ u16 x.pitch ++ u8 x.decimation
  let c := b ++ signedBytes 2 x.biasX ++ signedBytes 2 x.biasY
  exact {
    marginX := num_field [] _ 1 x.marginX (by omega)
    marginY := num_field (u8 x.marginX) _ 1 x.marginY (by omega)
    pitch := num_field a _ 2 x.pitch (by omega)
    decimation := num_field (a ++ u16 x.pitch) _ 1 x.decimation (by omega)
    biasX := signedNum_field leastX mostX b _
    biasY := signedNum_field leastY mostY (b ++ signedBytes 2 x.biasX) _
    invertX := num_field c _ 1 invertX (by omega)
    invertY := num_field (c ++ u8 invertX) _ 1 invertY (by omega)
    panThreshold := num_field (c ++ u8 invertX ++ u8 invertY) [] 2 x.panThreshold (by omega) }

/-- The ranges of R66. -/
abbrev StabSettings.good (x : StabSettings) (invertX invertY : Nat) : Prop :=
  100 ≤ x.pitch ∧ x.pitch ≤ 1000 ∧ 8 ≤ x.decimation ∧ x.decimation ≤ 32 ∧ invertX ≤ 1 ∧ invertY ≤ 1 ∧
    16 ≤ x.panThreshold ∧ x.panThreshold ≤ 4095

section
variable {p : List Byte} {x : StabSettings} {invertX invertY : Nat}

theorem stabSettingsAt_good (fields : StabFields p x invertX invertY) (onX : invertX ≤ 1 → x.invertX = (invertX == 1))
    (onY : invertY ≤ 1 → x.invertY = (invertY == 1)) (good : x.good invertX invertY) : stabSettingsAt p = some x := by
  obtain ⟨pitchLeast, pitchMost, decimationLeast, decimationMost, flagX, flagY, panLeast, panMost⟩ := good
  unfold stabSettingsAt
  rw [rangeAt_of_num fields.pitch pitchLeast pitchMost, rangeAt_of_num fields.decimation decimationLeast decimationMost,
    flagAt_small fields.invertX flagX, flagAt_small fields.invertY flagY, rangeAt_of_num fields.panThreshold panLeast panMost,
    fields.marginX, fields.marginY, fields.biasX, fields.biasY, ← onX flagX, ← onY flagY]

theorem stabSettingsAt_bad (fields : StabFields p x invertX invertY) (bad : ¬ x.good invertX invertY) : stabSettingsAt p = none := by
  unfold stabSettingsAt
  split
  · next pitch decimation flagX flagY threshold =>
    obtain ⟨pitchLeast, pitchMost⟩ := rangeAt_within fields.pitch pitch
    obtain ⟨decimationLeast, decimationMost⟩ := rangeAt_within fields.decimation decimation
    exact absurd ⟨pitchLeast, pitchMost, decimationLeast, decimationMost, flagAt_within fields.invertX flagX,
      flagAt_within fields.invertY flagY, rangeAt_within fields.panThreshold threshold⟩ bad
  · rfl

end

/-! ## The states that the requests make -/

/-- STAB_MODE on (R63), by the state. -/
theorem Stb.switchOn_eq (b : Stb) : b.switchOn =
    match b.state with
    | .off => { b with x := { b.x with c := 0 }, y := { b.y with c := 0 }, state := .settling, settle := 8 }
    | .returning => { b with state := .settling, settle := 8 }
    | _ => b := by
  unfold Stb.switchOn
  cases b.state <;> rfl

/-- STAB_MODE off (R63), by the state. -/
theorem Stb.switchOff_eq (b : Stb) : b.switchOff =
    if b.state = .off then b else { b with state := .returning, followSettling := false } := by
  unfold Stb.switchOff
  cases b.state <;> rfl

theorem reqStabMode_flag (s : State) (on : Bool) : reqStabMode (flagByte on) s =
    if s.pwc.inRun = false then refuse s .badState
    else
      let next := if on then s.stb.switchOn else s.stb.switchOff
      answerOk { s with stb := next } (u8 next.state.code) := by
  rw [reqStabMode, show flagAt (flagByte on) 0 = some on from flagAt_flagByte [] [] on]
  cases s.pwc.inRun <;> rfl

/-- Settles O24: the fields are read as they were written, and each state takes the requests as R63, R64 and R66 say. -/
theorem stabRequestsTaken : Obligations.StabRequestsTaken := by
  unfold Obligations.StabRequestsTaken
  intro tag s ready on b settled centred
  have enabled : offUnless s.pwc.enables.stb = none := offUnless_on on
  have refused {x : Bool} (standby : s.pwc.inRun = false) : Answers (.stabMode tag (flagByte x)) .stabMode tag s s .badState [] :=
    answers_refused ready rfl ⟨le_rfl, le_rfl⟩ enabled ((reqStabMode_flag s x).trans (if_pos standby))
  have taken {x : Bool} (run : s.pwc.inRun = true) {next : Stb} (h : (if x then s.stb.switchOn else s.stb.switchOff) = next) :
      Answers (.stabMode tag (flagByte x)) .stabMode tag s { s with stb := next } .ok (u8 next.state.code) :=
    answers_ok ready rfl ⟨le_rfl, le_rfl⟩ enabled
      ((reqStabMode_flag s x).trans (by rw [if_neg (by simp [run])]; dsimp only; rw [h])) rfl
  have stands : (!s.pwc.inRun || s.stb.state != .off) = true ↔ ¬ (s.pwc.inRun = true ∧ s.stb.state = .off) := by
    cases s.pwc.inRun <;> simp
  refine ⟨?_, fun x above => ?_, fun standby => ⟨refused (x := true) standby, refused (x := false) standby⟩, fun still => ?_,
    fun run => ⟨taken (x := true) run s.stb.switchOn_eq, taken (x := false) run s.stb.switchOff_eq, fun working => ?_⟩⟩
  · intro x invertX invertY marginX marginY pitch decimation leastX mostX leastY mostY flagX flagY panThreshold onX onY config good may
    have fields := StabFields.written marginX marginY pitch decimation leastX mostX leastY mostY flagX flagY panThreshold
    refine ⟨fun bad => ?_, fun ok busy => ?_, fun ok ⟨run, off⟩ => ?_⟩
    · refine answers_refused ready rfl ⟨le_rfl, le_rfl⟩ enabled ?_
      rw [takeRequest, reqStabConfig, stabSettingsAt_bad fields bad]
    · refine answers_refused ready rfl ⟨le_rfl, le_rfl⟩ enabled ?_
      rw [takeRequest, reqStabConfig, stabSettingsAt_good fields onX onY ok]
      exact if_pos (by rw [stands]; exact busy)
    · refine answers_ok ready rfl ⟨le_rfl, le_rfl⟩ enabled ?_ rfl
      rw [takeRequest, reqStabConfig, stabSettingsAt_good fields onX onY ok]
      exact if_neg (by rw [stands]; exact not_not.mpr ⟨run, off⟩)
  · exact answers_refused ready rfl ⟨le_rfl, le_rfl⟩ enabled
      (by rw [takeRequest, reqStabMode, flagAt_none (by rwa [num_head])])
  · refine answers_refused ready rfl ⟨le_rfl, le_rfl⟩ enabled (if_pos ?_)
    simpa using still
  · have reply : u8 StabState.returning.code = [4] := by decide
    rw [← reply]
    refine answers_ok ready rfl ⟨le_rfl, le_rfl⟩ enabled (if_neg ?_) rfl
    simpa [run] using working

end Sys2Proof.Machine

namespace Sys2Proof.Machine

/-! # STB's frame start (R54 to R62, R65) -/

/-! ## The result record (R54) -/

theorem older_self (x : Serial) : older x x = false := by simp [older]

theorem older_next (x : Serial) : older (x - 1) (x - 2) = false := by
  have back : x - 2 - (x - 1) = 4294967295#32 := by bv_omega
  rw [older, back]
  decide

/-- The record is taken when it is of one of the two frames before, dropped when it is older, and left otherwise. -/
theorem Stb.takeResult_eq (b : Stb) (n : Serial) :
    let taken := b.result.filter (fun r => !r.used && (r.newer == n - 1 || r.newer == n - 2))
    let stale := b.result.any (fun r => !r.used && Sys2Proof.Machine.older r.newer (n - 2))
    b.takeResult n = (taken, { b with
      result := if taken.isSome || stale then b.result.map (fun r => { r with used := true }) else b.result
      droppedResults := if stale then min 65535 (b.droppedResults + 1) else b.droppedResults }) := by
  cases b with
  | mk =>
    unfold Stb.takeResult
    dsimp only
    split
    · rfl
    · next r =>
      rw [Option.filter_some, Option.any_some]
      have recent : (r.newer == n - 1 || r.newer == n - 2) = true → Sys2Proof.Machine.older r.newer (n - 2) = false := by
        rw [Bool.or_eq_true, beq_iff_eq, beq_iff_eq]
        rintro (h | h)
        · rw [h, older_next]
        · rw [h, older_self]
      cases used : r.used with
      | true => rfl
      | false =>
        cases take : (r.newer == n - 1 || r.newer == n - 2) with
        | true => rw [recent take]; rfl
        | false => cases Sys2Proof.Machine.older r.newer (n - 2) <;> rfl

/-! ## The measured shift (R58) -/

theorem blend_eq (fault trusted : Bool) (g v : Int) : blend fault trusted g v =
    if fault then (if trusted then sat32 v else 0)
    else if trusted then sat32 (g + roundDiv (v - g) 4)
    else sat32 g := by
  cases fault <;> cases trusted <;> rfl

/-! ## The crop (R59) -/

section
variable (s : State) (b : Stb) (a after : StabAxis) (leak : Int) (margin number : Nat) (n : Serial)

/-- STAB_EDGE occurs for an axis whose offset goes beyond its margin now and did not at the frame start before. -/
theorem State.reportEdge_move : s.reportEdge a (a.move leak margin) leak number n =
    if 16 * (margin : Int) < (a.accumulated leak).natAbs ∧ a.clampedLast = false then
      s.report .stabEdge (u8 number ++ u8 (if a.accumulated leak < 0 then 1 else 0) ++ serialBytes n)
    else s := by
  unfold State.reportEdge
  refine if_congr ?_ rfl rfl
  simp [StabAxis.move, StabAxis.clamps]

/-- A report of STAB_EDGE goes past STB's record. -/
theorem State.reportEdge_stb {v : State} (h : v = { s with stb := b }) : v.reportEdge a after leak number n =
    { s.reportEdge a after leak number n with stb := b } := by
  subst h
  unfold State.reportEdge
  split <;> rfl

@[simp] theorem State.reportEdge_pwc : (s.reportEdge a after leak number n).pwc = s.pwc := by
  unfold State.reportEdge
  split <;> rfl

@[simp] theorem State.moveCrop_pwc : (s.moveCrop leak n).pwc = s.pwc := by
  simp [State.moveCrop]

@[simp] theorem State.stabMoves_pwc : (s.stabMoves n).pwc = s.pwc := by
  unfold State.stabMoves
  split <;> simp

/-- Both axes move, and the fresh clamps are told, x before y. -/
theorem State.moveCrop_eq : ({ s with stb := b } : State).moveCrop leak n =
    { (s.reportEdge b.x (b.x.move leak b.settings.marginX) leak 0 n).reportEdge b.y (b.y.move leak b.settings.marginY) leak 1 n with
      stb := { b with x := b.x.move leak b.settings.marginX, y := b.y.move leak b.settings.marginY } } :=
  State.reportEdge_stb _ _ _ _ _ _ _ (State.reportEdge_stb s _ _ _ _ _ _ rfl)

end

/-! ## The states (R60) -/

section
variable (s : State) (b : Stb) (n : Serial)

theorem State.stabMoves_off (h : b.state = .off) : ({ s with stb := b } : State).stabMoves n = { s with stb := b.unclamped } := by
  unfold State.stabMoves
  dsimp only
  rw [h]
  rfl

theorem State.stabMoves_settling (h : b.state = .settling) : ({ s with stb := b } : State).stabMoves n = { s with stb := b.unclamped.settleFrame } := by
  unfold State.stabMoves
  dsimp only
  rw [h]
  rfl

theorem State.stabMoves_returning (h : b.state = .returning) : ({ s with stb := b } : State).stabMoves n = { s with stb := b.unclamped.returnFrame } := by
  unfold State.stabMoves
  dsimp only
  rw [h]
  rfl

theorem State.stabMoves_active (h : b.state = .active) : ({ s with stb := b } : State).stabMoves n =
    (({ s with stb := b } : State).moveCrop 2 n).modifyStb Stb.judgePan := by
  unfold State.stabMoves
  dsimp only
  rw [h]

theorem State.stabMoves_panning (h : b.state = .panning) : ({ s with stb := b } : State).stabMoves n =
    (({ s with stb := b } : State).moveCrop 32 n).modifyStb Stb.judgeQuiet := by
  unfold State.stabMoves
  dsimp only
  rw [h]

end

/-! ## SETTLING and RETURNING (R60, R62) -/

theorem Stb.settleFrame_eq (b : Stb) : b.settleFrame =
    if b.settle ≤ 1 then { b.freshPan with settle := 0, state := .active } else { b with settle := b.settle - 1 } := by
  unfold Stb.settleFrame
  by_cases last : b.settle ≤ 1
  · have none : b.settle - 1 = 0 := by omega
    simp only [none, if_pos last, if_true]
    rfl
  · exact (if_neg (by dsimp only; omega)).trans (if_neg last).symm

theorem Stb.returnFrame_eq (b : Stb) : b.returnFrame =
    if b.x.decay.c.natAbs < 16 ∧ b.y.decay.c.natAbs < 16 then
      let centred := { b with x := { b.x with c := 0 }, y := { b.y with c := 0 } }
      if b.followSettling then { centred with state := .settling, settle := 8 } else { centred with state := .off }
    else { b with x := b.x.decay, y := b.y.decay } := by
  unfold Stb.returnFrame
  exact if_congr (Bool.and_eq_true_iff.trans (and_congr decide_eq_true_iff decide_eq_true_iff)) rfl rfl

/-! ## Trust (R58) -/

theorem distance_gt {x y : Nat} : 32 < distance x y ↔ y + 32 < x ∨ x + 32 < y := by
  unfold distance
  split <;> omega

theorem CorrResult.distinct_iff {r : CorrResult} {best second : Candidate} {others : List Candidate}
    (h : r.best = best :: second :: others) : r.distinct = true ↔
      ((second.dx - best.dx).natAbs ≤ 1 ∧ (second.dy - best.dy).natAbs ≤ 1) ∨ best.sad + best.sad / 8 ≤ second.sad := by
  rw [CorrResult.distinct, h]
  simp

/-- The tests of R58 in their order. -/
theorem distrustOf_some {r : CorrResult} {best second : Candidate} {others : List Candidate}
    (h : r.best = best :: second :: others) (lens : LensRecord) : distrustOf (some r) lens =
      if lens.previousZoom + 32 < lens.report.zoom ∨ lens.report.zoom + 32 < lens.previousZoom then some .zoomMoving
      else if r.mean = 0 then some .flat
      else if 3 * r.mean < 4 * best.sad then some .weak
      else if ¬ ((second.dx - best.dx).natAbs ≤ 1 ∧ (second.dy - best.dy).natAbs ≤ 1) ∧ second.sad < best.sad + best.sad / 8 then
        some .ambiguous
      else none := by
  have first : (r.best.head?.map Candidate.sad).getD 0 = best.sad := by rw [h]; rfl
  unfold distrustOf
  dsimp only
  rw [first, if_congr distance_gt rfl rfl]
  refine if_congr Iff.rfl rfl (if_congr Iff.rfl rfl (if_congr Iff.rfl rfl (if_congr ?_ rfl rfl)))
  rw [Bool.not_eq_true', ← Bool.not_eq_true, CorrResult.distinct_iff h, not_or, not_le]

/-- The vector is the best offset with its sub-tile fraction (R57). -/
theorem vectorsOf_cons {r : CorrResult} {best : Candidate} {others : List Candidate} (h : r.best = best :: others) (decimation : Nat) :
    vectorsOf (some r) decimation =
      ((16 * best.dx + fraction best.sad r.left r.right) * decimation, (16 * best.dy + fraction best.sad r.up r.down) * decimation) := by
  rw [vectorsOf, h]

/-! ## The frame start -/

/-- STB takes its oldest frame start. -/
theorem State.stbStep_cons {s : State} {f : FrameStart} {rest : List FrameStart} (due : s.due.stb = f :: rest) :
    s.stbStep = ({ s with due := { s.due with stb := rest } } : State).stbFrame f := by
  rw [State.stbStep, due]

/-- The window record of frame start `n`, with VOG enabled or not (R65). -/
theorem State.sendWindow_eq {v : State} {w : WindowRecord} {n : Serial} {vog : Bool} (serial : w.serial = n)
    (shown : v.pwc.enables.vog = vog) : v.sendWindow w =
      { v with
        stb := { v.stb with sent := some w }
        bfm := v.bfm.modifyEntry n (fun e => { e with window := some w })
        vog := if vog then { v.vog with window := some w } else v.vog } := by
  subst serial shown
  rfl

/-- A working STB measures, moves on and sends the window record of the outcome. -/
theorem State.stbFrame_acts {s : State} {f : FrameStart} (ran : f.inRun = true) (runs : s.stbRuns = true) (on : f.stbOff = false) :
    s.stbFrame f =
      let v := ({ s with stb := s.stb.measure f.serial (s.lensRecordFor f) } : State).stabMoves f.serial
      v.sendWindow (v.stb.windowRecord f.serial) := by
  have ⟨run, enabled⟩ : s.pwc.inRun = true ∧ s.pwc.enables.stb = true := by simpa [State.stbRuns] using runs
  exact (if_neg (by simp [ran, run])).trans (if_neg (by simp [enabled, on]))

/-- Settles O22: the stages 1 to 6 make the measured record, each state moves the crop on from there, and the window record is sent. -/
theorem stabFrame : Obligations.StabFrame := by
  unfold Obligations.StabFrame
  refine ⟨fun f rest s works due => ?_, fun lens decimation => ⟨rfl, rfl, fun r best second others four => ?_⟩⟩
  · intro b n u sends lens r stale distrust gain axis v m offset crop cropped edge edges free fresh decayed centred home goes
    have becomes {t : State} (h : u.stbFrame f = t) : Becomes .stbFrameStart s t :=
      becomes_act works (f := State.stbStep) rfl ((State.stbStep_cons due).trans h)
    have sent {v : State} {w : WindowRecord} (pwc : v.pwc = s.pwc) (serial : w.serial = n) : v.sendWindow w = sends v w :=
      State.sendWindow_eq serial (by rw [pwc])
    refine ⟨fun rests => becomes (if_pos ?_), fun ran run off => becomes ?_, fun ran runs on => ?_⟩
    · rcases rests with rests | rests
      · simp [rests]
      · simp [u, rests]
    · calc u.stbFrame f = u.sendWindow (.disabled n) := (if_neg (by simp [u, ran, run])).trans (if_pos (by simpa [u] using off))
        _ = _ := sent rfl rfl
    · have measured : b.measure n (u.lensRecordFor f) = m := by
        rw [State.lensRecordFor_congr (u := u) (v := s) ⟨rfl, rfl, rfl⟩ rfl]
        unfold Stb.measure StabAxis.measure
        rw [Stb.takeResult_eq]
        simp only [blend_eq]
        rfl
      have frame : u.stbFrame f =
          (({ u with stb := m } : State).stabMoves n).sendWindow ((({ u with stb := m } : State).stabMoves n).stb.windowRecord n) := by
        rw [← measured]
        exact State.stbFrame_acts ran runs on
      have kept : (({ u with stb := m } : State).stabMoves n).pwc = s.pwc := State.stabMoves_pwc _ _
      have acts {w : State} {next : Stb} (h : ({ u with stb := m } : State).stabMoves n = { w with stb := next }) : goes w next := by
        refine becomes (frame.trans ((sent kept rfl).trans ?_))
        rw [h]
        rfl
      have moves (leak : Int) : ({ u with stb := m } : State).moveCrop leak n = { edges u leak with stb := cropped leak } := by
        refine (State.moveCrop_eq u m leak n).trans ?_
        rw [State.reportEdge_move, State.reportEdge_move]
        rfl
      have put {x y : Stb} (h : x = y) : ({ u with stb := x } : State) = { u with stb := y } := by rw [h]
      refine ⟨fun off => acts (State.stabMoves_off u m n off), fun settling => acts ((State.stabMoves_settling u m n settling).trans ?_),
        fun active => acts ((State.stabMoves_active u m n active).trans (by rw [moves]; rfl)),
        fun panning => acts ((State.stabMoves_panning u m n panning).trans (by rw [moves]; rfl)),
        fun returning => ⟨fun near => acts ((State.stabMoves_returning u m n returning).trans ?_),
          fun far => acts ((State.stabMoves_returning u m n returning).trans ?_)⟩⟩
      · exact put free.settleFrame_eq
      · exact put (free.returnFrame_eq.trans (if_pos near))
      · exact put (free.returnFrame_eq.trans (if_neg far))
  · intro zooming weak near ambiguous
    rw [distrustOf_some four]
    refine ⟨fun moving => if_pos moving, fun still flat => ?_, fun still textured poor => ?_, fun still textured strong close => ?_,
      fun still textured strong clear => ?_, ?_⟩
    · rw [if_neg still, if_pos flat]
    · rw [if_neg still, if_neg textured, if_pos poor]
    · rw [if_neg still, if_neg textured, if_neg strong, if_pos close]
    · rw [if_neg still, if_neg textured, if_neg strong, if_neg clear]
    · intro frac
      have same (before after : Option Nat) : fraction best.sad before after = frac before after := by
        cases before <;> cases after <;> rfl
      rw [vectorsOf_cons four, same, same]

end Sys2Proof.Machine

namespace Sys2Proof.Machine

/-! # The crop's margins and panning (R59 to R61) -/

/-! ## The margins -/

theorem StabAxis.move_within (a : StabAxis) (leak : Int) (margin : Nat) : (a.move leak margin).c.natAbs ≤ 16 * margin := by
  unfold StabAxis.move saturate
  dsimp only
  split
  · omega
  · split <;> omega

/-- Stages 1 to 6 leave the state, the settings and the clamps of the frame start before. -/
theorem Stb.measure_keeps (b : Stb) (n : Serial) (lens : LensRecord) :
    (b.measure n lens).state = b.state ∧ (b.measure n lens).settings = b.settings ∧
      (b.measure n lens).x.clampedLast = b.x.clampedLast ∧ (b.measure n lens).y.clampedLast = b.y.clampedLast := by
  unfold Stb.measure
  rw [Stb.takeResult_eq]
  exact ⟨rfl, rfl, rfl, rfl⟩

/-! ## STAB_EDGE -/

/-- The notice table has its 20 sources, and the source is enabled: an occurrence makes it pending (R178). -/
def Lnk.hears (lnk : Lnk) (src : Source) : Prop := lnk.table.length = 20 ∧ (lnk.source src).enabled = true

theorem Lnk.hears.occur {lnk : Lnk} {src : Source} (h : lnk.hears src) (n : Serial) (detail : List (Option Byte)) :
    (lnk.occur n src detail).hears src ∧ ((lnk.occur n src detail).source src).pending = true := by
  obtain ⟨table, enabled⟩ := h
  have changed (f : SourceState → SourceState) : (lnk.modifySource src f).source src = f (lnk.source src) :=
    (Lnk.source_modifySource table src f src).trans (if_pos rfl)
  unfold Lnk.occur Lnk.hears
  dsimp only
  rw [enabled, if_neg (by decide)]
  split
  · next pending =>
    rw [changed, Lnk.table_modifySource]
    exact ⟨⟨table, enabled⟩, pending⟩
  · have drawn (l : Lnk) (k : Nat) : ({ l with drawn := k } : Lnk).source src = l.source src := rfl
    rw [drawn, changed]
    exact ⟨⟨(Lnk.table_modifySource ..).trans table, enabled⟩, rfl⟩

/-- What a judging of an axis's clamp does to a source that is heard: it stays so, pending or not, and a fresh clamp makes it pending. -/
theorem State.reportEdge_hears {s : State} (h : s.lnk.hears .stabEdge) (a after : StabAxis) (leak : Int) (number : Nat) (n : Serial) :
    (s.reportEdge a after leak number n).lnk.hears .stabEdge ∧
      ((s.lnk.source .stabEdge).pending = true ∨ after.clampedLast = true ∧ a.clampedLast = false →
        ((s.reportEdge a after leak number n).lnk.source .stabEdge).pending = true) := by
  unfold State.reportEdge
  split
  · obtain ⟨hears, pending⟩ := h.occur s.ftb.serial ((u8 number ++ u8 (if a.accumulated leak < 0 then 1 else 0) ++ serialBytes n).map some)
    exact ⟨hears, fun _ => pending⟩
  · next still =>
    refine ⟨h, fun edge => edge.resolve_right fun ⟨now, before⟩ => still ?_⟩
    rw [now, before]
    rfl

theorem Lnk.follow_pending (lnk : Lnk) (src : Source) : (lnk.follow.source src).pending = (lnk.source src).pending := by
  have same := (SameBut.of_unsent lnk.unsent_follow).source src
  simp only [SourceState.mk.injEq] at same
  obtain ⟨-, -, -, pending, -⟩ := same
  exact pending

@[simp] theorem State.settle_stb (s : State) : s.settle.stb = s.stb := by
  unfold State.settle; dsimp only; split <;> rfl

/-! ## The pan counters -/

theorem StabAxis.countPan_eq (a : StabAxis) (threshold : Nat) : a.countPan threshold = { a with
    swing := if threshold ≤ a.measured.natAbs then (if decide (0 ≤ a.measured) = a.swingPositive then a.swing + 1 else 1) else 0
    swingPositive := if threshold ≤ a.measured.natAbs then decide (0 ≤ a.measured) else a.swingPositive
    clampCount := if a.clampedLast then a.clampCount + 1 else 0 } := by
  unfold StabAxis.countPan
  dsimp only
  by_cases swings : threshold ≤ a.measured.natAbs
  · rw [if_pos swings, if_pos swings, if_pos swings]
    by_cases same : decide (0 ≤ a.measured) = a.swingPositive
    · rw [if_pos (beq_iff_eq.mpr same), if_pos same, same]
    · rw [if_neg (fun h => same (beq_iff_eq.mp h)), if_neg same]
  · rw [if_neg swings, if_neg swings, if_neg swings]

theorem StabAxis.countPan_keeps (a : StabAxis) (threshold : Nat) :
    (a.countPan threshold).c = a.c ∧ (a.countPan threshold).clampedLast = a.clampedLast := by
  rw [StabAxis.countPan_eq]
  exact ⟨rfl, rfl⟩

theorem StabAxis.pans_iff (a : StabAxis) : a.pans = true ↔ 8 ≤ a.swing ∨ 4 ≤ a.clampCount := by
  simp [StabAxis.pans]

/-- The end of a frame in ACTIVE (R61). -/
theorem Stb.judgePan_eq (b : Stb) :
    let counted := { b with x := b.x.countPan b.settings.panThreshold, y := b.y.countPan b.settings.panThreshold }
    b.judgePan =
      if (8 ≤ counted.x.swing ∨ 4 ≤ counted.x.clampCount) ∨ 8 ≤ counted.y.swing ∨ 4 ≤ counted.y.clampCount then
        { counted.freshPan with state := .panning }
      else counted := by
  intro counted
  unfold Stb.judgePan
  refine if_congr (Bool.or_eq_true_iff.trans (or_congr ?_ ?_)) rfl rfl
  · exact counted.x.pans_iff
  · exact counted.y.pans_iff

/-- The end of a frame in PANNING (R61). -/
theorem Stb.judgeQuiet_eq (b : Stb) :
    b.judgeQuiet =
      if 2 * b.x.measured.natAbs < b.settings.panThreshold ∧ 2 * b.y.measured.natAbs < b.settings.panThreshold then
        if 15 ≤ b.quiet then { b.freshPan with state := .active } else { b with quiet := b.quiet + 1 }
      else { b with quiet := 0 } := by
  have quiet : (b.x.isQuiet b.settings.panThreshold && b.y.isQuiet b.settings.panThreshold) = true ↔
      2 * b.x.measured.natAbs < b.settings.panThreshold ∧ 2 * b.y.measured.natAbs < b.settings.panThreshold := by
    simp [StabAxis.isQuiet]
  unfold Stb.judgeQuiet
  dsimp only
  rw [if_congr quiet rfl rfl]
  split
  · exact if_congr (by omega) rfl rfl
  · rfl

/-- The judging of the pan counters leaves the crop and the clamps. -/
theorem Stb.judgePan_keeps (b : Stb) : b.judgePan.x.c = b.x.c ∧ b.judgePan.y.c = b.y.c ∧ b.judgePan.settings = b.settings ∧
    b.judgePan.x.clampedLast = b.x.clampedLast ∧ b.judgePan.y.clampedLast = b.y.clampedLast := by
  obtain ⟨xStands, xClamped⟩ := b.x.countPan_keeps b.settings.panThreshold
  obtain ⟨yStands, yClamped⟩ := b.y.countPan_keeps b.settings.panThreshold
  rw [Stb.judgePan_eq]
  dsimp only
  split <;> exact ⟨xStands, yStands, rfl, xClamped, yClamped⟩

theorem Stb.judgeQuiet_keeps (b : Stb) : b.judgeQuiet.x.c = b.x.c ∧ b.judgeQuiet.y.c = b.y.c ∧
    b.judgeQuiet.x.clampedLast = b.x.clampedLast ∧ b.judgeQuiet.y.clampedLast = b.y.clampedLast := by
  rw [Stb.judgeQuiet_eq]
  split
  · split <;> exact ⟨rfl, rfl, rfl, rfl⟩
  · exact ⟨rfl, rfl, rfl, rfl⟩

/-! ## The frame start in ACTIVE and PANNING -/

/-- What the states that move the crop make of it: stages 7 and 8 on both axes, and the fresh clamps told (R59). -/
structure CropMoved (s v : State) (b : Stb) (leak : Int) (n : Serial) : Prop where
  x : v.stb.x.c = (b.x.move leak b.settings.marginX).c
  y : v.stb.y.c = (b.y.move leak b.settings.marginY).c
  xClamped : v.stb.x.clampedLast = (b.x.move leak b.settings.marginX).clampedLast
  yClamped : v.stb.y.clampedLast = (b.y.move leak b.settings.marginY).clampedLast
  lnk : v.lnk = ((s.reportEdge b.x (b.x.move leak b.settings.marginX) leak 0 n).reportEdge b.y
    (b.y.move leak b.settings.marginY) leak 1 n).lnk

theorem State.stabMoves_crop (s : State) {b : Stb} (n : Serial) (working : b.state = .active ∨ b.state = .panning) :
    ∃ leak, CropMoved s (({ s with stb := b } : State).stabMoves n) b leak n := by
  rcases working with active | panning
  · obtain ⟨x, y, -, xClamped, yClamped⟩ := (({ s with stb := b } : State).moveCrop 2 n).stb.judgePan_keeps
    rw [State.stabMoves_active s b n active]
    rw [State.moveCrop_eq] at x y xClamped yClamped ⊢
    exact ⟨2, x, y, xClamped, yClamped, rfl⟩
  · obtain ⟨x, y, xClamped, yClamped⟩ := (({ s with stb := b } : State).moveCrop 32 n).stb.judgeQuiet_keeps
    rw [State.stabMoves_panning s b n panning]
    rw [State.moveCrop_eq] at x y xClamped yClamped ⊢
    exact ⟨32, x, y, xClamped, yClamped, rfl⟩

/-- An axis that is clamped now and was not before has made STAB_EDGE pending (R59). -/
theorem CropMoved.edge {s v : State} {b : Stb} {leak : Int} {n : Serial} (moved : CropMoved s v b leak n) (hears : s.lnk.hears .stabEdge)
    (fresh : (v.stb.x.clampedLast = true ∧ b.x.clampedLast = false) ∨ v.stb.y.clampedLast = true ∧ b.y.clampedLast = false) :
    (v.lnk.source .stabEdge).pending = true := by
  obtain ⟨xHears, xEdge⟩ := State.reportEdge_hears hears b.x (b.x.move leak b.settings.marginX) leak 0 n
  obtain ⟨-, yEdge⟩ := State.reportEdge_hears xHears b.y (b.y.move leak b.settings.marginY) leak 1 n
  rw [moved.xClamped, moved.yClamped] at fresh
  rw [moved.lnk]
  exact yEdge (fresh.imp_left fun x => xEdge (.inr x))

/-- Settles O23: the crop is saturated at the margin of the settings, a fresh clamp is told, and the counters are judged as R61 says. -/
theorem cropAndPanLaws : Obligations.CropAndPanLaws := by
  unfold Obligations.CropAndPanLaws
  refine ⟨fun f rest s t works due ran on runs working stepped => ?_, fun b => ?_⟩
  · let u : State := { s with due := { s.due with stb := rest } }
    let m := s.stb.measure f.serial (u.lensRecordFor f)
    obtain ⟨state, settings, xBefore, yBefore⟩ : m.state = s.stb.state ∧ m.settings = s.stb.settings ∧
        m.x.clampedLast = s.stb.x.clampedLast ∧ m.y.clampedLast = s.stb.y.clampedLast := s.stb.measure_keeps _ _
    obtain ⟨leak, moved⟩ := u.stabMoves_crop f.serial (b := m) (by rwa [state])
    have next : exec .stbFrameStart s = .next s.stbStep.settle := s.act_works works State.stbStep
    obtain rfl : t = s.stbStep.settle := Host.Outcome.next.inj (stepped.symm.trans next)
    rw [State.stbStep_cons due, State.settle_stb, State.settle_lnk, Lnk.follow_pending, State.stbFrame_acts (s := u) ran runs on,
      ← settings, ← xBefore, ← yBefore]
    refine ⟨?_, ?_, fun fresh enabled table => moved.edge ⟨table, enabled⟩ fresh⟩
    · exact (congrArg Int.natAbs moved.x).trans_le (m.x.move_within leak _)
    · exact (congrArg Int.natAbs moved.y).trans_le (m.y.move_within leak _)
  · intro positive swing clamps pans isQuiet afresh
    let counted := { b with x := b.x.countPan b.settings.panThreshold, y := b.y.countPan b.settings.panThreshold }
    have counts (a : StabAxis) : (a.countPan b.settings.panThreshold).swing = swing a ∧
        (a.countPan b.settings.panThreshold).clampCount = clamps a := by
      rw [StabAxis.countPan_eq]
      exact ⟨rfl, rfl⟩
    obtain ⟨xSwing, xClamps⟩ := counts b.x
    obtain ⟨ySwing, yClamps⟩ := counts b.y
    have judged : b.judgePan = if pans then { counted.freshPan with state := .panning } else counted := by
      rw [Stb.judgePan_eq]
      dsimp only
      rw [xSwing, xClamps, ySwing, yClamps]
    obtain ⟨xStands, yStands, settings, -⟩ := b.judgePan_keeps
    refine ⟨fun swings => ?_, fun steady => ?_, ⟨xStands, yStands, settings⟩, fun ⟨calm, long⟩ => ?_, fun ⟨calm, short⟩ => ?_,
      fun moving => ?_⟩
    · rw [judged, if_pos swings]
      exact ⟨rfl, rfl, rfl, rfl, rfl, rfl⟩
    · rw [judged, if_neg steady]
      exact ⟨rfl, xSwing, ySwing, xClamps, yClamps⟩
    · rw [Stb.judgeQuiet_eq, if_pos calm, if_pos long]
      exact ⟨rfl, ⟨rfl, rfl, rfl, rfl, rfl⟩, rfl, rfl⟩
    · rw [Stb.judgeQuiet_eq, if_pos calm, if_neg (by omega)]
    · rw [Stb.judgeQuiet_eq, if_neg moving]

end Sys2Proof.Machine

namespace Sys2Proof.Machine

/-! # Sample frames (R70, R73 to R76, R78) -/

/-! ## A channel and its pair -/

theorem Channel.isOver_iff (c : Channel) (x : Int) : c.isOver x = true ↔ c.gained x ≠ c.scaled x := bne_iff_ne

/-- A channel's record after a sample (R73, R74), by whether the sample is an over. -/
theorem Channel.accept_eq (c : Channel) (x : Int) : c.accept x =
    let peaked := { c with blockPeak := max c.blockPeak (c.gained x).natAbs }
    if c.gained x ≠ c.scaled x then { peaked with overs := min 65535 (c.overs + 1), overReported := true } else peaked :=
  ite_congr (propext (c.isOver_iff x)) (fun _ => rfl) (fun _ => rfl)

/-- The store loses its oldest sample frame when it is full (R78). -/
theorem Pair.joinStore_eq (p : Pair) (x : SampleFrame) : p.joinStore x =
    { p with
      store := (if 4096 ≤ p.store.length then p.store.drop 1 else p.store) ++ [x]
      dropped := if 4096 ≤ p.store.length then p.dropped + 1 else p.dropped } := by
  unfold Pair.joinStore
  by_cases room : p.store.length < 4096
  · rw [if_pos room, if_neg (by omega), if_neg (by omega)]
  · rw [if_neg room, if_pos (by omega), if_pos (by omega)]

/-! ## AUDIO_OVER -/

@[simp] theorem State.reportOver_ftb (s : State) (pair : Side) (w : Which) (first : Bool) :
    (s.reportOver pair w first).ftb = s.ftb := by
  unfold State.reportOver
  cases first <;> rfl

/-- AUDIO_OVER is told of a channel's first over of the frame (R74). -/
theorem State.reportOver_eq (s : State) (pair : Side) (w : Which) (c : Channel) (x : Int) :
    s.reportOver pair w (c.firstOver x) =
      if c.gained x ≠ c.scaled x ∧ c.overReported = false
      then s.report .audioOver (u8 (channelNumber pair w) ++ serialBytes s.ftb.serial) else s := by
  have first : c.firstOver x = true ↔ c.gained x ≠ c.scaled x ∧ c.overReported = false := by
    rw [Channel.firstOver, Bool.and_eq_true, c.isOver_iff, Bool.not_eq_true']
  exact ite_congr (propext first) (fun _ => rfl) (fun _ => rfl)

/-! ## The sample frame -/

theorem State.sampleFrame_discarded {s : State} {pair : Side}
    (rests : s.pwc.inRun = false ∨ s.pwc.enables.aud = false ∨ (s.aud.pairs.get pair).state = .off) (x y : Int) :
    s.sampleFrame pair x y = s :=
  if_pos (by simpa [or_assoc] using rests)

theorem State.sampleFrame_accepted {s : State} {pair : Side} (run : s.pwc.inRun = true) (on : s.pwc.enables.aud = true)
    (routed : (s.aud.pairs.get pair).state ≠ .off) (x y : Int) :
    let p := s.aud.pairs.get pair
    let put : State := { s with aud := { pairs := s.aud.pairs.set pair (p.accept x y) } }
    s.sampleFrame pair x y = (put.reportOver pair .first (p.first.firstOver x)).reportOver pair .second (p.second.firstOver y) :=
  if_neg (by simpa [run, on] using routed)

/-- Settles O25: the pair accepts the sample frame as R73, R74 and R78 say, and each channel's first over of the frame is told. -/
theorem sampleFrameTaken : Obligations.SampleFrameTaken := by
  unfold Obligations.SampleFrameTaken
  intro side x y s works p n scaled gained out isOver took frame isFull p' p'' tell put
  have becomes {u : State} (h : s.sampleFrame side x.toInt y.toInt = u) : Becomes (.sampleFrame side x y) s u :=
    becomes_act works (f := fun s => s.sampleFrame side x.toInt y.toInt) rfl h
  refine ⟨fun rests => becomes (State.sampleFrame_discarded rests _ _), fun run on routed => becomes ?_⟩
  have accepted : p.accept x.toInt y.toInt = p'' := by
    unfold Pair.accept
    rw [Pair.joinStore_eq, Channel.accept_eq, Channel.accept_eq]
    rfl
  have told (u : State) (w : Which) (c : Channel) (z : Int) (serial : u.ftb.serial = n) :
      u.reportOver side w (c.firstOver z) = tell u c z (channelNumber side w) := by
    rw [State.reportOver_eq, serial]
    rfl
  have first := told put .first p.first x.toInt rfl
  have second := told (put.reportOver side .first (p.first.firstOver x.toInt)) .second p.second y.toInt
    (congrArg Ftb.serial (State.reportOver_ftb ..))
  have taken := State.sampleFrame_accepted run on routed x.toInt y.toInt
  dsimp only at taken
  rw [accepted] at taken
  exact taken.trans (second.trans (congrArg (tell · p.second y.toInt (2 * side.code + 2)) first))

end Sys2Proof.Machine

namespace Sys2Proof.Machine

/-! # AUD's requests (R71, R77) -/

/-! ## Pending settings -/

/-- The settings that take effect, and what stays of the reduction (R77): all of it, unless a limiter setting leaves or enters
a limiter that is off. -/
theorem Channel.applyPending_eq (c : Channel) :
    let l := c.pendingLimiter.getD c.limiter
    let keep := c.pendingLimiter = none ∨ (c.limiter.on = true ∧ l.on = true)
    c.applyPending = { c with
      gain := c.pendingGain.getD c.gain, pendingGain := none, limiter := l, pendingLimiter := none
      reduction := if keep then c.reduction else 0, releaseCount := if keep then c.releaseCount else 0 } := by
  obtain ⟨gain, pendingGain, limiter, pendingLimiter⟩ := c
  cases pendingGain <;> cases pendingLimiter with
  | none => rfl
  | some l =>
    simp only [Channel.applyPending, Channel.setLimiter, Option.getD_some, Option.getD_none, reduceCtorEq, false_or,
      Bool.and_eq_true]
    split <;> rfl

@[simp] theorem Pair.channel_modifyChannel (p : Pair) (w : Which) (f : Channel → Channel) :
    (p.modifyChannel w f).channel w = f (p.channel w) := by
  cases w <;> rfl

@[simp] theorem Pair.state_modifyChannel (p : Pair) (w : Which) (f : Channel → Channel) :
    (p.modifyChannel w f).state = p.state := by
  cases w <;> rfl

theorem Pair.modifyChannel_modifyChannel (p : Pair) (w : Which) (f g : Channel → Channel) :
    (p.modifyChannel w f).modifyChannel w g = p.modifyChannel w (fun c => g (f c)) := by
  cases w <;> rfl

theorem Pair.modifyChannel_const (p : Pair) (w : Which) (f : Channel → Channel) :
    p.modifyChannel w f = p.modifyChannel w (fun _ => f (p.channel w)) := by
  cases w <;> rfl

/-- The channel that pending settings leave: they wait for the block's end, except in an OFF pair (R77). -/
def Pair.settled (p : Pair) (c : Channel) : Channel := if p.state = .off then c.applyPending else c

theorem State.setPending_eq (s : State) (side : Side) (w : Which) (f : Channel → Channel) :
    let p := s.aud.pairs.get side
    s.setPending side w f =
      { s with aud := { pairs := s.aud.pairs.set side (p.modifyChannel w (fun _ => p.settled (f (p.channel w)))) } } := by
  intro p
  unfold State.setPending Pair.settled
  by_cases off : p.state = .off
  · simp only [show (s.aud.pairs.get side).state = .off from off, Pair.state_modifyChannel, beq_self_eq_true, if_true,
      Pair.modifyChannel_modifyChannel, off]
    rw [Pair.modifyChannel_const]
  · simp only [Pair.state_modifyChannel, beq_iff_eq, if_neg off, show ¬ (s.aud.pairs.get side).state = .off from off, if_false]
    rw [Pair.modifyChannel_const]

/-! ## Fields -/

theorem channelOf_channelNumber (side : Side) (w : Which) : channelOf (channelNumber side w) = some (side, w) := by
  cases side <;> cases w <;> rfl

theorem channelOf_none : ∀ {n : Nat}, ¬ (1 ≤ n ∧ n ≤ 4) → channelOf n = none
  | 0, _ => rfl
  | 1, out | 2, out | 3, out | 4, out => absurd ⟨by decide, by decide⟩ out
  | _ + 5, _ => rfl

/-- Each channel of 1 to 4 is one of a pair's two. -/
theorem exists_channelNumber {n : Nat} (least : 1 ≤ n) (most : n ≤ 4) : ∃ side w, n = channelNumber side w := by
  obtain rfl | rfl | rfl | rfl : n = 1 ∨ n = 2 ∨ n = 3 ∨ n = 4 := by omega
  exacts [⟨.a, .first, rfl⟩, ⟨.a, .second, rfl⟩, ⟨.b, .first, rfl⟩, ⟨.b, .second, rfl⟩]

theorem channelNumber_le (side : Side) (w : Which) : channelNumber side w ≤ 255 := by
  cases side <;> cases w <;> decide

/-- The byte at a place of a payload reads as the number written there. -/
theorem num_u8 {x : Nat} (fits : x ≤ 255) (front back : List Byte) : num (front ++ (u8 x ++ back)) front.length 1 = x :=
  num_field front back 1 x (by omega)

/-! ## AUDIO_ROUTE -/

theorem reqAudioRoute_eq {p : List Byte} {a b : Bool} (s : State) (readA : flagAt p 0 = some a) (readB : flagAt p 1 = some b) :
    let route := fun (on : Bool) (x : Pair) => if on then x.switchOn else x.switchOff
    let pairs : Two Pair := { a := route a s.aud.pairs.a, b := route b s.aud.pairs.b }
    reqAudioRoute p s =
      if s.pwc.inRun = false then refuse s .badState
      else answerOk { s with aud := { pairs := pairs } } (u8 pairs.a.state.code ++ u8 pairs.b.state.code) := by
  rw [reqAudioRoute, readA, readB]
  cases s.pwc.inRun <;> rfl

theorem reqAudioRoute_bad {a b : Nat} (fitsA : a ≤ 255) (fitsB : b ≤ 255) (bad : 1 < a ∨ 1 < b) (s : State) :
    reqAudioRoute (u8 a ++ u8 b) s = refuse s .badValue := by
  unfold reqAudioRoute
  split
  · next readA readB =>
    have := flagAt_within (num_u8 fitsA [] (u8 b)) readA
    have := flagAt_within (num_u8 fitsB (u8 a) []) readB
    omega
  · rfl

/-! ## AUDIO_GAIN -/

theorem reqAudioGain_eq (side : Side) (w : Which) {gain : Nat} (most : gain ≤ 60) (s : State) :
    let p := s.aud.pairs.get side
    let c := p.settled { p.channel w with pendingGain := some gain }
    reqAudioGain (u8 (channelNumber side w) ++ u8 gain) s =
      if s.pwc.inRun = false then refuse s .badState
      else answerOk { s with aud := { pairs := s.aud.pairs.set side (p.modifyChannel w (fun _ => c)) } }
        (u8 c.gain ++ presence 1 (c.pendingGain.map u8)) := by
  intro p c
  have readChannel : num (u8 (channelNumber side w) ++ u8 gain) 0 1 = channelNumber side w :=
    num_u8 (channelNumber_le side w) [] (u8 gain)
  have readGain : num (u8 (channelNumber side w) ++ u8 gain) 1 1 = gain := num_u8 (by omega) (u8 (channelNumber side w)) []
  rw [reqAudioGain, readChannel, channelOf_channelNumber, rangeAt_of_num readGain (Nat.zero_le gain) most]
  dsimp only
  rw [State.setPending_eq]
  dsimp only
  rw [Two.get_set_same, Pair.channel_modifyChannel]
  cases s.pwc.inRun <;> rfl

theorem reqAudioGain_bad {channel gain : Nat} (fitsChannel : channel ≤ 255) (fitsGain : gain ≤ 255)
    (bad : ¬ (1 ≤ channel ∧ channel ≤ 4 ∧ gain ≤ 60)) (s : State) :
    reqAudioGain (u8 channel ++ u8 gain) s = refuse s .badValue := by
  have readChannel : num (u8 channel ++ u8 gain) 0 1 = channel := num_u8 fitsChannel [] (u8 gain)
  unfold reqAudioGain
  rw [readChannel]
  split
  · next here readGain =>
    by_cases out : 1 ≤ channel ∧ channel ≤ 4
    · have := rangeAt_within (num_u8 fitsGain (u8 channel) []) readGain
      omega
    · rw [channelOf_none out] at here
      cases here
  · rfl

/-! ## AUDIO_LIMITER -/

section
variable {channel on threshold release : Nat}

/-- What the fields after the channel are read as. -/
theorem num_limiterFields (fitsOn : on ≤ 255) (fitsThreshold : threshold ≤ 255) (fitsRelease : release ≤ 255)
    (channel : Nat) :
    let p := u8 channel ++ u8 on ++ u8 threshold ++ u8 release
    num p 1 1 = on ∧ num p 2 1 = threshold ∧ num p 3 1 = release :=
  ⟨num_u8 fitsOn (u8 channel) _, num_u8 fitsThreshold (u8 channel ++ u8 on) _,
    num_u8 fitsRelease (u8 channel ++ u8 on ++ u8 threshold) []⟩

theorem reqAudioLimiter_eq (side : Side) (w : Which) (flag : on ≤ 1) (most : threshold ≤ 24) (least : 1 ≤ release)
    (fitsRelease : release ≤ 255) (s : State) :
    let p := s.aud.pairs.get side
    let c := p.settled { p.channel w with pendingLimiter := some { on := on == 1, threshold := threshold, release := release } }
    reqAudioLimiter (u8 (channelNumber side w) ++ u8 on ++ u8 threshold ++ u8 release) s =
      if s.pwc.inRun = false then refuse s .badState
      else answerOk { s with aud := { pairs := s.aud.pairs.set side (p.modifyChannel w (fun _ => c)) } }
        (c.limiter.bytes ++ presence 3 (c.pendingLimiter.map Limiter.bytes)) := by
  intro p c
  obtain ⟨onRead, thresholdRead, releaseRead⟩ :=
    num_limiterFields (on := on) (threshold := threshold) (by omega) (by omega) fitsRelease (channelNumber side w)
  have readChannel : num (u8 (channelNumber side w) ++ u8 on ++ u8 threshold ++ u8 release) 0 1 = channelNumber side w :=
    num_u8 (channelNumber_le side w) [] _
  rw [reqAudioLimiter, readChannel, channelOf_channelNumber, flagAt_small onRead flag,
    rangeAt_of_num thresholdRead (Nat.zero_le _) most, rangeAt_of_num releaseRead least fitsRelease]
  dsimp only
  rw [State.setPending_eq]
  dsimp only
  rw [Two.get_set_same, Pair.channel_modifyChannel]
  cases s.pwc.inRun <;> rfl

theorem reqAudioLimiter_bad (fitsChannel : channel ≤ 255) (fitsOn : on ≤ 255) (fitsThreshold : threshold ≤ 255)
    (fitsRelease : release ≤ 255) (bad : ¬ (1 ≤ channel ∧ channel ≤ 4 ∧ on ≤ 1 ∧ threshold ≤ 24 ∧ 1 ≤ release)) (s : State) :
    reqAudioLimiter (u8 channel ++ u8 on ++ u8 threshold ++ u8 release) s = refuse s .badValue := by
  obtain ⟨onRead, thresholdRead, releaseRead⟩ := num_limiterFields fitsOn fitsThreshold fitsRelease channel
  have readChannel : num (u8 channel ++ u8 on ++ u8 threshold ++ u8 release) 0 1 = channel := num_u8 fitsChannel [] _
  unfold reqAudioLimiter
  rw [readChannel]
  split
  · next here flag readThreshold readRelease =>
    by_cases out : 1 ≤ channel ∧ channel ≤ 4
    · have := flagAt_within onRead flag
      have := rangeAt_within thresholdRead readThreshold
      have := rangeAt_within releaseRead readRelease
      omega
    · rw [channelOf_none out] at here
      cases here
  · rfl

end

/-- Settles O29: each request's fields are read as they were written, and pending settings take effect as R77 says. -/
theorem audioRequestsTaken : Obligations.AudioRequestsTaken := by
  unfold Obligations.AudioRequestsTaken
  refine ⟨fun tag s ready enabled => ?_, Channel.applyPending_eq, fun tag s ready enabled run => ?_⟩
  · intro standby
    refine ⟨?_, ?_, ?_⟩
    · intro a b fitsA fitsB route
      refine ⟨fun bad => ?_, fun flagA flagB (stands : s.pwc.inRun = false) => ?_⟩
      · exact answers_refused ready rfl ⟨le_rfl, le_rfl⟩ (offUnless_on enabled) (reqAudioRoute_bad fitsA fitsB bad s)
      · exact answers_refused ready rfl ⟨le_rfl, le_rfl⟩ (offUnless_on enabled)
          ((reqAudioRoute_eq s (flagAt_small (num_u8 fitsA [] (u8 b)) flagA)
            (flagAt_small (num_u8 fitsB (u8 a) []) flagB)).trans (if_pos stands))
    · intro channel gain fitsChannel fitsGain c good
      refine ⟨fun bad => ?_, fun ⟨least, most, range⟩ (stands : s.pwc.inRun = false) => ?_⟩
      · exact answers_refused ready rfl ⟨le_rfl, le_rfl⟩ (offUnless_on enabled) (reqAudioGain_bad fitsChannel fitsGain bad s)
      · obtain ⟨side, w, rfl⟩ := exists_channelNumber least most
        exact answers_refused ready rfl ⟨le_rfl, le_rfl⟩ (offUnless_on enabled)
          ((reqAudioGain_eq side w range s).trans (if_pos stands))
    · intro channel on threshold release fitsChannel fitsOn fitsThreshold fitsRelease c good
      refine ⟨fun bad => ?_, fun ⟨least, most, flag, range, period⟩ (stands : s.pwc.inRun = false) => ?_⟩
      · exact answers_refused ready rfl ⟨le_rfl, le_rfl⟩ (offUnless_on enabled)
          (reqAudioLimiter_bad fitsChannel fitsOn fitsThreshold fitsRelease bad s)
      · obtain ⟨side, w, rfl⟩ := exists_channelNumber least most
        exact answers_refused ready rfl ⟨le_rfl, le_rfl⟩ (offUnless_on enabled)
          ((reqAudioLimiter_eq side w flag range period fitsRelease s).trans (if_pos stands))
  · intro put
    refine ⟨?_, ?_, ?_⟩
    · intro a b routed pairs
      have route (on : Bool) (p : Pair) : (if on then p.switchOn else p.switchOff) = routed p on := by
        obtain ⟨state⟩ := p
        cases on <;> cases state <;> rfl
      refine answers_ok ready rfl ⟨le_rfl, le_rfl⟩ (offUnless_on enabled) ?_ rfl
      refine (reqAudioRoute_eq s (flagAt_flagByte [] (flagByte b) a) (flagAt_flagByte (flagByte a) [] b)).trans ?_
      rw [if_neg (by simp [run])]
      dsimp only
      rw [route, route]
    · intro side w gain most p c set' c'
      exact answers_ok ready rfl ⟨le_rfl, le_rfl⟩ (offUnless_on enabled)
        ((reqAudioGain_eq side w most s).trans (if_neg (by simp [run]))) rfl
    · intro side w on threshold release most least fitsRelease p c l set' c' told
      have flag : (if on then 1 else 0) ≤ 1 := by split <;> decide
      have written : ((if on then 1 else 0 : Nat) == 1) = on := by cases on <;> rfl
      have taken := reqAudioLimiter_eq side w flag most least fitsRelease s
      rw [written] at taken
      exact answers_ok ready rfl ⟨le_rfl, le_rfl⟩ (offUnless_on enabled) (taken.trans (if_neg (by simp [run]))) rfl

end Sys2Proof.Machine

namespace Sys2Proof.Machine

/-! # A hand-over to the buffer memory (R81, R92) -/

/-! ## Bytes placed read back -/

/-- Bytes placed at addresses that exist and differ read back as they were placed. -/
theorem Memory.fetch_place {m : Memory} {pages : List Nat} {i : Nat} {bytes : List Byte} (h : m.wf = true)
    (inside : ∀ j, i ≤ j → j < i + bytes.length → pageAddress pages j < memorySize)
    (apart : ∀ j k, i ≤ j → j < k → k < i + bytes.length → pageAddress pages j ≠ pageAddress pages k) :
    (m.place pages i bytes).fetch pages i bytes.length = bytes := by
  induction bytes generalizing m i with
  | nil => rfl
  | cons b rest ih =>
    rw [List.length_cons] at inside apart
    have head : ((m.write (pageAddress pages i) b).place pages (i + 1) rest).read (pageAddress pages i) = b := by
      rw [Memory.read_place_other (Memory.write_wf h) (fun j above below => apart i j le_rfl (by omega) (by omega)),
        Memory.read_write h (inside i le_rfl (by omega)), if_pos rfl]
    have tail := ih (m := m.write (pageAddress pages i) b) (i := i + 1) (Memory.write_wf h)
      (fun j above below => inside j (by omega) (by omega)) (fun j k above between below => apart j k (by omega) between (by omega))
    rw [Memory.place, List.length_cons, Memory.fetch, head, tail]

theorem pageAddress_single {page i : Nat} (within : i < 16384) : pageAddress [page] i = page * 16384 + i := by
  rw [pageAddress, pageSize, Nat.div_eq_of_lt within, Nat.mod_eq_of_lt within]
  rfl

/-- What a page can hold reads back from it (R88). -/
theorem Memory.fetch_place_page {m : Memory} {page : Nat} {bytes : List Byte} (h : m.wf = true) (isPage : page < 16384)
    (fits : bytes.length ≤ 16384) : (m.place [page] 0 bytes).fetch [page] 0 bytes.length = bytes := by
  refine Memory.fetch_place h (fun j _ below => ?_) (fun j k _ between below => ?_)
  · rw [pageAddress_single (by omega), memorySize]
    omega
  · rw [pageAddress_single (by omega), pageAddress_single (by omega)]
    omega

/-- A sample frame takes six bytes (R197). -/
theorem Segment.bytes_length (g : Segment) : g.bytes.length = 6 * g.samples.length := by
  unfold Segment.bytes signedBytes
  induction g.samples with
  | nil => rfl
  | cons x xs ih =>
    rw [List.map_cons, List.flatten_cons, List.length_append, ih, List.length_append, beBytes_length,
      beBytes_length, List.length_cons]
    omega

/-! ## The cases of a hand-over -/

theorem Sound.decided_iff (x : Sound) : x.decided = true ↔ x ≠ .awaited := by cases x <;> simp [Sound.decided]

section
variable {s : State} {n : Serial} {side : Side}

theorem State.takeHandOver_absent (absent : s.bfm.entry n = none) (h : HandOver) : s.takeHandOver n side h = s := by
  rw [State.takeHandOver, absent]

variable {e : Entry} (found : s.bfm.entry n = some e)
include found

theorem State.takeHandOver_decided (decided : e.sound.get side ≠ .awaited) (h : HandOver) : s.takeHandOver n side h = s := by
  rw [State.takeHandOver, found]
  exact if_pos ((Sound.decided_iff _).mpr decided)

variable (awaited : e.sound.get side = .awaited)
include awaited

theorem State.takeHandOver_absence (reason : AbsenceReason) :
    s.takeHandOver n side (.absence reason) = (s.setSound n side (.absent reason)).checkComplete n := by
  rw [State.takeHandOver, found]
  exact if_neg (by rw [awaited]; exact Bool.false_ne_true)

theorem State.takeHandOver_page {page : Nat} {b : Bfm} (given : s.bfm.allocate 1 = (some [page], b)) (g : Segment) :
    s.takeHandOver n side (.segment g) =
      (({ s with bfm := b, mem := s.mem.place [page] 0 g.bytes } : State).setSound n side (.present
        { page := page, count := g.samples.length, padded := g.padded, dropped := g.dropped,
          meterFirst := g.meterFirst, meterSecond := g.meterSecond })).checkComplete n := by
  rw [State.takeHandOver, found]
  dsimp only
  rw [if_neg (by rw [awaited]; exact Bool.false_ne_true), given]

theorem State.takeHandOver_shortage {b : Bfm} (starved : s.bfm.allocate 1 = (none, b)) (g : Segment) :
    s.takeHandOver n side (.segment g) = ({ s with bfm := b } : State).abandon e .overflow := by
  rw [State.takeHandOver, found]
  dsimp only
  rw [if_neg (by rw [awaited]; exact Bool.false_ne_true), starved]

end

/-- Settles O28: by the entry, whether the pair is decided, the kind of the hand-over, and whether a page is to be had. -/
theorem handOverTaken : Obligations.HandOverTaken := by
  unfold Obligations.HandOverTaken
  intro n side h s
  refine ⟨fun absent => State.takeHandOver_absent absent h, fun e found => ?_⟩
  intro decide'
  refine ⟨fun decided => State.takeHandOver_decided found decided h, fun awaited => ⟨?_, ?_⟩⟩
  · rintro reason rfl
    exact State.takeHandOver_absence found awaited reason
  · rintro g rfl
    refine ⟨fun page b given => ⟨State.takeHandOver_page found awaited given g, fun isPage short wf => ?_⟩,
      fun b starved => State.takeHandOver_shortage found awaited starved g⟩
    have length := g.bytes_length
    rw [← length]
    exact Memory.fetch_place_page wf isPage (by omega)

end Sys2Proof.Machine

namespace Sys2Proof.Machine

/-! # Hand-overs and AUD's frame start (R70, R79, R81, R92) -/

/-! ## What a hand-over leaves alone -/

/-- A unit that joins the queue is BFM's and the Recorder's alone. -/
theorem State.placeUnit_eq (s : State) (u : RecUnit) : ∃ bfm rcd, s.placeUnit u = { s with bfm := bfm, rcd := rcd } := by
  unfold State.placeUnit
  split <;> exact ⟨_, _, rfl⟩

theorem State.join_eq (s : State) (e : Entry) (picture : PictureData) :
    ∃ bfm rcd lnk, s.join e picture = { s with bfm := bfm, rcd := rcd, lnk := lnk } := by
  have placed (b : Bfm) : ∃ bfm rcd lnk, ({ s with bfm := b } : State).placeUnit (e.toUnit picture) =
      { s with bfm := bfm, rcd := rcd, lnk := lnk } := by
    obtain ⟨bfm, rcd, eq⟩ := State.placeUnit_eq { s with bfm := b } (e.toUnit picture)
    exact ⟨bfm, rcd, s.lnk, eq⟩
  unfold State.join
  dsimp only
  split
  · exact placed _
  · split
    · exact placed _
    · obtain ⟨bfm, lnk, eq⟩ := s.abandon_eq e .overflow
      exact ⟨bfm, s.rcd, lnk, eq⟩

theorem State.checkComplete_eq (s : State) (serial : Serial) :
    ∃ bfm rcd lnk, s.checkComplete serial = { s with bfm := bfm, rcd := rcd, lnk := lnk } := by
  unfold State.checkComplete
  split
  · exact ⟨_, _, _, rfl⟩
  · next e _ =>
    split
    · split
      · exact s.join_eq e _
      · exact ⟨_, _, _, rfl⟩
    · exact ⟨_, _, _, rfl⟩
    · exact ⟨_, _, _, rfl⟩

/-- A hand-over is the memory's, BFM's, the Recorder's and LNK's alone. -/
theorem State.takeHandOver_eq (s : State) (n : Serial) (side : Side) (h : HandOver) :
    ∃ mem bfm rcd lnk, s.takeHandOver n side h = { s with mem := mem, bfm := bfm, rcd := rcd, lnk := lnk } := by
  unfold State.takeHandOver
  split
  · exact ⟨_, _, _, _, rfl⟩
  · next e _ =>
    split
    · exact ⟨_, _, _, _, rfl⟩
    · split
      · next reason =>
        obtain ⟨bfm, rcd, lnk, eq⟩ := (s.setSound n side (.absent reason)).checkComplete_eq n
        exact ⟨s.mem, bfm, rcd, lnk, eq⟩
      · dsimp only
        split
        · exact ⟨_, State.checkComplete_eq _ n⟩
        · obtain ⟨bfm, lnk, eq⟩ := State.abandon_eq { s with bfm := (s.bfm.allocate 1).2 } e .overflow
          exact ⟨s.mem, bfm, s.rcd, lnk, eq⟩

@[simp] theorem State.takeHandOver_aud (s : State) (n : Serial) (side : Side) (h : HandOver) :
    (s.takeHandOver n side h).aud = s.aud := by
  obtain ⟨_, _, _, _, eq⟩ := s.takeHandOver_eq n side h
  rw [eq]

@[simp] theorem State.takeHandOver_ftb (s : State) (n : Serial) (side : Side) (h : HandOver) :
    (s.takeHandOver n side h).ftb = s.ftb := by
  obtain ⟨_, _, _, _, eq⟩ := s.takeHandOver_eq n side h
  rw [eq]

/-! ## One pair's part -/

theorem State.reportSlip_segment (s : State) (n : Serial) (side : Side) (g : Segment) : s.reportSlip n side (.segment g) =
    if 2 < g.padded ∨ 2 < g.dropped then
      s.report .audioSlip (u8 side.code ++ serialBytes n ++ u16 g.padded ++ u16 (min 65535 g.dropped))
    else s :=
  ite_congr (by simp) (fun _ => rfl) (fun _ => rfl)

@[simp] theorem State.reportSlip_aud (s : State) (n : Serial) (side : Side) (h : HandOver) :
    (s.reportSlip n side h).aud = s.aud := by
  cases h with
  | segment g => rw [State.reportSlip_segment]; split <;> rfl
  | absence => rfl

@[simp] theorem State.reportSlip_ftb (s : State) (n : Serial) (side : Side) (h : HandOver) :
    (s.reportSlip n side h).ftb = s.ftb := by
  cases h with
  | segment g => rw [State.reportSlip_segment]; split <;> rfl
  | absence => rfl

/-- A pair's frame start changes its own pair of AUD's record, and no part of the timebase. -/
theorem State.pairFrame_keeps (s : State) (n : Serial) :
    (s.pairFrame n .a).aud.pairs.b = s.aud.pairs.b ∧ (s.pairFrame n .a).ftb = s.ftb := by
  unfold State.pairFrame
  dsimp only
  rw [State.takeHandOver_aud, State.takeHandOver_ftb, State.reportSlip_aud, State.reportSlip_ftb]
  exact ⟨rfl, rfl⟩

theorem State.audStep_cons {s : State} {f : FrameStart} {rest : List FrameStart} (due : s.due.aud = f :: rest) :
    s.audStep = ({ s with due := { s.due with aud := rest } } : State).audFrame f := by
  rw [State.audStep, due]

/-- Settles O27: the two pairs act one after the other, and the first leaves the second's pair and the rate as they were. -/
theorem audFrame : Obligations.AudFrame := by
  unfold Obligations.AudFrame
  intro f rest s works due u n cut given after slipped acts
  have becomes {t : State} (h : u.audFrame f = t) : Becomes .audFrameStart s t :=
    becomes_act works (f := State.audStep) rfl ((State.audStep_cons due).trans h)
  refine ⟨fun runs => becomes ?_, fun rests => becomes (if_neg (by rw [rests]; exact Bool.false_ne_true))⟩
  have frame (side : Side) :
      (s.aud.pairs.get side).frame (s.ftb.rate.cadence n) (2 * s.ftb.rate.nominal) = (given side, after side) := by
    unfold Pair.frame
    cases state : (s.aud.pairs.get side).state <;> simp [given, after, state, cut]
  have slips (v : State) (side : Side) : v.reportSlip n side (given side) = slipped v side := by
    dsimp only [slipped]
    cases given side with
    | segment g => exact v.reportSlip_segment n side g
    | absence => rfl
  have pairActs (v : State) (side : Side) (pair : v.aud.pairs.get side = s.aud.pairs.get side) (ftb : v.ftb = s.ftb) :
      v.pairFrame n side = acts v side := by
    have pairFrames : (v.aud.pairs.get side).frame (v.ftb.rate.cadence n) (2 * v.ftb.rate.nominal) = (given side, after side) := by
      rw [pair, ftb, frame]
    unfold State.pairFrame
    rw [pairFrames]
    dsimp only [acts]
    rw [slips]
  obtain ⟨pairB, ftb⟩ := u.pairFrame_keeps n
  have first : u.pairFrame n .a = acts u .a := pairActs u .a rfl rfl
  have second : (u.pairFrame n .a).pairFrame n .b = acts (u.pairFrame n .a) .b := pairActs _ .b pairB ftb
  rw [State.audFrame, if_pos runs]
  exact congrArg State.review (second.trans (congrArg (acts · .b) first))

end Sys2Proof.Machine

namespace Sys2Proof.Machine

/-! # Limiter, cut, meters, hold and cadence (R73, R75 to R77, R79, R80, R82, R83) -/

/-! ## Steps (R72) -/

theorem roundDiv_nonneg {n d : Int} (num : 0 ≤ n) (den : 0 ≤ d) : 0 ≤ roundDiv n d := by
  rw [roundDiv, if_neg (by omega)]
  exact Int.ediv_nonneg (by omega) (by omega)

theorem mantissa_nonneg (position : Nat) : 0 ≤ mantissa position := Int.natCast_nonneg _

theorem scaleBy_nonneg {x : Int} (s : Int) (nonneg : 0 ≤ x) : 0 ≤ scaleBy s x :=
  roundDiv_nonneg (mul_nonneg nonneg (mantissa_nonneg _)) (Int.natCast_nonneg _)

/-! ## The clamp (R75) -/

theorem saturate_within {limit : Int} (nonneg : 0 ≤ limit) (x : Int) : ((saturate (-limit) limit x).natAbs : Int) ≤ limit := by
  unfold saturate
  split
  · omega
  · split <;> omega

theorem Limiter.level_nonneg (l : Limiter) : 0 ≤ l.level := scaleBy_nonneg _ (by decide)

/-- What a channel with its limiter on puts out does not exceed the limit level (R75). -/
theorem Channel.output_within {c : Channel} (on : c.limiter.on = true) (x : Int) :
    ((c.output x).natAbs : Int) ≤ c.limiter.level := by
  rw [Channel.output, Channel.clamped, if_pos on]
  exact saturate_within c.limiter.level_nonneg _

/-! ## The end of a block (R73, R76, R77) -/

section
variable {c : Channel}

theorem Channel.judgeBlock_off (off : c.limiter.on = false) : c.judgeBlock = c := if_pos (by rw [off]; rfl)

theorem Channel.judgeBlock_attack (on : c.limiter.on = true) (above : c.limiter.level < (c.blockPeak : Int)) : c.judgeBlock =
    { c with reduction := min 48 (c.reduction + attackSteps c.blockPeak c.limiter.level), releaseCount := 0 } := by
  rw [Channel.judgeBlock, if_neg (by simp [on]), if_pos above]

theorem Channel.judgeBlock_rest (on : c.limiter.on = true) (within : (c.blockPeak : Int) ≤ c.limiter.level)
    (unreduced : c.reduction = 0) : c.judgeBlock = c := by
  rw [Channel.judgeBlock, if_neg (by simp [on]), if_neg (by omega), if_pos unreduced]

theorem Channel.judgeBlock_release (on : c.limiter.on = true) (within : (c.blockPeak : Int) ≤ c.limiter.level)
    (reduced : 0 < c.reduction) : c.judgeBlock =
      if c.limiter.release ≤ c.releaseCount + 1 then { c with reduction := c.reduction - 1, releaseCount := 0 }
      else { c with releaseCount := c.releaseCount + 1 } := by
  rw [Channel.judgeBlock, if_neg (by simp [on]), if_neg (by omega), if_neg (by omega)]

/-- The attack or release decision sets the reduction and the release count alone. -/
theorem Channel.judgeBlock_eq (c : Channel) : ∃ reduction releaseCount,
    c.judgeBlock = { c with reduction := reduction, releaseCount := releaseCount } := by
  unfold Channel.judgeBlock
  split_ifs <;> exact ⟨_, _, rfl⟩

theorem Channel.applyPending_none (gain : c.pendingGain = none) (limiter : c.pendingLimiter = none) : c.applyPending = c := by
  rw [Channel.applyPending, gain]
  dsimp only
  rw [limiter]

theorem Channel.endBlock_unchanged (gain : c.pendingGain = none) (limiter : c.pendingLimiter = none) :
    c.endBlock = { c.judgeBlock with blockPeak := 0 } := by
  obtain ⟨_, _, judged⟩ := c.judgeBlock_eq
  rw [Channel.endBlock, judged]
  exact Channel.applyPending_none gain limiter

theorem Channel.endBlock_changed {gain : Nat} {l : Limiter} (pendingGain : c.pendingGain = some gain)
    (pendingLimiter : c.pendingLimiter = some l) :
    let b := c.judgeBlock
    c.endBlock = { b with
      blockPeak := 0, gain := gain, pendingGain := none, limiter := l, pendingLimiter := none
      reduction := if b.limiter.on && l.on then b.reduction else 0
      releaseCount := if b.limiter.on && l.on then b.releaseCount else 0 } := by
  obtain ⟨_, _, judged⟩ := c.judgeBlock_eq
  rw [Channel.endBlock, Channel.applyPending_eq, judged]
  simp [pendingGain, pendingLimiter]

end

/-! ## The steps of an attack (R76) -/

theorem attackSteps_least {peak j : Nat} {level : Int} (least : 1 ≤ j) (most : j ≤ 96)
    (low : scaleBy (-(j : Int)) peak ≤ level) :
    let k := attackSteps peak level
    1 ≤ k ∧ k ≤ j ∧ scaleBy (-(k : Int)) peak ≤ level ∧ ∀ i : Nat, 1 ≤ i → i < k → level < scaleBy (-(i : Int)) peak := by
  let enough : Nat → Bool := fun k => decide (scaleBy (-(k : Int)) peak ≤ level)
  have steps : attackSteps peak level = (((List.range 96).find? (enough ∘ (· + 1))).map (· + 1)).getD 96 := by
    rw [attackSteps, List.find?_map]
  intro k
  cases found : (List.range 96).find? (enough ∘ (· + 1)) with
  | none =>
    have never := List.find?_range_eq_none.mp found (j - 1) (by omega)
    simp [enough, Nat.sub_add_cancel least, low] at never
  | some i =>
    obtain ⟨reached, -, before⟩ := List.find?_range_eq_some.mp found
    have isK : k = i + 1 := by simp only [k, steps, found, Option.map_some, Option.getD_some]
    have above (n : Nat) (from1 : 1 ≤ n) (below : n < k) : level < scaleBy (-(n : Int)) peak := by
      have short := before (n - 1) (by omega)
      simpa [enough, Nat.sub_add_cancel from1] using short
    refine ⟨by omega, ?_, ?_, above⟩
    · by_contra beyond
      exact absurd (above j least (by omega)) (by omega)
    · rw [isK]
      simpa [enough] using reached

/-! ## Meters and holds (R82, R83) -/

theorem meterOf_eq {peak j : Nat} (most : j ≤ 96) (reached : scaleBy (-(j : Int)) fullScale ≤ peak)
    (before : ∀ i : Nat, i < j → (peak : Int) < scaleBy (-(i : Int)) fullScale) : meterOf peak = j := by
  have found : (List.range 97).find? (fun j : Nat => decide (scaleBy (-(j : Int)) fullScale ≤ (peak : Int))) = some j :=
    List.find?_range_eq_some.mpr ⟨by simpa using reached, by simpa using most.trans_lt (by omega),
      fun i below => by simpa using before i below⟩
  rw [meterOf, found]
  rfl

/-- The lowest of the 97 steps of a meter. -/
theorem lowest_step : ∀ i < 97, (32768 : Int) ≤ scaleBy (-((i : Nat) : Int)) fullScale := by decide +kernel

theorem meterOf_quiet {peak : Nat} (quiet : peak < 32768) : meterOf peak = 97 := by
  have unreached : (List.range 97).find? (fun j : Nat => decide (scaleBy (-(j : Int)) fullScale ≤ (peak : Int))) = none :=
    List.find?_range_eq_none.mpr fun i below => by
      have := lowest_step i below
      simp only [Bool.not_eq_true', decide_eq_false_iff_not]
      omega
  rw [meterOf, unreached]
  rfl

/-- The peak of samples is what they all stay below and one of them reaches. -/
theorem peakOf_eq {xs : List Int} {peak : Nat} (above : ∀ y ∈ xs, y.natAbs ≤ peak)
    (reached : peak = 0 ∨ ∃ y ∈ xs, y.natAbs = peak) : peakOf xs = peak := by
  have isMax : (0 :: xs.map Int.natAbs).max? = some (peakOf xs) := by
    rw [List.max?_cons', peakOf, List.foldl_map]
  obtain ⟨isOne, isLeast⟩ := List.max?_eq_some_iff.mp isMax
  apply Nat.le_antisymm
  · rcases List.mem_cons.mp isOne with zero | mem
    · omega
    · obtain ⟨y, mem, eq⟩ := List.mem_map.mp mem
      exact eq ▸ above y mem
  · rcases reached with rfl | ⟨y, mem, rfl⟩
    · exact Nat.zero_le _
    · exact isLeast _ (List.mem_cons_of_mem _ (List.mem_map_of_mem mem))

/-- The hold is the least of the hold history and 97 (R83). -/
theorem Channel.hold_least (c : Channel) : c.hold ∈ 97 :: c.holdHistory ∧ ∀ m ∈ 97 :: c.holdHistory, c.hold ≤ m :=
  List.min?_eq_some_iff.mp List.min?_cons'

theorem Channel.metered_eq (c : Channel) (value limit : Nat) : c.metered value limit =
    { c with meter := value, holdHistory := (c.holdHistory ++ [value]).drop (c.holdHistory.length + 1 - limit) } := by
  rw [Channel.metered, List.length_append]
  rfl

theorem Pair.warm_fresh (p : Pair) (w : Which) : (p.warm.channel w).meter = 97 ∧ (p.warm.channel w).holdHistory = [] := by
  cases w <;> exact ⟨rfl, rfl⟩

theorem Channel.applyPending_meter (c : Channel) :
    c.applyPending.meter = c.meter ∧ c.applyPending.holdHistory = c.holdHistory := by
  rw [Channel.applyPending_eq]
  exact ⟨rfl, rfl⟩

theorem Pair.switchOff_fresh {p : Pair} (routed : p.state ≠ .off) (w : Which) :
    (p.switchOff.channel w).meter = 97 ∧ (p.switchOff.channel w).holdHistory = [] := by
  unfold Pair.switchOff
  split
  · next off => exact absurd off routed
  · cases w <;> exact Channel.applyPending_meter _

/-! ## The cut (R79, R80) -/

/-- A segment is padded with the last sample frame taken, or with the last of the segment before (R79). -/
theorem Pair.padding_eq (p : Pair) (taken : List SampleFrame) : some (p.padding taken) =
    if taken.length = 0 then some (p.last.getD { first := 0, second := 0 }) else taken.getLast? := by
  unfold Pair.padding
  cases taken with
  | nil => rfl
  | cons x xs => rw [List.getLast?_eq_some_getLast (List.cons_ne_nil x xs)]; rfl

section
variable (p : Pair) (count limit : Nat)

theorem Pair.cut_padded : (p.cut count limit).1.padded = count - p.store.length := by
  change count - (p.store.take count).length = _
  rw [List.length_take]
  omega

theorem Pair.cut_samples : (p.cut count limit).1.samples =
    p.store.take count ++ List.replicate (count - p.store.length) (p.padding (p.store.take count)) := by
  rw [← p.cut_padded count limit]
  rfl

theorem Pair.cut_length : (p.cut count limit).1.samples.length = count := by
  rw [p.cut_samples, List.length_append, List.length_take, List.length_replicate]
  omega

/-- The store's front goes before the padding. -/
theorem Pair.cut_front : (p.store.take count).length = count - (p.cut count limit).1.padded := by
  rw [p.cut_padded, List.length_take]
  omega

theorem Pair.cut_back {x : SampleFrame} (mem : x ∈ (p.cut count limit).1.samples.drop (count - (p.cut count limit).1.padded)) :
    some x = if p.store.length = 0 then some (p.last.getD { first := 0, second := 0 }) else p.store.getLast? := by
  rw [← p.cut_front, p.cut_samples, List.drop_left] at mem
  obtain ⟨padded, rfl⟩ := List.mem_replicate.mp mem
  rw [List.take_of_length_le (by omega), p.padding_eq]

theorem Pair.cut_dropped : (p.cut count limit).1.dropped =
    p.dropped + ((p.store.drop count).length - (p.cut count limit).2.store.length) := by
  change p.dropped + ((p.store.drop count).length - 32) = p.dropped + (_ - ((p.store.drop count).drop _).length)
  rw [List.length_drop (l := p.store.drop count)]
  omega

theorem Pair.cut_slips : (p.cut count limit).2.slips =
    if 0 < (p.cut count limit).1.padded ∨ 0 < (p.cut count limit).1.dropped then min 65535 (p.slips + 1) else p.slips :=
  ite_congr (by rw [Bool.or_eq_true, decide_eq_true_eq, decide_eq_true_eq]; rfl) (fun _ => rfl) (fun _ => rfl)

end

/-! ## The cadence (R80) -/

theorem Rate.cadence_congr {r : Rate} {m n : Serial} (phase : m.toNat % 5 = n.toNat % 5) : r.cadence m = r.cadence n := by
  unfold Rate.cadence
  rw [phase]

/-- The five lengths of a cycle add up alike at each phase. -/
theorem Rate.cadence_cycle (r : Rate) : ∀ phase < 5,
    let five := r.cadence (BitVec.ofNat 32 phase) + r.cadence (BitVec.ofNat 32 (phase + 1)) +
      r.cadence (BitVec.ofNat 32 (phase + 2)) + r.cadence (BitVec.ofNat 32 (phase + 3)) + r.cadence (BitVec.ofNat 32 (phase + 4))
    (r = .r30d → five = 8008) ∧ (r = .r60d → five = 4004) ∧
      (r ≠ .r30d → r ≠ .r60d → five = 5 * r.cadence (BitVec.ofNat 32 phase)) := by
  cases r <;> decide

theorem Rate.cadence_five (r : Rate) {n : Serial} (unwrapped : n.toNat + 4 < 4294967296) :
    let five := r.cadence n + r.cadence (n + 1) + r.cadence (n + 2) + r.cadence (n + 3) + r.cadence (n + 4)
    (r = .r30d → five = 8008) ∧ (r = .r60d → five = 4004) ∧ (r ≠ .r30d → r ≠ .r60d → five = 5 * r.cadence n) := by
  have later (k : Nat) (near : k ≤ 4) : r.cadence (n + BitVec.ofNat 32 k) = r.cadence (BitVec.ofNat 32 (n.toNat % 5 + k)) := by
    apply Rate.cadence_congr
    rw [BitVec.toNat_add, BitVec.toNat_ofNat, BitVec.toNat_ofNat]
    omega
  have now : r.cadence n = r.cadence (BitVec.ofNat 32 (n.toNat % 5)) := by
    simpa using later 0 (by omega)
  have cycle := r.cadence_cycle (n.toNat % 5) (by omega)
  dsimp only at cycle
  rwa [← now, ← later 1 (by omega), ← later 2 (by omega), ← later 3 (by omega), ← later 4 le_rfl] at cycle

/-- Settles O26: the limiter's clamp and steps, the end of a block, the cut with its meters, the hold, and the cadence. -/
theorem audioLaws : Obligations.AudioLaws := by
  unfold Obligations.AudioLaws
  refine ⟨⟨fun c x on => Channel.output_within on x, fun c gain limiter => ?_, fun peak j level => attackSteps_least,
    fun c gain l => Channel.endBlock_changed⟩, fun p count limit => ?_, fun peak => ?_, fun c => ?_,
    fun p w => ⟨p.warm_fresh w, fun routed => p.switchOff_fresh routed w⟩, fun r n => r.cadence_five, by decide⟩
  · rw [Channel.endBlock_unchanged gain limiter]
    refine ⟨fun off => ?_, fun on above => ?_, fun on within rests => ?_, fun on within reduced => ?_⟩
    · rw [Channel.judgeBlock_off off]
    · rw [Channel.judgeBlock_attack on above]
    · rw [Channel.judgeBlock_rest on within rests]
    · rw [Channel.judgeBlock_release on within reduced]
      split <;> rfl
  · intro g q
    have front := p.cut_front count limit
    refine ⟨p.cut_length .., p.cut_padded .., ?_, fun x => p.cut_back count limit, rfl, p.cut_dropped .., rfl, rfl, rfl,
      p.cut_slips .., rfl, rfl, ?_⟩
    · rw [← front, show g.samples = _ from p.cut_samples .., List.take_left]
    · intro metered
      refine ⟨p.first.metered_eq .., p.second.metered_eq .., ?_⟩
      have meter (xs : List Int) (peak : Nat) (above : ∀ y ∈ xs, y.natAbs ≤ peak)
          (reached : peak = 0 ∨ ∃ y ∈ xs, y.natAbs = peak) : meterOf (peakOf xs) = meterOf peak := congrArg meterOf (peakOf_eq above reached)
      rw [List.forall_mem_cons, List.forall_mem_singleton]
      exact ⟨meter _, meter _⟩
  · intro level
    exact ⟨fun j => meterOf_eq, meterOf_quiet, by decide⟩
  · obtain ⟨isOne, isLeast⟩ := c.hold_least
    obtain ⟨most, least⟩ := List.forall_mem_cons.mp isLeast
    exact ⟨most, least, List.mem_cons.mp isOne⟩

end Sys2Proof.Machine

namespace Sys2Proof.Machine

/-! # No page is made or lost (R88, R89, R93, R94, R96, R110) -/

theorem Bfm.keeps_discardStart (b : Bfm) (which : RecUnit → Bool) : b.Keeps (b.discardStart which) :=
  (b.keeps_dropUnits _).trans (keeps_counts _ _)

theorem Bfm.keeps_judgeWindows (b : Bfm) : b.Keeps b.judgeWindows := ⟨fun _ => rfl, rfl, rfl⟩

theorem Bfm.keeps_retain (b : Bfm) (w : Nat) (head : Serial) (primary : Side) : b.Keeps (b.retain w head primary) :=
  (b.keeps_modifyUnits _ _ fun u => by unfold RecUnit.retainFrom; split <;> rfl).trans (keeps_judgeWindows _)

theorem Bfm.keeps_holdSet (b : Bfm) (w : Nat) (first last : Serial) : b.Keeps (b.holdSet w first last) :=
  (b.keeps_modifyUnits _ (fun u => u.addHold w) fun _ => rfl).trans ⟨fun _ => rfl, rfl, rfl⟩

theorem Bfm.keeps_clearWindow (b : Bfm) (w : Nat) : b.Keeps (b.clearWindow w) :=
  (b.keeps_modifyUnits _ (fun u => u.dropHold w) fun _ => rfl).trans ⟨fun _ => rfl, rfl, rfl⟩

namespace Bfm.lawful

variable {s : State}

/-- What the card writers do leaves BFM alone. -/
theorem cardsOnly {t : State} (h : s.bfm.lawful) (c : CardsOnly s t) : t.bfm.lawful := c.bfm ▸ h

theorem ite {c : Prop} [Decidable c] {t : State} (h : s.bfm.lawful) (k : t.bfm.lawful) : (if c then s else t).bfm.lawful := by
  split
  · exact h
  · exact k

theorem foldl {α : Type} {f : State → α → State} {xs : List α} (step : ∀ {s : State} {x : α}, s.bfm.lawful → (f s x).bfm.lawful)
    (h : s.bfm.lawful) : (xs.foldl f s).bfm.lawful := by
  induction xs generalizing s with
  | nil => exact h
  | cons x xs ih => exact ih (step h)

theorem notify {src : Source} {detail : List (Option Byte)} (h : s.bfm.lawful) : (s.notify src detail).bfm.lawful := h

theorem report {src : Source} {detail : List Byte} (h : s.bfm.lawful) : (s.report src detail).bfm.lawful := h

theorem modifyUnits {which : RecUnit → Bool} {f : RecUnit → RecUnit} (same : ∀ u, (f u).pages = u.pages) (h : s.bfm.lawful) :
    (s.modifyUnits which f).bfm.lawful := (s.bfm.keeps_modifyUnits which f same).lawful h

/-! ### The card writers -/

theorem reportFull {side : Side} (h : s.bfm.lawful) : (s.reportFull side).bfm.lawful := h.cardsOnly (.reportFull s side)

theorem judgeNearFull {side : Side} (h : s.bfm.lawful) : (s.judgeNearFull side).bfm.lawful := h.cardsOnly (.judgeNearFull s side)

theorem runWriter {side : Side} (h : s.bfm.lawful) : (s.runWriter side).bfm.lawful := h.cardsOnly (.runWriter s side)

theorem nameLast {side : Side} {last : LastUnit} (h : s.bfm.lawful) : (s.nameLast side last).bfm.lawful :=
  h.cardsOnly (.nameLast s side last)

theorem takeUnit {side : Side} {u : RecUnit} (h : s.bfm.lawful) : (s.takeUnit side u).bfm.lawful :=
  h.cardsOnly (.takeUnit s side u)

theorem mountEnds {side : Side} {state : SlotState} {recovered : Nat} (h : s.bfm.lawful) :
    (s.mountEnds side state recovered).bfm.lawful := by
  unfold State.mountEnds
  exact .judgeNearFull (.ite (.reportFull (.report h)) (.report h))

theorem recoverNext {side : Side} (h : s.bfm.lawful) : (s.recoverNext side).bfm.lawful := by
  unfold State.recoverNext
  dsimp only
  split
  · exact h
  · split
    · exact h
    · exact .mountEnds h

theorem mountRead {side : Side} {header : CardHeader} {entries : List CatEntry} (h : s.bfm.lawful) :
    (s.mountRead side header entries).bfm.lawful := by
  unfold State.mountRead
  exact .ite (.recoverNext h) (.mountEnds h)

theorem rebuild {side : Side} {x : Recovery} (h : s.bfm.lawful) : (s.rebuild side x).bfm.lawful := by
  unfold State.rebuild
  exact .runWriter h

theorem indexRead {side : Side} {extent : Nat} {bytes : List Byte} (h : s.bfm.lawful) :
    (s.indexRead side extent bytes).bfm.lawful := by
  unfold State.indexRead
  dsimp only
  split
  · split
    · exact .ite (.ite h (.rebuild h)) (.rebuild h)
    · exact .rebuild h
  · exact h

theorem mountUnformatted {side : Side} (h : s.bfm.lawful) : (s.mountUnformatted side).bfm.lawful := by
  unfold State.mountUnformatted
  exact .mountEnds h

theorem cardRead {side : Side} {read : CardRead} {size : Nat} {bytes : List Byte} (h : s.bfm.lawful) :
    (s.cardRead side read size bytes).bfm.lawful := by
  unfold State.cardRead
  split
  · exact h
  · split
    · exact .mountUnformatted h
    · exact .ite (.mountUnformatted h) h
  · split
    · exact .mountUnformatted h
    · split
      · exact .mountUnformatted h
      · exact .ite (.mountUnformatted h) (.ite h (.mountRead h))
  · exact .indexRead h

/-! ### The Recorder -/

theorem reportRec {reason : RecReason} {status slot : Nat} (h : s.bfm.lawful) : (s.reportRec reason status slot).bfm.lawful :=
  .notify h

theorem openFor {side : Side} {flags : CopyFlags} {continues : Option CopyRef} (h : s.bfm.lawful) :
    (s.openFor side flags continues).bfm.lawful :=
  show (s.openCopy side flags continues).1.bfm.lawful from h.cardsOnly (.openCopy s side flags continues)

theorem openCopies (h : s.bfm.lawful) : s.openCopies.bfm.lawful := by
  unfold State.openCopies
  dsimp only
  split
  · exact .openFor h
  · exact .openFor h
  · exact .openFor (.openFor h)

theorem chooseHead {floor : Serial} (h : s.bfm.lawful) : (s.chooseHead floor).bfm.lawful := by
  unfold State.chooseHead
  split
  · exact h
  · split
    · exact Bfm.Keeps.lawful (Bfm.keeps_discardStart _ _) h
    · exact Bfm.Keeps.lawful ((Bfm.keeps_discardStart _ _).trans (Bfm.keeps_modifyUnits _ _ _ fun _ => rfl)) h

theorem takeStart {serial : Serial} (h : s.bfm.lawful) : (s.takeStart serial).bfm.lawful := by
  have opened : (s.beginClip .normal .recording (some serial)).openCopies.bfm.lawful := .openCopies h
  unfold State.takeStart
  exact ite (c := _ = true) (.chooseHead opened) opened

theorem start {source : StartSource} {serial : Serial} (h : s.bfm.lawful) : (s.start source serial).1.bfm.lawful := by
  unfold State.start
  dsimp only
  split
  · exact h
  · split
    · exact h
    · exact h
    · exact h
    · split
      · exact h
      · exact (takeStart h :)

theorem startReported {source : StartSource} {serial : Serial} (h : s.bfm.lawful) : (s.startReported source serial).bfm.lawful := by
  rw [State.startReported_eq]
  exact .ite (.start h) (.reportRec (.start h))

theorem endClip {reason : EndReason} (h : s.bfm.lawful) : (s.endClip reason).bfm.lawful := by
  unfold State.endClip
  extract_lets count _ _ standing told
  have reported : told.bfm.lawful := reportRec (s := standing) h
  exact .ite (.startReported reported) reported

theorem closeCopy {side : Side} {last : LastUnit} (h : s.bfm.lawful) : (s.closeCopy side last).bfm.lawful := by
  unfold State.closeCopy
  exact .nameLast h

theorem tellLast {side : Side} (h : s.bfm.lawful) : (s.tellLast side).bfm.lawful := by
  unfold State.tellLast
  split
  · exact h
  · exact .ite (.closeCopy h) h

theorem watchClip (h : s.bfm.lawful) : s.watchClip.bfm.lawful := by
  have told : ((s.tellLast .a).tellLast .b).bfm.lawful := .tellLast (.tellLast h)
  unfold State.watchClip
  split
  · split
    · exact h
    · dsimp only
      split
      · exact .ite (.endClip told) told
      · exact told
  · exact .ite (.endClip h) h
  · exact h

theorem review (h : s.bfm.lawful) : s.review.bfm.lawful := by
  unfold State.review
  exact .watchClip (s.bfm.keeps_dropUnits _ |>.lawful h)

theorem stop {serial : Serial} (h : s.bfm.lawful) : (s.stop serial).bfm.lawful := by
  unfold State.stop
  split
  · exact .watchClip (.reportRec h)
  · exact h
  · exact h
  · exact h

theorem relaySwitch {side : Side} {u : Serial} (h : s.bfm.lawful) : (s.relaySwitch side u).bfm.lawful := by
  unfold State.relaySwitch
  split
  · exact h
  · extract_lets left closed opened moved counted
    have moved : moved.bfm.lawful :=
      modifyUnits (s := opened) (fun _ => rfl) (openFor (closeCopy h : closed.bfm.lawful))
    exact report (s := counted) moved

theorem renameLast {side : Side} {u : Serial} (h : s.bfm.lawful) : (s.renameLast side u).bfm.lawful := by
  unfold State.renameLast
  split
  · exact .ite (.nameLast h) h
  · exact h

theorem cardFullEnd {side : Side} {u : Serial} (h : s.bfm.lawful) : (s.cardFullEnd side u).bfm.lawful := by
  unfold State.cardFullEnd
  split
  · exact h
  · extract_lets before closed fixed renamed _ closing
    have fixed : fixed.bfm.lawful := (closeCopy h : closed.bfm.lawful)
    have renamed : renamed.bfm.lawful := .renameLast (modifyUnits (fun _ => rfl) fixed)
    exact reportRec (s := closing) (.ite renamed renamed)

theorem dropMirror {side : Side} {u : Serial} (h : s.bfm.lawful) : (s.dropMirror side u).bfm.lawful := by
  have closed : (s.closeCopy side (s.slot side).lastBefore).bfm.lawful := .closeCopy h
  unfold State.dropMirror
  exact .reportRec (modifyUnits (fun _ => rfl) closed)

theorem endOfCard {side : Side} {u : Serial} (h : s.bfm.lawful) : (s.endOfCard side u).bfm.lawful := by
  unfold State.endOfCard
  split
  · exact h
  · refine .review (.ite (.cardFullEnd h) ?_)
    split
    · exact .cardFullEnd h
    · exact .ite (.relaySwitch h) (.cardFullEnd h)
    · exact .ite (.dropMirror h) (.cardFullEnd h)

theorem looseUnits {side : Side} (h : s.bfm.lawful) : (s.looseUnits side).bfm.lawful := by
  unfold State.looseUnits
  extract_lets unowed swept
  have loosed : unowed.bfm.lawful := modifyUnits (s := s) (fun _ => rfl) h
  exact (swept.bfm.keeps_releaseUnits _).lawful ((unowed.bfm.keeps_dropUnits _).lawful loosed)

theorem slotLost {side : Side} (h : s.bfm.lawful) : (s.slotLost side).bfm.lawful := by
  unfold State.slotLost
  split
  · exact h
  · split
    · exact h
    · extract_lets lost loose _ _ _ aborted
      have loosed : loose.bfm.lawful := looseUnits (s := lost) h
      split
      · exact .review (.reportRec loosed)
      · exact .review (.reportRec (.ite loosed loosed))
      · have released : ({ aborted with bfm := aborted.bfm.releaseUnits RecUnit.ofClip } : State).bfm.lawful :=
          (aborted.bfm.keeps_releaseUnits _).lawful loosed
        exact .endClip released

/-! ### Audio -/

theorem reportSlip {n : Serial} {side : Side} {x : HandOver} (h : s.bfm.lawful) : (s.reportSlip n side x).bfm.lawful := by
  unfold State.reportSlip
  split
  · exact h
  · exact .ite (.report h) h

theorem pairFrame {n : Serial} {side : Side} (h : s.bfm.lawful) : (s.pairFrame n side).bfm.lawful := by
  unfold State.pairFrame
  obtain ⟨given, pair⟩ := (s.aud.pairs.get side).frame (s.ftb.rate.cadence n) (2 * s.ftb.rate.nominal)
  refine State.lawful_takeHandOver ?_ n side given
  exact reportSlip (s := { s with aud := { pairs := s.aud.pairs.set side pair } }) h

theorem audFrame {f : FrameStart} (h : s.bfm.lawful) : (s.audFrame f).bfm.lawful := by
  unfold State.audFrame
  exact .ite (.review (.pairFrame (.pairFrame h))) h

theorem audStep (h : s.bfm.lawful) : s.audStep.bfm.lawful := by
  unfold State.audStep
  split
  · exact h
  · exact .audFrame h

theorem handOverOff (h : s.bfm.lawful) : s.handOverOff.bfm.lawful := by
  unfold State.handOverOff
  exact .review (State.lawful_takeHandOver (State.lawful_takeHandOver h _ _ _) _ _ _)

theorem reportOver {pair : Side} {w : Which} {first : Bool} (h : s.bfm.lawful) : (s.reportOver pair w first).bfm.lawful := by
  unfold State.reportOver
  exact .ite (.report h) h

theorem sampleFrame {pair : Side} {x y : Int} (h : s.bfm.lawful) : (s.sampleFrame pair x y).bfm.lawful := by
  unfold State.sampleFrame
  exact .ite h (.reportOver (.reportOver h))

/-! ### Frame timing -/

theorem deliver {action : TriggerAction} {serial : Serial} (h : s.bfm.lawful) : (s.deliver action serial).1.bfm.lawful := by
  unfold State.deliver
  split
  · exact .start h
  · exact .stop h
  · exact h

theorem tryTrigger {e : HistoryEntry} (h : s.bfm.lawful) : (s.tryTrigger e).bfm.lawful := by
  unfold State.tryTrigger
  split
  · exact h
  · exact .ite (report (deliver (s := { s with ftb := _ }) h)) h

theorem frameStart {substituted : Bool} (h : s.bfm.lawful) : (s.frameStart substituted).bfm.lawful := by
  unfold State.frameStart
  extract_lets begun start tried
  have fired : tried.bfm.lawful := .tryTrigger (s := { s with ftb := _, due := _, aud := _ }) h
  exact .ite fired fired

theorem edge (h : s.bfm.lawful) : s.edge.bfm.lawful := by
  unfold State.edge
  split
  · exact (frameStart h :)
  · exact .ite h (.frameStart h)
  · exact .ite h (frameStart h :)
  · exact h

theorem timerFires (h : s.bfm.lawful) : s.timerFires.bfm.lawful := by
  have started : (s.frameStart true).bfm.lawful := .frameStart h
  unfold State.timerFires
  split
  · exact report (s := (s.frameStart true).countSubstituted.setTimebase .holdover) started
  · exact report (s := (s.frameStart true).countSubstituted.setTimebase .holdover) started
  · exact started
  · exact started

theorem fireIfDue (h : s.bfm.lawful) : s.fireIfDue.bfm.lawful := by
  unfold State.fireIfDue
  exact .ite (.timerFires h) h

/-! ### Lens control -/

theorem endMove {axis : Axis} {status : MoveStatus} (h : s.bfm.lawful) : (s.endMove axis status).bfm.lawful := by
  unfold State.endMove
  split
  · exact h
  · exact .notify h

theorem endMoves {status : MoveStatus} (h : s.bfm.lawful) : (s.endMoves status).bfm.lawful := by
  unfold State.endMoves
  exact .endMove (.endMove (.endMove h))

theorem lensLost (h : s.bfm.lawful) : s.lensLost.bfm.lawful := by
  unfold State.lensLost
  exact endMoves (.report h)

theorem missReport (h : s.bfm.lawful) : s.missReport.bfm.lawful := by
  unfold State.missReport
  exact .ite (.lensLost h) h

theorem windowExpires (h : s.bfm.lawful) : s.windowExpires.bfm.lawful := by
  unfold State.windowExpires
  exact .ite (.missReport h) h

theorem judgeOverride {replaced : LensReport} {axis : Axis} (h : s.bfm.lawful) : (s.judgeOverride replaced axis).bfm.lawful := by
  unfold State.judgeOverride
  split
  · exact report (endMove h :)
  · exact h
  · exact h
  · exact h

theorem judgeArrival {axis : Axis} (h : s.bfm.lawful) : (s.judgeArrival axis).bfm.lawful := by
  unfold State.judgeArrival
  split
  · exact h
  · exact .ite (endMove h :) h

theorem goodReport {w : ReportWindow} {x : LensReport} (h : s.bfm.lawful) : (s.goodReport w x).bfm.lawful := by
  unfold State.goodReport
  exact .judgeArrival (.judgeArrival (.judgeArrival (.judgeOverride (.judgeOverride (.judgeOverride h)))))

theorem lensReport {bytes : List Byte} (h : s.bfm.lawful) : (s.lensReport bytes).bfm.lawful := by
  unfold State.lensReport
  split
  · exact h
  · split
    · exact .goodReport h
    · exact .missReport h

theorem driveFrame {d : Drive} (h : s.bfm.lawful) : (s.driveFrame d).bfm.lawful := by
  unfold State.driveFrame
  dsimp only
  split
  · exact h
  · split
    · exact h
    · exact h
    · exact .ite (.endMove h) h

theorem irisFrame {n : Serial} (h : s.bfm.lawful) : (s.irisFrame n).bfm.lawful := by
  unfold State.irisFrame
  split
  · exact h
  · split
    · exact h
    · split
      · exact h
      · exact .ite (.endMove h) h

theorem lncFrame {f : FrameStart} (h : s.bfm.lawful) : (s.lncFrame f).bfm.lawful := by
  unfold State.lncFrame
  exact .ite (irisFrame (.driveFrame (.driveFrame (.windowExpires h))) :) h

theorem lncStep (h : s.bfm.lawful) : s.lncStep.bfm.lawful := by
  unfold State.lncStep
  split
  · exact h
  · exact .lncFrame h

theorem moveDrive {d : Drive} {target duration : Nat} {origin : Origin} (h : s.bfm.lawful) :
    (s.moveDrive d target duration origin).bfm.lawful := by
  unfold State.moveDrive
  exact (endMove h :)

theorem stopDrive {d : Drive} (h : s.bfm.lawful) : (s.stopDrive d).bfm.lawful := by
  unfold State.stopDrive
  exact .ite h (endMove h :)

theorem moveIris {target duration : Nat} {origin : Origin} (h : s.bfm.lawful) : (s.moveIris target duration origin).bfm.lawful := by
  unfold State.moveIris
  exact (endMove h :)

/-! ### Image stabilisation -/

theorem badSample {status : Option Byte} (h : s.bfm.lawful) : (s.badSample status).bfm.lawful := by
  unfold State.badSample
  exact .ite (.notify h) h

theorem gyroDue (h : s.bfm.lawful) : s.gyroDue.bfm.lawful := by
  have sampled : (if s.stb.reading then s.badSample none else s).bfm.lawful := .ite (.badSample h) h
  unfold State.gyroDue
  exact .ite sampled h

theorem gyroAnswered {yaw pitch : Int} {status : Byte} (h : s.bfm.lawful) : (s.gyroAnswered yaw pitch status).bfm.lawful := by
  unfold State.gyroAnswered
  exact .ite (.ite h (.badSample h)) h

theorem tileSet {x : TileSet} (h : s.bfm.lawful) : (s.tileSet x).bfm.lawful := by
  unfold State.tileSet State.noteMean
  exact .ite h (.ite (.ite h h) h)

theorem reportEdge {before after : StabAxis} {leak : Int} {axis : Nat} {serial : Serial} (h : s.bfm.lawful) :
    (s.reportEdge before after leak axis serial).bfm.lawful := by
  unfold State.reportEdge
  exact .ite (.report h) h

theorem moveCrop {leak : Int} {serial : Serial} (h : s.bfm.lawful) : (s.moveCrop leak serial).bfm.lawful := by
  unfold State.moveCrop
  exact .reportEdge (.reportEdge h)

theorem stabMoves {serial : Serial} (h : s.bfm.lawful) : (s.stabMoves serial).bfm.lawful := by
  unfold State.stabMoves
  split
  · exact h
  · exact h
  · exact h
  · exact (moveCrop h :)
  · exact (moveCrop h :)

theorem sendWindow {w : WindowRecord} (h : s.bfm.lawful) : (s.sendWindow w).bfm.lawful :=
  Bfm.lawful_modifyEntry h w.serial _ (fun _ => rfl) (fun _ => rfl) (fun _ => rfl)

theorem stbFrame {f : FrameStart} (h : s.bfm.lawful) : (s.stbFrame f).bfm.lawful := by
  unfold State.stbFrame
  split
  · exact h
  · split
    · exact .sendWindow h
    · extract_lets lens moved
      exact .sendWindow (stabMoves h : moved.bfm.lawful)

theorem stbStep (h : s.bfm.lawful) : s.stbStep.bfm.lawful := by
  unfold State.stbStep
  split
  · exact h
  · exact .stbFrame h

/-! ### The buffer memory -/

/-- A full table loses an entry of its own (R90 step 1). -/
theorem ageOldest (h : s.bfm.lawful) : s.ageOldest.bfm.lawful := by
  unfold State.ageOldest
  split
  · exact h
  · next e rest entries =>
    exact .ite (State.lawful_abandon h (by rw [entries]; exact List.mem_cons_self) .aged) h

/-- The entry of a new serial owns no page, and no picture arrives in it (R90 step 2). -/
theorem addEntry {b : Bfm} {e : Entry} (h : b.lawful) (new : ∀ x ∈ b.entries, x.serial ≠ e.serial) (none : e.pages = [])
    (idle : ∀ p, e.picture ≠ .arriving p) : (b.addEntry e).lawful := by
  rw [Bfm.lawful_iff] at h ⊢
  obtain ⟨tally, once, arriving⟩ := h
  refine ⟨fun p => ?_, ?_, fun x mem p arrives => ?_⟩
  · rw [← tally p]
    simp [Bfm.tally, Bfm.addEntry, none]
  · rw [Bfm.addEntry, List.map_append, List.nodup_append]
    refine ⟨once, List.nodup_singleton _, ?_⟩
    simpa using new
  · rcases List.mem_append.mp mem with mem | mem
    · exact arriving x mem p arrives
    · exact absurd (List.mem_singleton.mp mem ▸ arrives) (idle p)

theorem ageOldest_entries (s : State) : ∀ x ∈ s.ageOldest.bfm.entries, x ∈ s.bfm.entries := by
  unfold State.ageOldest
  split
  · exact fun x mem => mem
  · split
    · rw [State.abandon_bfm]
      exact fun x mem => (mem_leave mem).1
    · exact fun x mem => mem

/-- BFM acts on a frame start of a new serial (R90). -/
theorem bfmFrame {f : FrameStart} (h : s.bfm.lawful) (new : s.bfm.entry f.serial = none) : (s.bfmFrame f).bfm.lawful := by
  unfold State.bfmFrame
  extract_lets noted aged
  have fresh : ∀ x ∈ aged.bfm.entries, x.serial ≠ f.serial := fun x mem => by
    have := List.find?_eq_none.mp new x (ageOldest_entries noted x mem)
    simpa using this
  refine .ite (.review ?_) h
  refine addEntry (b := aged.bfm) (ageOldest (s := noted) h) fresh ?_ (fun p => by simp [State.newEntry])
  unfold Entry.pages State.newEntry State.newSound
  dsimp only
  split <;> rfl

theorem bfmStep (h : s.bfm.lawful) (new : s.newSerial) : s.bfmStep.bfm.lawful := by
  unfold State.bfmStep
  split
  · exact h
  · next f rest due => exact bfmFrame (s := { s with due := _ }) h (new f rest due)

/-- The port goes on to serve the entries that it served (R94). -/
theorem setPort {b : Bfm} {port : EssencePort} (h : b.lawful)
    (serves : ∀ n placed remaining, b.port = .data n placed remaining → ∃ placed remaining, port = .data n placed remaining) :
    ({ b with port := port } : Bfm).lawful := by
  obtain ⟨pages, once, arriving⟩ := h
  refine ⟨pages, once, fun e mem p arrives => ?_⟩
  obtain ⟨placed, remaining, data⟩ := arriving e mem p arrives
  exact serves _ _ _ data

/-- Entries of the table that are abandoned one after another (R93 step 4): the pages stand in the law, and the others stay. -/
theorem abandonAll {reason : AbandonReason} : ∀ (l : List Entry) {s : State}, s.bfm.lawful → (l.map Entry.serial).Nodup →
    (∀ x ∈ l, x ∈ s.bfm.entries) →
    let t := l.foldl (fun s x => s.abandon x reason) s
    t.bfm.lawful ∧ ∀ x, x ∈ t.bfm.entries ↔ x ∈ s.bfm.entries ∧ ∀ y ∈ l, x.serial ≠ y.serial
  | [], s, h, _, _ => ⟨h, by simp⟩
  | e :: l, s, h, once, here => by
    rw [List.map_cons, List.nodup_cons] at once
    have left : ∀ x, x ∈ (s.abandon e reason).bfm.entries ↔ x ∈ s.bfm.entries ∧ x.serial ≠ e.serial := by
      simp [State.abandon_bfm]
    obtain ⟨law, stays⟩ := abandonAll l (State.lawful_abandon h (here e List.mem_cons_self) reason) once.2 fun x mem =>
      (left x).mpr ⟨here x (List.mem_cons_of_mem _ mem), fun same => once.1 (same ▸ List.mem_map_of_mem mem)⟩
    refine ⟨law, fun x => ?_⟩
    rw [List.foldl_cons, stays, left, List.forall_mem_cons, and_assoc]

theorem skipOlder {n : Serial} (h : s.bfm.lawful) :
    (s.skipOlder n).bfm.lawful ∧ (∀ x ∈ (s.skipOlder n).bfm.entries, x ∈ s.bfm.entries) ∧
      ∀ x ∈ s.bfm.entries, x.serial = n → x ∈ (s.skipOlder n).bfm.entries := by
  obtain ⟨law, stays⟩ := abandonAll (reason := .skipped) (s.bfm.entries.filter (fun e => older e.serial n && e.hasNoPicture)) h
    (h.2.1.sublist (List.filter_sublist.map _)) (fun x mem => (List.mem_filter.mp mem).1)
  refine ⟨law, fun x mem => ((stays x).mp mem).1, fun x mem same => (stays x).mpr ⟨mem, fun y gone => ?_⟩⟩
  intro equal
  have older := (List.mem_filter.mp gone).2
  rw [← same, equal, older_self] at older
  cases older

theorem essenceHeader {n : Serial} {length : Nat} {key : Bool} (h : s.bfm.lawful) :
    (s.essenceHeader n length key).bfm.lawful := by
  unfold State.essenceHeader
  split
  · exact h
  · exact h
  · next port =>
    have skip (counts : BfmCounts) : ({ s.bfm with counts := counts, port := .skip length } : Bfm).lawful :=
      setPort (b := { s.bfm with counts := counts }) h (fun _ _ _ data => by cases port.symm.trans data)
    have idle : ∀ x ∈ s.bfm.entries, ∀ p, x.picture ≠ .arriving p := fun x mem p arrives => by
      obtain ⟨_, _, data⟩ := h.2.2 x mem p arrives
      cases port.symm.trans data
    dsimp only
    split
    · exact skip _
    · split
      · exact skip _
      · next e found =>
        obtain ⟨mem, rfl⟩ := find_serial found
        obtain ⟨law, fewer, stays⟩ := skipOlder (n := e.serial) h
        split
        · exact skip _
        · next lacks =>
          refine .review (State.lawful_beginPicture law (stays e mem rfl) (fun x mem => idle x (fewer x mem)) ?_ length key)
          cases picture : e.picture with
          | none => rfl
          | arriving p => exact absurd picture (idle e mem p)
          | present p => exact absurd (by rw [Entry.hasPicture, picture]) lacks

/-- The picture of the entry that the port fills is PRESENT once the port is in HEADER (R94). -/
theorem pictureArrives {b : Bfm} {n : Serial} {placed remaining : Nat} (h : b.lawful) (port : b.port = .data n placed remaining) :
    ({ b.modifyEntry n (fun e => { e with picture := e.picture.arrived }) with port := .header } : Bfm).lawful := by
  have same (e : Entry) : ({ e with picture := e.picture.arrived } : Entry).pages = e.pages := by
    cases picture : e.picture <;> simp [Entry.pages, picture, Picture.arrived, Picture.pages]
  rw [Bfm.lawful_iff] at h ⊢
  obtain ⟨tally, once, arriving⟩ := h
  refine ⟨fun q => ?_, ?_, fun x mem p arrives => ?_⟩
  · rw [← tally q]
    simp only [Bfm.tally, Bfm.modifyEntry, List.map_map]
    congr 3
    refine List.map_congr_left fun e _ => ?_
    rw [Function.comp_apply]
    split
    · exact same e
    · rfl
  · exact (serials_modify b.entries n (fun e => { e with picture := e.picture.arrived }) (fun _ => rfl)).symm ▸ once
  · obtain ⟨e, here, rfl⟩ := List.mem_map.mp mem
    by_cases filled : e.serial = n
    · rw [if_pos (beq_iff_eq.mpr filled)] at arrives
      cases picture : e.picture <;> simp [picture, Picture.arrived] at arrives
    · rw [if_neg (by simpa using filled)] at arrives
      obtain ⟨_, _, data⟩ := arriving e here p arrives
      cases port.symm.trans data
      exact absurd rfl filled

theorem fillPicture {n : Serial} {placed remaining : Nat} {bytes : List Byte} (h : s.bfm.lawful)
    (port : s.bfm.port = .data n placed remaining) : (s.fillPicture n placed remaining bytes).bfm.lawful := by
  unfold State.fillPicture
  extract_lets data filled
  refine .ite (setPort (b := s.bfm) h fun _ _ _ was => ?_) (.review (State.lawful_checkComplete (pictureArrives h port) n))
  cases port.symm.trans was
  exact ⟨_, _, rfl⟩

theorem essenceData {bytes : List Byte} (h : s.bfm.lawful) : (s.essenceData bytes).bfm.lawful := by
  unfold State.essenceData
  split
  · exact h
  · next port => exact .fillPicture h port
  · next port => exact setPort h (fun _ _ _ data => by cases port.symm.trans data)

theorem takeRetain {w : Nat} {window : HoldWindow} {head : Serial} (h : s.bfm.lawful) : (s.takeRetain w window head).bfm.lawful := by
  unfold State.takeRetain
  extract_lets primary opened b kept retained clipped reported
  have opens : opened.bfm.lawful := openFor (s := s.beginClip .retained .retaining none) h
  exact closeCopy (s := reported) ((opened.bfm.keeps_retain w head primary).lawful opens)

/-! ### The card writers' commands -/

theorem formatEnds {side : Side} (h : s.bfm.lawful) : (s.formatEnds side).bfm.lawful := by
  unfold State.formatEnds
  exact .judgeNearFull (.report h)

theorem unitWritten {side : Side} {n : Serial} {size : Nat} (h : s.bfm.lawful) : (s.unitWritten side n size).bfm.lawful :=
  (s.bfm.keeps_modifyUnits _ _ fun u => by unfold RecUnit.written; split <;> rfl).lawful h

theorem completed {side : Side} {kind : CardCmdKind} (h : s.bfm.lawful) : (s.completed side kind).bfm.lawful := by
  unfold State.completed
  split
  · exact .foldl (fun k => .unitWritten k) h
  · exact h
  · exact h
  · exact .recoverNext h
  · exact .formatEnds h
  · exact h
  · exact h
  · exact h
  · exact h

theorem cardFails {side : Side} {kind : Nat} {sector : Option Nat} {cause : FailCause} (h : s.bfm.lawful) :
    (s.cardFails side kind sector cause).bfm.lawful := by
  unfold State.cardFails
  exact .notify (.slotLost h)

theorem commandAnswered {side : Side} {status : CardStatus} (h : s.bfm.lawful) : (s.commandAnswered side status).bfm.lawful := by
  unfold State.commandAnswered
  split
  · exact h
  · exact .cardFails h
  · exact .review (.runWriter (.completed h))

theorem readAnswered {side : Side} {answer : ReadAnswer} (h : s.bfm.lawful) : (s.readAnswered side answer).bfm.lawful := by
  unfold State.readAnswered
  split
  · exact h
  · exact .cardFails h
  · exact .cardRead h

theorem cardTimesOut {side : Side} (h : s.bfm.lawful) : (s.cardTimesOut side).bfm.lawful := by
  unfold State.cardTimesOut
  split
  · exact .cardFails h
  · exact .cardFails h
  · exact h

theorem takeNext {side : Side} (h : s.bfm.lawful) : (s.takeNext side).bfm.lawful := by
  unfold State.takeNext
  split
  · exact h
  · split
    · exact h
    · exact .ite (.review (takeUnit h :)) (.endOfCard h)

theorem reportChange {side : Side} {change : Nat} (h : s.bfm.lawful) : (s.reportChange side change).bfm.lawful := .report h

theorem mountOrDefer {side : Side} (h : s.bfm.lawful) : (s.mountOrDefer side).bfm.lawful := by
  unfold State.mountOrDefer
  exact .ite h h

theorem detectChanged {side : Side} {present : Bool} (h : s.bfm.lawful) : (s.detectChanged side present).bfm.lawful := by
  unfold State.detectChanged
  exact .ite h (.ite h (.ite (.ite (.reportChange (.mountOrDefer h)) h) (.reportChange (.slotLost h))))

theorem protectChanged {side : Side} {on : Bool} (h : s.bfm.lawful) : (s.protectChanged side on).bfm.lawful := by
  unfold State.protectChanged
  exact .ite h (.ite (.ite (.reportChange h) h) (.ite (.reportChange (.mountOrDefer h)) h))

/-! ### Recorder, viewfinder and power -/

theorem rcdStep (h : s.bfm.lawful) : s.rcdStep.bfm.lawful := by
  unfold State.rcdStep
  split <;> exact h

theorem vogStep (h : s.bfm.lawful) : s.vogStep.bfm.lawful := by
  unfold State.vogStep
  split
  · exact h
  · unfold State.vogFrame
    exact .ite h h

theorem resetItems {which : List Nat} (h : s.bfm.lawful) : (s.resetItems which).bfm.lawful := by
  unfold State.resetItems
  exact .foldl (fun k => k) h

theorem haltLens (h : s.bfm.lawful) : s.haltLens.bfm.lawful :=
  show (s.endMoves .halted).bfm.lawful from .endMoves h

theorem reportPower (h : s.bfm.lawful) : s.reportPower.bfm.lawful := .report h

theorem enterStandby (h : s.bfm.lawful) : s.enterStandby.bfm.lawful := by
  unfold State.enterStandby
  extract_lets stopped halted
  have cleared : halted.bfm.clearAll.lawful := Bfm.lawful_clearAll (haltLens (s := stopped.setTimebase .standby) h)
  exact reportPower (s := { halted with stb := _, bfm := _, vog := _, due := _ }) cleared

theorem returnToRun {cause : RunCause} (h : s.bfm.lawful) : (s.returnToRun cause).bfm.lawful := by
  unfold State.returnToRun
  exact .reportPower h

theorem press (h : s.bfm.lawful) : s.press.bfm.lawful := by
  unfold State.press
  split
  · exact .returnToRun h
  · split
    · exact .startReported h
    · exact .stop h
    · exact h
    · exact h

theorem switchLnc {on : Bool} (h : s.bfm.lawful) : (s.switchLnc on).bfm.lawful := by
  unfold State.switchLnc
  exact .ite h h

theorem switchStb {on : Bool} (h : s.bfm.lawful) : (s.switchStb on).bfm.lawful := by
  unfold State.switchStb
  exact .ite h h

theorem switchAud {on : Bool} (h : s.bfm.lawful) : (s.switchAud on).bfm.lawful := by
  have handed : (if !on && s.pwc.inRun then s.handOverOff else s).bfm.lawful := .ite (.handOverOff h) h
  unfold State.switchAud
  exact .ite h handed

theorem switchVog {on : Bool} (h : s.bfm.lawful) : (s.switchVog on).bfm.lawful := by
  unfold State.switchVog
  exact .ite h h

theorem switchSlot {side : Side} {on : Bool} (h : s.bfm.lawful) : (s.switchSlot side on).bfm.lawful := by
  unfold State.switchSlot
  exact .ite h (.ite (.ite (.mountOrDefer h) h) h)

/-! ### What a block does with a request (R176 step 4) -/

theorem iteFst {c : Prop} [Decidable c] {x y : State × Answer} (h : x.1.bfm.lawful) (k : y.1.bfm.lawful) :
    (if c then x else y).1.bfm.lawful := by
  split
  · exact h
  · exact k

/-- FRAME_CONFIG clears the buffer memory, and a substituted start may follow (R23, R110). -/
theorem reqFrameConfig {p : List Byte} (h : s.bfm.lawful) : (Machine.reqFrameConfig p s).1.bfm.lawful := by
  unfold Machine.reqFrameConfig
  split
  · split
    · exact h
    · exact .iteFst h (fireIfDue (s := { s with ftb := _, bfm := s.bfm.clearAll, aud := _ }) (Bfm.lawful_clearAll h))
  · exact h

theorem reqTcPreset {p : List Byte} (h : s.bfm.lawful) : (Machine.reqTcPreset p s).1.bfm.lawful := by
  unfold Machine.reqTcPreset
  dsimp only
  split
  · exact h
  · exact h

theorem reqTcMode {p : List Byte} (h : s.bfm.lawful) : (reqTcMode p s).1.bfm.lawful := by
  unfold Machine.reqTcMode
  split
  · exact h
  · exact .iteFst h (h)

theorem reqTcTrigger {p : List Byte} (h : s.bfm.lawful) : (reqTcTrigger p s).1.bfm.lawful := by
  unfold Machine.reqTcTrigger
  refine .iteFst (h) (.iteFst h ?_)
  dsimp only
  split
  · exact h
  · exact .iteFst h (h)

theorem reqIntervalConfig {p : List Byte} (h : s.bfm.lawful) : (reqIntervalConfig p s).1.bfm.lawful := by
  unfold Machine.reqIntervalConfig
  split
  · exact h
  · exact .iteFst h (h)

theorem reqTimeQuery {p : List Byte} (h : s.bfm.lawful) : (reqTimeQuery p s).1.bfm.lawful := by
  unfold Machine.reqTimeQuery
  split
  · exact h
  · exact .ite (h) h

theorem takeRate {d : Drive} {p : List Byte} (h : s.bfm.lawful) : (s.takeRate d p).1.bfm.lawful := by
  unfold State.takeRate
  split
  · exact h
  · exact .iteFst h (endMove h :)

theorem reqLensGoto {p : List Byte} (h : s.bfm.lawful) : (reqLensGoto p s).1.bfm.lawful := by
  unfold Machine.reqLensGoto
  dsimp only
  split
  · refine .iteFst h (.iteFst h ?_)
    exact .ite (.moveDrive (.ite (.moveDrive h) h)) (.ite (.moveDrive h) h)
  · exact h

theorem reqLensStop {p : List Byte} (h : s.bfm.lawful) : (reqLensStop p s).1.bfm.lawful := by
  unfold Machine.reqLensStop
  exact endMove (.stopDrive (.stopDrive h))

theorem reqPresetStore {p : List Byte} (h : s.bfm.lawful) : (reqPresetStore p s).1.bfm.lawful := by
  unfold Machine.reqPresetStore
  split
  · exact .iteFst h h
  · split <;> exact h
  · exact h

theorem recallPreset {i : Nat} {x : Preset} {t : Nat} (h : s.bfm.lawful) : (s.recall i x t).1.bfm.lawful := by
  unfold State.recall
  dsimp only
  split
  · exact moveIris (.moveDrive (.moveDrive h))
  · exact moveDrive (.moveDrive h)

theorem reqPresetRecall {p : List Byte} (h : s.bfm.lawful) : (reqPresetRecall p s).1.bfm.lawful := by
  unfold Machine.reqPresetRecall
  split
  · split
    · exact h
    · exact .iteFst h (.recallPreset h)
  · exact h

theorem takeIris {f : Iris → Iris} (h : s.bfm.lawful) : (s.takeIris f).1.bfm.lawful := by
  unfold State.takeIris
  exact .iteFst h (endMove h :)

theorem reqIrisAuto {p : List Byte} (h : s.bfm.lawful) : (reqIrisAuto p s).1.bfm.lawful := by
  unfold Machine.reqIrisAuto
  split
  · exact h
  · exact .takeIris h

theorem reqZoomCurveLoad {p : List Byte} (h : s.bfm.lawful) : (reqZoomCurveLoad p s).1.bfm.lawful := by
  unfold Machine.reqZoomCurveLoad
  exact .iteFst h h

theorem reqLensConfig {p : List Byte} (h : s.bfm.lawful) : (reqLensConfig p s).1.bfm.lawful := by
  unfold Machine.reqLensConfig
  split <;> exact h

theorem reqLensQuery {p : List Byte} (h : s.bfm.lawful) : (reqLensQuery p s).1.bfm.lawful := by
  unfold Machine.reqLensQuery
  split
  · exact h
  · exact .ite h h

theorem reqStabConfig {p : List Byte} (h : s.bfm.lawful) : (reqStabConfig p s).1.bfm.lawful := by
  unfold Machine.reqStabConfig
  split
  · exact h
  · exact .iteFst h h

theorem reqStabMode {p : List Byte} (h : s.bfm.lawful) : (reqStabMode p s).1.bfm.lawful := by
  unfold Machine.reqStabMode
  split
  · exact h
  · exact .iteFst h h

theorem reqStabRecentre {p : List Byte} (h : s.bfm.lawful) : (reqStabRecentre p s).1.bfm.lawful := by
  unfold Machine.reqStabRecentre
  exact .iteFst h h

theorem reqStabQuery {p : List Byte} (h : s.bfm.lawful) : (reqStabQuery p s).1.bfm.lawful := by
  unfold Machine.reqStabQuery
  split
  · exact h
  · exact .ite h h

theorem reqAudioRoute {p : List Byte} (h : s.bfm.lawful) : (reqAudioRoute p s).1.bfm.lawful := by
  unfold Machine.reqAudioRoute
  split
  · exact .iteFst h h
  · exact h

theorem reqAudioGain {p : List Byte} (h : s.bfm.lawful) : (reqAudioGain p s).1.bfm.lawful := by
  unfold Machine.reqAudioGain
  split
  · exact .iteFst h h
  · exact h

theorem reqAudioLimiter {p : List Byte} (h : s.bfm.lawful) : (reqAudioLimiter p s).1.bfm.lawful := by
  unfold Machine.reqAudioLimiter
  split
  · exact .iteFst h h
  · exact h

theorem reqAudioQuery {p : List Byte} (h : s.bfm.lawful) : (reqAudioQuery p s).1.bfm.lawful := by
  unfold Machine.reqAudioQuery
  split
  · exact h
  · exact .ite h h

theorem reqAuxAttach {p : List Byte} (h : s.bfm.lawful) : (reqAuxAttach p s).1.bfm.lawful := by
  unfold Machine.reqAuxAttach
  exact .iteFst h (.iteFst h h)

theorem reqMarkFrame {p : List Byte} (h : s.bfm.lawful) : (reqMarkFrame p s).1.bfm.lawful := by
  unfold Machine.reqMarkFrame
  dsimp only
  split
  · exact h
  · exact h
  · split
    · exact h
    · exact Bfm.lawful_modifyEntry h _ _ (fun _ => rfl) (fun _ => rfl) (fun _ => rfl)

theorem reqPrerecConfig {p : List Byte} (h : s.bfm.lawful) : (reqPrerecConfig p s).1.bfm.lawful := by
  unfold Machine.reqPrerecConfig
  split
  · exact h
  · exact .iteFst h ((Bfm.keeps_ringRule { s.bfm with depth := _ }).lawful h)

theorem reqHoldSet {p : List Byte} (h : s.bfm.lawful) : (reqHoldSet p s).1.bfm.lawful := by
  unfold Machine.reqHoldSet
  refine .iteFst h ?_
  split
  · exact h
  · exact .iteFst h ((s.bfm.keeps_holdSet _ _ _).lawful h)

theorem reqHoldClear {p : List Byte} (h : s.bfm.lawful) : (reqHoldClear p s).1.bfm.lawful := by
  unfold Machine.reqHoldClear
  split
  · exact h
  · exact .iteFst h (.iteFst h ((s.bfm.keeps_clearWindow _).lawful h))

theorem reqHoldRetain {p : List Byte} (h : s.bfm.lawful) : (reqHoldRetain p s).1.bfm.lawful := by
  unfold Machine.reqHoldRetain
  split
  · exact h
  · split
    · refine .iteFst h ?_
      split
      · exact (takeRetain h :)
      · exact h
      · exact h
    · exact h

theorem reqBufferQuery {p : List Byte} (h : s.bfm.lawful) : (reqBufferQuery p s).1.bfm.lawful := by
  unfold Machine.reqBufferQuery
  split
  · exact h
  · exact .ite h h

theorem reqSlotMode {p : List Byte} (h : s.bfm.lawful) : (reqSlotMode p s).1.bfm.lawful := by
  unfold Machine.reqSlotMode
  split
  · exact .iteFst h h
  · exact h

theorem reqRecStart {p : List Byte} (h : s.bfm.lawful) : (reqRecStart p s).1.bfm.lawful := by
  have started : (s.start .host s.rcd.noted).1.bfm.lawful := .start h
  unfold Machine.reqRecStart
  exact .iteFst started started

theorem reqRecStop {p : List Byte} (h : s.bfm.lawful) : (reqRecStop p s).1.bfm.lawful :=
  show (s.stop s.rcd.noted).bfm.lawful from .stop h

theorem reqRecQuery {p : List Byte} (h : s.bfm.lawful) : (reqRecQuery p s).1.bfm.lawful := by
  unfold Machine.reqRecQuery
  split
  · exact h
  · exact .ite h h

theorem reqCardFormat {p : List Byte} (h : s.bfm.lawful) : (reqCardFormat p s).1.bfm.lawful := by
  unfold Machine.reqCardFormat
  split
  · exact h
  · refine .iteFst h ?_
    split
    · exact h
    · exact .runWriter h

theorem reqCardEject {p : List Byte} (h : s.bfm.lawful) : (reqCardEject p s).1.bfm.lawful := by
  unfold Machine.reqCardEject
  split
  · exact h
  · refine .iteFst h ?_
    split <;> exact h

theorem reqCardConfig {p : List Byte} (h : s.bfm.lawful) : (reqCardConfig p s).1.bfm.lawful := by
  unfold Machine.reqCardConfig
  split
  · exact .judgeNearFull h
  · exact h

theorem reqCardQuery {p : List Byte} (h : s.bfm.lawful) : (reqCardQuery p s).1.bfm.lawful := by
  unfold Machine.reqCardQuery
  split
  · exact .ite h h
  · exact h

theorem reqVfItemSet {p : List Byte} (h : s.bfm.lawful) : (reqVfItemSet p s).1.bfm.lawful := by
  unfold Machine.reqVfItemSet
  split
  · exact .iteFst h h
  · exact h

theorem reqVfItemClear {p : List Byte} (h : s.bfm.lawful) : (reqVfItemClear p s).1.bfm.lawful := by
  unfold Machine.reqVfItemClear
  exact .iteFst h (.iteFst h (.resetItems h))

theorem reqVfText {p : List Byte} (h : s.bfm.lawful) : (reqVfText p s).1.bfm.lawful := by
  unfold Machine.reqVfText
  dsimp only
  split
  · exact .iteFst h (.iteFst h h)
  · exact h

theorem reqVfConfig {p : List Byte} (h : s.bfm.lawful) : (reqVfConfig p s).1.bfm.lawful := by
  unfold Machine.reqVfConfig
  dsimp only
  split
  · exact .iteFst h (.iteFst h h)
  · exact h

theorem reqNoticeConfig {p : List Byte} (h : s.bfm.lawful) : (reqNoticeConfig p s).1.bfm.lawful := by
  unfold Machine.reqNoticeConfig
  split <;> exact h

theorem reqNoticeMask {p : List Byte} (h : s.bfm.lawful) : (reqNoticeMask p s).1.bfm.lawful := by
  unfold Machine.reqNoticeMask
  split <;> exact h

theorem clearAll {srcs : List Source} (h : s.bfm.lawful) : (s.modifyLnk (fun lnk => lnk.clearAll srcs)).bfm.lawful := by
  induction srcs generalizing s with
  | nil => exact h
  | cons src srcs ih => exact ih (s := s.modifyLnk (fun lnk => lnk.modifySource src SourceState.clear)) h

theorem reqNoticeClear {p : List Byte} (h : s.bfm.lawful) : (reqNoticeClear p s).1.bfm.lawful := by
  unfold Machine.reqNoticeClear
  exact .iteFst h (.clearAll h)

theorem reqNoticeQuery {p : List Byte} (h : s.bfm.lawful) : (reqNoticeQuery p s).1.bfm.lawful := by
  unfold Machine.reqNoticeQuery
  split
  · exact h
  · exact .ite h h

theorem reqPowerStandby {p : List Byte} (h : s.bfm.lawful) : (reqPowerStandby p s).1.bfm.lawful := by
  unfold Machine.reqPowerStandby
  exact .iteFst h (.iteFst h (.enterStandby h))

theorem reqPowerRun {p : List Byte} (h : s.bfm.lawful) : (reqPowerRun p s).1.bfm.lawful := by
  unfold Machine.reqPowerRun
  exact .ite h (.returnToRun h)

theorem reqBlockEnable {p : List Byte} (h : s.bfm.lawful) : (reqBlockEnable p s).1.bfm.lawful := by
  unfold Machine.reqBlockEnable
  split
  · exact h
  · exact .iteFst h (.switchAud (.switchVog (.switchStb (.switchLnc (.switchSlot (.switchSlot h))))))

/-- A block that takes a request keeps the laws, and leaves the reply to LNK (R176 step 4). -/
theorem takeRequest {req : Req} {p : List Byte} (h : s.bfm.lawful) : (takeRequest req p s).1.bfm.lawful := by
  cases req with
  | frameConfig => exact .reqFrameConfig h
  | tcPreset => exact .reqTcPreset h
  | tcMode => exact .reqTcMode h
  | tcUserbits => exact h
  | tcTrigger => exact .reqTcTrigger h
  | intervalConfig => exact .reqIntervalConfig h
  | timeQuery => exact .reqTimeQuery h
  | zoomRate => exact takeRate (d := .zoom) h
  | focusRate => exact takeRate (d := .focus) h
  | lensGoto => exact .reqLensGoto h
  | lensStop => exact reqLensStop (p := p) h
  | presetStore => exact .reqPresetStore h
  | presetRecall => exact .reqPresetRecall h
  | irisSet => exact (takeIris h :)
  | irisAuto => exact .reqIrisAuto h
  | zoomCurveLoad => exact .reqZoomCurveLoad h
  | lensConfig => exact .reqLensConfig h
  | lensQuery => exact .reqLensQuery h
  | stabConfig => exact .reqStabConfig h
  | stabMode => exact .reqStabMode h
  | stabRecentre => exact reqStabRecentre (p := p) h
  | stabQuery => exact .reqStabQuery h
  | audioRoute => exact .reqAudioRoute h
  | audioGain => exact .reqAudioGain h
  | audioLimiter => exact .reqAudioLimiter h
  | audioQuery => exact .reqAudioQuery h
  | auxAttach => exact .reqAuxAttach h
  | markFrame => exact .reqMarkFrame h
  | prerecConfig => exact .reqPrerecConfig h
  | holdSet => exact .reqHoldSet h
  | holdClear => exact .reqHoldClear h
  | holdRetain => exact .reqHoldRetain h
  | bufferQuery => exact .reqBufferQuery h
  | slotMode => exact .reqSlotMode h
  | recStart => exact reqRecStart (p := p) h
  | recStop => exact reqRecStop (p := p) h
  | recQuery => exact .reqRecQuery h
  | cardFormat => exact .reqCardFormat h
  | cardEject => exact .reqCardEject h
  | catalogueRead => exact (reqCatalogueRead_fst p s).symm ▸ h
  | cardConfig => exact .reqCardConfig h
  | cardQuery => exact .reqCardQuery h
  | vfItemSet => exact .reqVfItemSet h
  | vfItemClear => exact .reqVfItemClear h
  | vfText => exact .reqVfText h
  | vfConfig => exact .reqVfConfig h
  | noticeConfig => exact .reqNoticeConfig h
  | noticeMask => exact .reqNoticeMask h
  | noticeClear => exact .reqNoticeClear h
  | noticeQuery => exact .reqNoticeQuery h
  | powerStandby => exact reqPowerStandby (p := p) h
  | powerRun => exact reqPowerRun (p := p) h
  | blockEnable => exact .reqBlockEnable h
  | partReset => exact h

theorem judgeRequest {x : Request} (h : s.bfm.lawful) : (s.judgeRequest x).1.bfm.lawful := by
  unfold State.judgeRequest
  split
  · exact h
  · unfold State.judgeRow
    refine .iteFst h ?_
    split
    · exact h
    · exact .takeRequest h

/-! ### LNK's own work -/

theorem settle (h : s.bfm.lawful) : s.settle.bfm.lawful := by
  have bfm : s.settle.bfm = s.bfm := by
    unfold State.settle
    dsimp only
    split <;> rfl
  exact bfm ▸ h

theorem elapseBy {fuel cycles : Nat} (h : s.bfm.lawful) : (State.elapseBy fuel cycles s).bfm.lawful := by
  induction fuel generalizing cycles s with
  | zero => exact h
  | succ fuel ih =>
    unfold State.elapseBy
    exact .ite h (ih (.settle (timerFires (s := s.pass _) h)))

theorem elapse {cycles : Nat} (h : s.bfm.lawful) : (s.elapse cycles).bfm.lawful := h.elapseBy

theorem serve {x : Request} (h : s.bfm.lawful) : (s.serve x).bfm.lawful := by
  unfold State.serve
  exact settle (judgeRequest h :)

theorem dispatch {fuel : Nat} (h : s.bfm.lawful) : (State.dispatch fuel s).bfm.lawful := by
  induction fuel generalizing s with
  | zero => exact h
  | succ fuel ih =>
    unfold State.dispatch
    split
    · exact h
    · exact .ite (ih (serve (s := s.modifyLnk _) h)) h

theorem dropFrame {cause : DropCause} (h : s.bfm.lawful) : (s.dropFrame cause).bfm.lawful := by
  unfold State.dropFrame
  exact settle (report (s := s.modifyLnk _) h)

theorem offer {x : Request} (h : s.bfm.lawful) : (s.offer x).bfm.lawful := by
  unfold State.offer
  exact .ite (dispatch (s := s.modifyLnk _) h) (.dropFrame h)

theorem takeBytes {fuel : Nat} {bytes : List Byte} (h : s.bfm.lawful) : (State.takeBytes fuel bytes s).bfm.lawful := by
  induction fuel generalizing bytes s with
  | zero => exact h
  | succ fuel ih =>
    cases bytes with
    | nil => exact h
    | cons b rest =>
      unfold State.takeBytes
      extract_lets kept
      have hunted : kept.hunt.bfm.lawful := h
      split
      · exact ih (s := kept) h
      · exact ih hunted.dropFrame
      · exact ih hunted.dropFrame
      · exact ih hunted.offer

theorem dropKept {cause : DropCause} (h : s.bfm.lawful) : (s.dropKept cause).bfm.lawful := by
  unfold State.dropKept
  exact takeBytes (dropFrame (s := s.hunt) h)

theorem framingError (h : s.bfm.lawful) : s.framingError.bfm.lawful := by
  unfold State.framingError
  exact .ite h (.dropKept h)

theorem gapExpires (h : s.bfm.lawful) : s.gapExpires.bfm.lawful := by
  unfold State.gapExpires
  exact .ite h (.dropKept h)

theorem messageSent (h : s.bfm.lawful) : s.messageSent.bfm.lawful := by
  unfold State.messageSent
  split
  · exact h
  · exact .ite Bfm.lawful_afterReset (dispatch (s := State.modifyLnk _ _) h)

end Bfm.lawful

/-! ## Every command and every step -/

/-- What a command answers keeps the law of the pages, where the state and the premise of R90 hold. -/
def KeepsPages (c : Instr) (s : State) : Prop := ∀ t, s.bfm.lawful → s.newSerial → exec c s = .next t → t.bfm.lawful

theorem keepsPages_act {c : Instr} {s : State} (effect : State → State) (acts : exec c s = s.act effect)
    (keeps : s.bfm.lawful → (effect s).bfm.lawful) : KeepsPages c s := by
  intro t h _ next
  rcases exec_act_next acts next with rfl | rfl
  · exact h
  · exact (keeps h).settle

theorem keepsPages_receive {c : Instr} {s : State} {code tag : Byte} {payload : List Byte}
    (received : exec c s = s.receive code tag payload) : KeepsPages c s :=
  keepsPages_act _ received .offer

theorem keepsPages_resetEnd (strap1 strap0 detectA detectB : Bool) (s : State) :
    KeepsPages (.resetEnd strap1 strap0 detectA detectB) s := by
  intro t h _ next
  change execResetEnd strap1 strap0 detectA detectB s = .next t at next
  unfold execResetEnd at next
  split at next <;> obtain rfl := Host.Outcome.next.inj next
  · exact h
  · exact Bfm.lawful_afterReset

/-- Every command keeps the law of the pages. The commands without a case of their own are the requests, which all reach the part
through the inbound queue (R175). -/
theorem exec_keepsPages (c : Instr) (s : State) : KeepsPages c s := by
  cases c with
  | frameStartEdge cycles => exact keepsPages_act (fun s => (s.elapse cycles).edge) rfl fun h => h.elapse.edge
  | substitutionTimer => exact keepsPages_act State.fireIfDue rfl .fireIfDue
  | lncFrameStart => exact keepsPages_act State.lncStep rfl .lncStep
  | lensReport bytes => exact keepsPages_act (·.lensReport bytes) rfl .lensReport
  | reportWindowExpiry => exact keepsPages_act State.windowExpires rfl .windowExpires
  | gyroReadDue => exact keepsPages_act State.gyroDue rfl .gyroDue
  | gyroAnswer yaw pitch status => exact keepsPages_act (·.gyroAnswered yaw.toInt pitch.toInt status) rfl .gyroAnswered
  | tileSetComplete serial pixels => exact keepsPages_act (·.tileSet ⟨serial, pixels⟩) rfl .tileSet
  | correlationComplete => exact keepsPages_act (·.modifyStb Stb.correlated) rfl id
  | stbFrameStart => exact keepsPages_act State.stbStep rfl .stbStep
  | sampleFrame pair first second => exact keepsPages_act (·.sampleFrame pair first.toInt second.toInt) rfl .sampleFrame
  | audFrameStart => exact keepsPages_act State.audStep rfl .audStep
  | bfmFrameStart =>
    intro t h new next
    exact keepsPages_act (c := .bfmFrameStart) State.bfmStep rfl (.bfmStep · new) t h new next
  | essenceHeader serial lengthLessOne key => exact keepsPages_act (·.essenceHeader serial (lengthLessOne.toNat + 1) key) rfl .essenceHeader
  | essenceData bytes => exact keepsPages_act (·.essenceData bytes) rfl .essenceData
  | rcdFrameStart => exact keepsPages_act State.rcdStep rfl .rcdStep
  | vogFrameStart => exact keepsPages_act State.vogStep rfl .vogStep
  | overlaySent => exact keepsPages_act (fun s => { s with vog := s.vog.recordSent }) rfl id
  | recLinePress => exact keepsPages_act State.press rfl .press
  | unitTake slot => exact keepsPages_act (·.takeNext slot) rfl .takeNext
  | commandComplete slot status => exact keepsPages_act (·.commandAnswered slot status) rfl .commandAnswered
  | cardReadComplete slot answer => exact keepsPages_act (·.readAnswered slot answer) rfl .readAnswered
  | cardTimeout slot => exact keepsPages_act (·.cardTimesOut slot) rfl .cardTimesOut
  | cardDetectChange slot present => exact keepsPages_act (·.detectChanged slot present) rfl .detectChanged
  | protectChange slot on => exact keepsPages_act (·.protectChanged slot on) rfl .protectChanged
  | byteArrival byte => exact keepsPages_act (·.receiveBytes [byte]) rfl .takeBytes
  | lineFramingError => exact keepsPages_act State.framingError rfl .framingError
  | gapTimeout => exact keepsPages_act State.gapExpires rfl .gapExpires
  | messageSent => exact keepsPages_act State.messageSent rfl .messageSent
  | powerOnReset =>
    intro t _ _ next
    obtain rfl := Host.Outcome.next.inj next
    exact Bfm.lawful_afterReset
  | resetEnd strap1 strap0 detectA detectB => exact keepsPages_resetEnd strap1 strap0 detectA detectB s
  | _ => exact keepsPages_receive rfl

/-- A step is a command's, on the state with the queue's rest, or a passing cycle's. -/
theorem step_keepsPages {s t : State} (h : s.bfm.lawful) (new : s.newSerial) (next : step s = .next t) : t.bfm.lawful := by
  unfold step at next
  split at next
  · split at next <;> obtain rfl := Host.Outcome.next.inj next
    · exact h
    · exact h.elapse
  · next c rest _ => exact exec_keepsPages c { s with pending := rest } t h new next

end Sys2Proof.Machine

namespace Sys2Proof.Machine

/-! # Allocation, page shortage and discards (R88, R89) -/

/-- The free list gives its first pages, in order, whenever it holds enough (R88). -/
theorem FreeList.take_eq (f : FreeList) (k : Nat) :
    (f.count < k → f.take k = none) ∧
      (k ≤ f.count → ∃ g, f.take k = some (f.pages.take k, g) ∧ g.pages = f.pages.drop k) := by
  unfold FreeList.take
  refine ⟨fun short => if_neg (by omega), fun enough => ?_⟩
  rw [if_pos enough]
  generalize below : pageCount - f.fresh = fresh
  have fronts : List.range' f.fresh (min k fresh) = (List.range' f.fresh fresh).take k := by
    rcases Nat.le_total k fresh with le | le
    · rw [Nat.min_eq_left le, List.take_range'_of_length_ge le]
    · rw [Nat.min_eq_right le, List.take_of_length_le (by rwa [List.length_range'])]
  have beyond : k - min k fresh = k - fresh := by omega
  dsimp only
  refine ⟨_, by rw [FreeList.pages, below, List.take_append, List.length_range', fronts, beyond], ?_⟩
  have rest : pageCount - (f.fresh + min k fresh) = fresh - k := by omega
  rw [FreeList.pages, FreeList.pages, below, List.drop_append, List.length_range', List.drop_range', Nat.mul_one]
  dsimp only
  rw [rest]
  rcases Nat.le_total k fresh with le | le
  · rw [Nat.min_eq_left le]
  · rw [Nat.sub_eq_zero_of_le le, List.range'_zero, List.range'_zero]

/-- The pages of the unheld ring units (R89). -/
def Bfm.ringPages (b : Bfm) : Nat := ((b.queue.filter RecUnit.unheldRing).map (fun u => u.pages.length)).sum

/-- The discards of a page shortage (R89): the units in order, until `k` pages are free. -/
def Bfm.shed (k : Nat) (b : Bfm) (units : List RecUnit) : Bfm :=
  units.foldl (fun b u =>
    if k ≤ b.free.count then b
    else { b.dropUnit u.serial with counts := { b.counts with shortage := bump16 b.counts.shortage } }) b

/-- An allocation makes room first, where the unheld ring units have the pages that are missing, and then takes from the free list. -/
theorem Bfm.allocate_eq (b : Bfm) (k : Nat) : b.allocate k =
    let room := if k ≤ b.free.count then b
      else if k ≤ b.free.count + b.ringPages then b.shed k (b.queue.filter RecUnit.unheldRing) else b
    match room.free.take k with
    | some (pages, free) => (some pages, { room with free := free })
    | none => (none, room) := rfl

/-- A unit that leaves the queue gives its pages back (R88), and every unit of another serial stays. -/
theorem Bfm.dropUnit_gives {b : Bfm} {u : RecUnit} (queued : u ∈ b.queue) :
    b.free.count + u.pages.length ≤ (b.dropUnit u.serial).free.count ∧
      ∀ x ∈ b.queue, x.serial ≠ u.serial → x ∈ (b.dropUnit u.serial).queue := by
  constructor
  · have left : u ∈ b.queue.filter (fun x => x.serial == u.serial) := List.mem_filter.mpr ⟨queued, beq_self_eq_true _⟩
    have given := (List.sublist_flatten_of_mem (List.mem_map_of_mem (f := RecUnit.pages) left)).length_le
    simp only [Bfm.dropUnit, Bfm.dropUnits, Bfm.judgeWindows, FreeList.give, FreeList.count, List.length_append] at given ⊢
    omega
  · intro x mem other
    simpa [Bfm.dropUnit, Bfm.dropUnits, Bfm.judgeWindows] using ⟨mem, other⟩

/-- Discarding goes on until enough pages are free, where the units have them. -/
theorem Bfm.shed_reaches {k : Nat} : ∀ (units : List RecUnit) {b : Bfm}, (∀ u ∈ units, u ∈ b.queue) →
    (units.map RecUnit.serial).Nodup → k ≤ b.free.count + (units.map (fun u => u.pages.length)).sum →
    k ≤ (b.shed k units).free.count
  | [], _, _, _, reach => by simpa [Bfm.shed] using reach
  | u :: units, b, queued, once, reach => by
    rw [List.map_cons, List.nodup_cons] at once
    rw [List.map_cons, List.sum_cons] at reach
    obtain ⟨gives, stays⟩ := Bfm.dropUnit_gives (queued u List.mem_cons_self)
    unfold Bfm.shed
    rw [List.foldl_cons]
    split
    · next enough =>
      refine Bfm.shed_reaches units (fun x mem => queued x (List.mem_cons_of_mem _ mem)) once.2 ?_
      omega
    · refine Bfm.shed_reaches units (fun x mem => ?_) once.2 ?_
      · exact stays x (queued x (List.mem_cons_of_mem _ mem)) fun same => once.1 (same ▸ List.mem_map_of_mem mem)
      · show k ≤ (b.dropUnit u.serial).free.count + _
        omega

section
variable {b : Bfm} {k : Nat}

/-- Enough free pages: no unit is discarded, and the first ones are given (R88). -/
theorem Bfm.allocate_enough (enough : k ≤ b.free.count) :
    ∃ g, b.allocate k = (some (b.free.pages.take k), { b with free := g }) ∧ g.pages = b.free.pages.drop k := by
  obtain ⟨g, taken, left⟩ := (b.free.take_eq k).2 enough
  refine ⟨g, ?_, left⟩
  rw [Bfm.allocate_eq, if_pos enough]
  dsimp only
  rw [taken]

/-- Too few pages, even with those of the unheld ring units: nothing is discarded and nothing given (R89). -/
theorem Bfm.allocate_short (short : b.free.count + b.ringPages < k) : b.allocate k = (none, b) := by
  have none := (b.free.take_eq k).1 (by omega)
  rw [Bfm.allocate_eq, if_neg (by omega), if_neg (by omega)]
  dsimp only
  rw [none]

/-- An allocation fails only where the pages do not reach (R89). -/
theorem Bfm.allocate_reaches (once : (b.queue.map RecUnit.serial).Nodup) (reach : k ≤ b.free.count + b.ringPages) :
    ∃ pages b', b.allocate k = (some pages, b') := by
  by_cases enough : k ≤ b.free.count
  · obtain ⟨g, given, _⟩ := Bfm.allocate_enough enough
    exact ⟨_, _, given⟩
  · have shed : k ≤ (b.shed k (b.queue.filter RecUnit.unheldRing)).free.count :=
      Bfm.shed_reaches _ (fun u mem => (List.mem_filter.mp mem).1) (once.sublist (List.filter_sublist.map _)) reach
    obtain ⟨g, taken, _⟩ := (FreeList.take_eq _ k).2 shed
    have given := b.allocate_eq k
    rw [if_neg enough, if_pos reach] at given
    dsimp only at given
    rw [taken] at given
    exact ⟨_, _, given⟩

end

/-- Settles O34: each operation on pages moves them between the free list, the units and the entries, and every step is made of such
operations. -/
theorem pagesConserved : Obligations.PagesConserved := by
  unfold Obligations.PagesConserved
  refine ⟨fun s t => step_keepsPages, fun b _ once onceEntries => ?_⟩
  intro owned ring
  refine ⟨fun k pages b' given => ?_, fun k b' failed => ?_, fun which => ?_, fun s e reason held mem => ?_, ?_⟩
  · obtain ⟨entries, _, tally⟩ := b.allocate_spec k
    have length := b.allocate_length k
    rw [given] at entries tally length
    refine ⟨length pages rfl, ?_, ?_, entries, fun enough => ?_⟩
    · by_contra short
      rw [Bfm.allocate_short (by rw [Bfm.ringPages]; omega)] at given
      cases given
    · rw [List.perm_iff_count]
      intro p
      have := tally p
      rw [Bfm.tally, Bfm.tally, entries] at this
      simp only [Option.getD_some] at this
      simp only [owned, List.count_append]
      omega
    · obtain ⟨g, taken, left⟩ := Bfm.allocate_enough enough
      cases taken.symm.trans given
      exact ⟨rfl, rfl, left⟩
  · have short : b.free.count + b.ringPages < k := by
      by_contra reach
      obtain ⟨pages, b'', given⟩ := Bfm.allocate_reaches once (Nat.le_of_not_lt reach)
      cases given.symm.trans failed
    rw [Bfm.allocate_short short] at failed
    cases failed
    exact ⟨short, rfl⟩
  · rw [List.perm_iff_count]
    intro p
    have := (b.keeps_dropUnits which).tally p
    rw [Bfm.tally, Bfm.tally, (b.keeps_dropUnits which).entries] at this
    simp only [owned, List.count_append]
    omega
  · subst held
    intro b'
    have left := State.abandon_bfm s e reason
    refine ⟨List.perm_iff_count.mpr fun p => ?_, by rw [show b' = _ from left]⟩
    have gone := count_leave onceEntries mem p
    rw [show b' = _ from left]
    simp only [List.count_append, FreeList.count_give]
    omega
  · rw [List.perm_iff_count]
    intro p
    simp only [Bfm.clearAll, FreeList.count_give, List.count_append]
    rfl

end Sys2Proof.Machine

namespace Sys2Proof.Machine

/-! # The essence port (R93, R94) -/

/-! ## The header -/

theorem Entry.hasNoPicture_eq (e : Entry) : e.hasNoPicture = (e.picture == .none) := by
  unfold Entry.hasNoPicture
  cases e.picture <;> rfl

/-- R93 step 4, with the statement's words for an entry without a picture. -/
theorem State.skipOlder_eq (s : State) (n : Serial) :
    s.skipOlder n = (s.bfm.entries.filter (fun x => older x.serial n && x.picture == .none)).foldl (fun s x => s.abandon x .skipped) s := by
  simp only [State.skipOlder, Entry.hasNoPicture_eq]

theorem Entry.hasPicture_iff (e : Entry) : e.hasPicture = true ↔ ∃ p, e.picture = .present p := by
  unfold Entry.hasPicture
  cases e.picture <;> simp

section
variable {s : State} {n : Serial} {length : Nat} {key : Bool}

theorem State.essenceHeader_busy (busy : s.bfm.port ≠ .header) : s.essenceHeader n length key = s := by
  unfold State.essenceHeader
  split
  · rfl
  · rfl
  · exact absurd ‹_› busy

variable (idle : s.bfm.port = .header)
include idle

theorem State.essenceHeader_future (future : newer n s.bfm.taken = true) : s.essenceHeader n length key =
    { s with bfm := { s.bfm with counts := { s.bfm.counts with future := bump16 s.bfm.counts.future }, port := .skip length } } := by
  rw [State.essenceHeader, idle]
  exact if_pos future

variable (known : newer n s.bfm.taken = false)
include known

theorem State.essenceHeader_late (absent : s.bfm.entry n = none) : s.essenceHeader n length key =
    { s with bfm := { s.bfm with counts := { s.bfm.counts with late := bump16 s.bfm.counts.late }, port := .skip length } } := by
  rw [State.essenceHeader, idle]
  dsimp only
  rw [known, absent]
  rfl

variable {e : Entry} (found : s.bfm.entry n = some e)
include found

theorem State.essenceHeader_duplicate (has : e.hasPicture = true) : s.essenceHeader n length key =
    { s with bfm := { s.bfm with
      counts := { s.bfm.counts with duplicate := bump16 s.bfm.counts.duplicate }, port := .skip length } } := by
  rw [State.essenceHeader, idle]
  dsimp only
  rw [known, found]
  exact if_pos has

theorem State.essenceHeader_begins (lacks : ¬ e.hasPicture = true) : s.essenceHeader n length key =
    ((s.skipOlder n).beginPicture e length key).review := by
  rw [State.essenceHeader, idle]
  dsimp only
  rw [known, found]
  exact if_neg lacks

end

/-! The three outcomes of R93 steps 5 and 6. -/

section
variable {s : State} {e : Entry} {length : Nat} {key : Bool}

theorem State.beginPicture_tooLarge (tooLong : 2097152 < length) :
    s.beginPicture e length key = (s.abandon e .tooLarge).skipPicture length := if_pos tooLong

theorem State.beginPicture_starved (fits : length ≤ 2097152) {b : Bfm} (starved : s.bfm.allocate (pagesOf length) = (none, b)) :
    s.beginPicture e length key = (({ s with bfm := b } : State).abandon e .overflow).skipPicture length := by
  rw [State.beginPicture, if_neg (Nat.not_lt.mpr fits), starved]

theorem State.beginPicture_arrives (fits : length ≤ 2097152) {pages : List Nat} {b : Bfm}
    (given : s.bfm.allocate (pagesOf length) = (some pages, b)) : s.beginPicture e length key =
      { s with bfm := { b.modifyEntry e.serial (fun e =>
        { e with picture := .arriving { key := key, length := length, pages := pages } }) with port := .data e.serial 0 length } } := by
  rw [State.beginPicture, if_neg (Nat.not_lt.mpr fits), given]
  rfl

end

/-- Settles O31: the cases of the judgement, in its own order. -/
theorem essenceHeaderJudged : Obligations.EssenceHeaderJudged := by
  unfold Obligations.EssenceHeaderJudged
  intro n lengthLessOne key s works c length skipped counted k
  have becomes {u : State} (judged : s.essenceHeader n length key = u) : Becomes c s u :=
    becomes_act works (f := (·.essenceHeader n length key)) rfl judged
  refine ⟨fun busy => becomes (State.essenceHeader_busy busy), fun idle => ⟨fun future => ?_, fun known => ⟨fun absent => ?_, ?_⟩⟩⟩
  · exact becomes (State.essenceHeader_future idle future)
  · exact becomes (State.essenceHeader_late idle known absent)
  intro e found
  obtain rfl := (find_serial found).2
  refine ⟨fun p present => becomes (State.essenceHeader_duplicate idle known found (e.hasPicture_iff.mpr ⟨p, present⟩)),
    fun lacks => ?_⟩
  intro v
  have begins {u : State} (begun : v.beginPicture e length key = u) : Becomes c s u.review := by
    have lacks : ¬ e.hasPicture = true := fun has => (e.hasPicture_iff.mp has).elim lacks
    exact becomes (by rw [State.essenceHeader_begins idle known found lacks, State.skipOlder_eq, begun])
  exact ⟨fun tooLong => begins (State.beginPicture_tooLarge tooLong), fun fits =>
    ⟨fun b starved => begins (State.beginPicture_starved fits starved),
      fun pages b given => begins (State.beginPicture_arrives fits given)⟩⟩

/-! ## The bytes -/

/-- The address of a byte lies in the page of the list that the byte falls in (R88, R94). -/
theorem pageAddress_within {pages : List Nat} {i : Nat} (within : i < 16384 * pages.length) :
    ∃ page, pages[i / 16384]? = some page ∧ pageAddress pages i = page * 16384 + i % 16384 := by
  have place : i / 16384 < pages.length := by omega
  exact ⟨pages[i / 16384], List.getElem?_eq_getElem place, by rw [pageAddress, pageSize, List.getElem?_eq_getElem place, Option.getD_some]⟩

section
variable {m : Memory} {pages : List Nat} {i : Nat} {bytes : List Byte}

/-- Bytes that fill a list of pages, each once, read back (R94). -/
theorem Memory.fetch_place_pages (h : m.wf = true) (once : pages.Nodup) (inside : ∀ page ∈ pages, page < 16384)
    (fits : i + bytes.length ≤ 16384 * pages.length) : (m.place pages i bytes).fetch pages i bytes.length = bytes := by
  refine Memory.fetch_place h (fun j _ below => ?_) (fun j k _ between below same => ?_)
  · obtain ⟨page, listed, address⟩ := pageAddress_within (pages := pages) (i := j) (by omega)
    have := inside page (List.mem_of_getElem? listed)
    rw [address, memorySize]
    omega
  · obtain ⟨page, listed, address⟩ := pageAddress_within (pages := pages) (i := j) (by omega)
    obtain ⟨page', listed', address'⟩ := pageAddress_within (pages := pages) (i := k) (by omega)
    rw [address, address'] at same
    obtain rfl : page = page' := by omega
    have alike := (List.getElem?_inj (show j / 16384 < pages.length by omega) once).mp (listed.trans listed'.symm)
    omega

/-- Every page outside the list reads as before (R94). -/
theorem Memory.read_place_outside (h : m.wf = true) (fits : i + bytes.length ≤ 16384 * pages.length) {a : Nat}
    (outside : ∀ page ∈ pages, a / 16384 ≠ page) : (m.place pages i bytes).read a = m.read a := by
  refine Memory.read_place_other h fun j _ below same => ?_
  obtain ⟨page, listed, address⟩ := pageAddress_within (pages := pages) (i := j) (by omega)
  refine outside page (List.mem_of_getElem? listed) ?_
  omega

end

/-- Settles O32: the bytes of a picture fill its pages in order. -/
theorem essenceDataPlaced : Obligations.EssenceDataPlaced := by
  unfold Obligations.EssenceDataPlaced
  intro bytes s works _ c
  have becomes {u : State} (taken : s.essenceData bytes = u) : Becomes c s u :=
    becomes_act works (f := (·.essenceData bytes)) rfl taken
  refine ⟨fun idle => ?_, fun remaining skips => ?_, fun n placed remaining e p port found arriving => ?_⟩
  · exact becomes (by rw [State.essenceData, idle])
  · exact becomes (by rw [State.essenceData, skips]; rfl)
  intro u
  have pages : s.bfm.picturePages n = p.pages := by
    rw [Bfm.picturePages, found]
    exact congrArg Picture.pages arriving
  have filled : s.essenceData bytes = s.fillPicture n placed remaining bytes := by rw [State.essenceData, port]
  rw [State.fillPicture, pages, List.length_take] at filled
  refine ⟨fun more => ?_, fun whole => ?_, fun wf once inside fits => ?_⟩
  · rw [Nat.min_eq_right more.le, if_pos more] at filled
    exact becomes filled
  · rw [Nat.min_eq_left whole, if_neg (Nat.lt_irrefl _)] at filled
    exact becomes filled
  · exact ⟨Memory.fetch_place_pages wf once inside fits, fun a => Memory.read_place_outside wf fits⟩

end Sys2Proof.Machine

namespace Sys2Proof.Machine

/-! # Completion and joining (R95, R97, R100, R102, R119, R120) -/

/-! ## The ring rule (R102) -/

/-- The units that leave when the units of a list are discarded one after another, and those that stay. -/
theorem Bfm.foldl_dropUnit_queue {f : Bfm → BfmCounts} : ∀ (gone : List RecUnit) (b : Bfm),
    (gone.foldl (fun b u => { b.dropUnit u.serial with counts := f b }) b).queue =
      b.queue.filter (fun u => !gone.any (fun x => x.serial == u.serial))
  | [], b => by simp
  | x :: gone, b => by
    rw [List.foldl_cons, Bfm.foldl_dropUnit_queue gone]
    change (b.queue.filter (fun u => !(u.serial == x.serial))).filter _ = _
    rw [List.filter_filter]
    refine List.filter_congr fun u _ => ?_
    rw [List.any_cons, Bool.not_or, Bool.and_comm, BEq.comm]

/-- Of units that differ by their serials, the ones with a serial among the first `k` are the first `k`. -/
theorem filter_not_taken {units : List RecUnit} (once : (units.map RecUnit.serial).Nodup) (k : Nat) :
    units.filter (fun u => !(units.take k).any (fun x => x.serial == u.serial)) = units.drop k := by
  rw [← List.take_append_drop k units, List.map_append, List.nodup_append] at once
  obtain ⟨_, _, apart⟩ := once
  conv_lhs => rw [← List.take_append_drop k units, List.filter_append]
  have front : (units.take k).filter (fun u => !(units.take k).any (fun x => x.serial == u.serial)) = [] := by
    simp only [List.filter_eq_nil_iff, Bool.not_eq_true', Bool.not_eq_false, List.any_eq_true, beq_iff_eq]
    exact fun u mem => ⟨u, mem, rfl⟩
  have back : (units.drop k).filter (fun u => !(units.take k).any (fun x => x.serial == u.serial)) = units.drop k := by
    simp only [List.filter_eq_self, Bool.not_eq_true', List.any_eq_false, beq_iff_eq]
    exact fun u mem x taken => apart _ (List.mem_map_of_mem taken) _ (List.mem_map_of_mem mem)
  have taken : (units.take k ++ units.drop k).take k = units.take k := by rw [List.take_append_drop]
  rw [taken, front, back, List.nil_append]

/-- The ring rule discards the oldest of the unheld ring units beyond the depth, and no other unit (R102). -/
theorem Bfm.ringRule_queue {b : Bfm} (once : (b.queue.map RecUnit.serial).Nodup) :
    let ring := b.queue.filter RecUnit.unheldRing
    b.ringRule.queue.filter RecUnit.unheldRing = ring.drop (ring.length - b.depth) ∧
      b.ringRule.queue.filter (fun u => !u.unheldRing) = b.queue.filter (fun u => !u.unheldRing) := by
  intro ring
  have left : b.ringRule.queue = b.queue.filter (fun u => !(ring.take (ring.length - b.depth)).any (fun x => x.serial == u.serial)) :=
    Bfm.foldl_dropUnit_queue (f := fun b => { b.counts with depth := bump16 b.counts.depth }) _ b
  rw [left]
  constructor
  · rw [List.filter_filter, List.filter_congr (fun u _ => Bool.and_comm _ _), ← List.filter_filter]
    exact filter_not_taken (once.sublist (List.filter_sublist.map _)) _
  · rw [List.filter_filter]
    refine List.filter_congr fun u mem => ?_
    suffices stays : u.unheldRing = false → (ring.take (ring.length - b.depth)).any (fun x => x.serial == u.serial) = false by
      cases unheld : u.unheldRing
      · rw [stays unheld]; rfl
      · rfl
    intro held
    rw [List.any_eq_false]
    intro x taken same
    obtain ⟨queued, ring⟩ := List.mem_filter.mp (List.mem_of_mem_take taken)
    obtain rfl := List.inj_on_of_nodup_map once queued mem (eq_of_beq same)
    rw [held] at ring
    cases ring

/-! ## A complete entry -/

section
variable {s : State} {n : Serial}

theorem State.checkComplete_lacks (lacks : ∀ (e : Entry) (p : PictureData), s.bfm.entry n = some e → e.picture ≠ .present p) :
    s.checkComplete n = s := by
  unfold State.checkComplete
  split
  · rfl
  · next e found =>
    split
    · next p present => exact absurd present (lacks e p found)
    · rfl
    · rfl

variable {e : Entry} {p : PictureData} (found : s.bfm.entry n = some e) (present : e.picture = .present p)
include found present

theorem State.checkComplete_present : s.checkComplete n = if e.sound.a.decided && e.sound.b.decided then s.join e p else s := by
  unfold State.checkComplete
  rw [found]
  dsimp only
  rw [present]

end

/-- The entry leaves the table of `b` and joins as a unit (R100). -/
def State.joined (s : State) (b : Bfm) (n : Serial) (u : RecUnit) : State :=
  ({ s with bfm := { b with entries := b.entries.filter (fun x => x.serial != n) } } : State).placeUnit u

section
variable {s : State} {e : Entry} {p : PictureData}

theorem State.join_room (room : s.bfm.queue.length < 1024) : s.join e p = s.joined s.bfm e.serial (e.toUnit p) := if_pos room

theorem State.join_full (full : 1024 ≤ s.bfm.queue.length) {old : RecUnit} (oldest : s.bfm.queue.find? RecUnit.unheldRing = some old) :
    s.join e p = s.joined { s.bfm.dropUnit old.serial with
      counts := { s.bfm.counts with queueLimit := bump16 s.bfm.counts.queueLimit } } e.serial (e.toUnit p) := by
  unfold State.join
  rw [if_neg (Nat.not_lt.mpr full), oldest]
  rfl

theorem State.join_overflow (full : 1024 ≤ s.bfm.queue.length) (none : s.bfm.queue.find? RecUnit.unheldRing = none) :
    s.join e p = s.abandon e .overflow := by
  unfold State.join
  rw [if_neg (Nat.not_lt.mpr full), none]

end

/-- A unit's flags are those of the label lookup, or clear (R95). -/
theorem getD_false_eq_any {α : Type} (o : Option α) (f : α → Bool) : (o.map f).getD false = o.any f := by cases o <;> rfl

theorem Entry.burst_eq (e : Entry) : e.burst = e.label.any HistoryEntry.burst := by
  unfold Entry.burst
  cases e.label <;> rfl

theorem Sound.isPresent_iff (x : Sound) : x.isPresent = true ↔ ∃ d, x = .present d := by cases x <;> simp [Sound.isPresent]

theorem Entry.toUnit_audioAbsent (e : Entry) (p : PictureData) :
    (e.toUnit p).audioAbsent = true ↔ ∀ d, e.sound.a ≠ .present d ∧ e.sound.b ≠ .present d := by
  simp only [Entry.toUnit, Bool.and_eq_true, Bool.not_eq_true', ← Bool.not_eq_true, Sound.isPresent_iff, not_exists, forall_and]

theorem Entry.toUnit_pages {e : Entry} {p : PictureData} (present : e.picture = .present p) : (e.toUnit p).pages = e.pages := by
  rw [Entry.pages, present]
  rfl

/-! ## How a unit joins (R119, R120) -/

section
variable {s : State} {u : RecUnit}

theorem State.placeUnit_ring (ring : s.judgeJoin u = .ring) :
    s.placeUnit u = { s with bfm := ({ s.bfm with queue := s.bfm.queue ++ [u] }).ringRule } := by
  rw [State.placeUnit, ring]

theorem State.placeUnit_discard (discard : s.judgeJoin u = .discard) :
    s.placeUnit u = { s with bfm := { s.bfm with
      free := s.bfm.free.give u.pages, counts := { s.bfm.counts with start := bump16 s.bfm.counts.start } } } := by
  rw [State.placeUnit, discard]

variable {clip : Clip} (opened : s.rcd.clip = some clip)
include opened

theorem State.placeUnit_clip {head : Bool} {period : Option Int} (claims : s.judgeJoin u = .clip head period) :
    s.placeUnit u = { s with
      bfm := { s.bfm with
        queue := s.bfm.queue ++ [{ u with
          membership := .clip clip.sequence, gap := s.bfm.gapPending, progress := clip.owedProgress }]
        gapPending := false }
      rcd := { s.rcd with clip := some { clip with
        head := if head then some u.serial else clip.head
        burstHead := if period.isSome then period else clip.burstHead
        claimed := bump32 clip.claimed } } } := by
  rw [State.placeUnit, claims, opened]

/-- The state takes no unit, or no copy does: the unit is a ring unit. -/
theorem State.judgeJoin_closed
    (closed : (s.rcd.state == .recording || (s.rcd.state == .closing && clip.reaches u.serial)) = false ∨ clip.someWriting = false) :
    s.judgeJoin u = .ring := by
  rw [State.judgeJoin, opened]
  dsimp only
  rcases closed with closed | closed
  · rw [closed]; rfl
  · rw [closed]
    split <;> rfl

variable (takes : (s.rcd.state == .recording || (s.rcd.state == .closing && clip.reaches u.serial)) = true)
  (writing : clip.someWriting = true)
include takes writing

theorem State.judgeJoin_normal (off : s.ftb.interval = none) : s.judgeJoin u =
    if clip.head.isSome then .clip false none else if u.picture.key then .clip true none else .discard := by
  rw [State.judgeJoin, opened]
  dsimp only
  rw [takes, writing, off]
  rfl

theorem State.judgeJoin_interval {iv : Interval} {n : Serial} (on : s.ftb.interval = some iv) (start : clip.start = some n) :
    s.judgeJoin u =
      if !u.burst then .ring
      else if clip.burstHead == some (periodNumber u.serial n iv.period) then .clip false none
      else if clip.newBurst (periodNumber u.serial n iv.period) && u.picture.key then
        .clip clip.head.isNone (some (periodNumber u.serial n iv.period))
      else .ring := by
  rw [State.judgeJoin, opened]
  dsimp only
  rw [takes, writing, on, start]
  rfl

end

theorem Clip.reaches_iff (clip : Clip) (n : Serial) :
    clip.reaches n = true ↔ ∀ last, clip.last = some last → olderOrSame n last = true := by
  unfold Clip.reaches
  cases clip.last <;> simp

theorem Copy.isWriting_eq (copy : Option Copy) : Copy.isWriting copy = copy.any (fun c => c.state == .writing) := by
  cases copy <;> rfl

theorem Clip.newBurst_iff (clip : Clip) (period : Int) :
    clip.newBurst period = true ↔ ∀ h, clip.burstHead = some h → h < period := by
  unfold Clip.newBurst
  cases clip.burstHead <;> simp

/-- Settles O38: each verdict of the Recorder on a joining unit. -/
theorem unitsJoinTheClip : Obligations.UnitsJoinTheClip := by
  unfold Obligations.UnitsJoinTheClip
  intro u clip s opened takes writing someWriting asRing claimed
  have takes_iff : takes ↔ (s.rcd.state == .recording || (s.rcd.state == .closing && clip.reaches u.serial)) = true := by
    simp only [takes, Bool.or_eq_true, Bool.and_eq_true, beq_iff_eq, Clip.reaches_iff]
  have writes (side : Side) : Copy.isWriting (clip.copies.get side) = writing side := Copy.isWriting_eq _
  have someWriting_iff : someWriting ↔ clip.someWriting = true := by
    rw [Clip.someWriting, Bool.or_eq_true, show Copy.isWriting clip.copies.a = _ from writes .a,
      show Copy.isWriting clip.copies.b = _ from writes .b]
  have ring (verdict : s.judgeJoin u = .ring) : s.placeUnit u = asRing := State.placeUnit_ring verdict
  have claims {head : Bool} {period : Option Int} (verdict : s.judgeJoin u = .clip head period) : s.placeUnit u =
      claimed { clip with
        head := if head then some u.serial else clip.head, burstHead := if period.isSome then period else clip.burstHead } := by
    have owed : clip.owedProgress =
        { a := if writing .a then .owed else .none, b := if writing .b then .owed else .none } := by
      rw [← writes, ← writes]
      rfl
    rw [State.placeUnit_clip opened verdict, owed]
    rfl
  refine ⟨fun closed => ring (State.judgeJoin_closed opened ?_), fun open' writes off => ?_, fun iv n open' writes on start => ?_⟩
  · rw [takes_iff, someWriting_iff, Bool.not_eq_true, Bool.not_eq_true] at closed
    exact closed
  · have verdict := State.judgeJoin_normal opened (takes_iff.mp open') (someWriting_iff.mp writes) off
    refine ⟨fun has => claims (verdict.trans (if_pos has)), fun none key => ?_, fun none dull => ?_⟩
    · rw [none, key] at verdict
      exact claims verdict
    · rw [none, dull] at verdict
      exact State.placeUnit_discard verdict
  · intro period begins
    have verdict := State.judgeJoin_interval opened (takes_iff.mp open') (someWriting_iff.mp writes) on start
    rw [show periodNumber u.serial n iv.period = period from rfl] at verdict
    have begins_iff : (clip.newBurst period && u.picture.key) = true ↔ begins := by
      rw [Bool.and_eq_true, Clip.newBurst_iff]
    refine ⟨fun dull => ?_, fun burst same => ?_, fun burst other new => ?_, fun burst other old => ?_⟩
    · rw [dull] at verdict
      exact ring verdict
    all_goals rw [burst, if_neg (by decide)] at verdict
    · exact claims (verdict.trans (if_pos (beq_iff_eq.mpr same)))
    all_goals rw [if_neg (mt beq_iff_eq.mp other)] at verdict
    · exact claims (verdict.trans (if_pos (begins_iff.mpr new)))
    · exact ring (verdict.trans (if_neg (mt begins_iff.mp old)))

/-- Settles O33: a complete entry is the unit it becomes, and the ring rule takes the oldest. -/
theorem completeEntryJoins : Obligations.CompleteEntryJoins := by
  unfold Obligations.CompleteEntryJoins
  refine ⟨fun n s => State.checkComplete_lacks, fun n e p s found present => ⟨fun awaited => ?_, fun decidedA decidedB => ?_⟩,
    fun s u closed => State.placeUnit_ring (by rw [State.judgeJoin, closed]), fun b => Bfm.ringRule_queue⟩
  · rw [State.checkComplete_present found present, if_neg]
    rw [Bool.and_eq_true, Sound.decided_iff, Sound.decided_iff]
    exact fun decided => awaited.elim decided.1 decided.2
  · intro unit joins
    obtain rfl := (find_serial found).2
    have joined : s.checkComplete e.serial = s.join e p := by
      rw [State.checkComplete_present found present, if_pos]
      rw [Bool.and_eq_true, Sound.decided_iff, Sound.decided_iff]
      exact ⟨decidedA, decidedB⟩
    rw [joined]
    refine ⟨⟨rfl, rfl, rfl, rfl, rfl, rfl, rfl, rfl, rfl, rfl, rfl, rfl, rfl, getD_false_eq_any .., getD_false_eq_any ..,
      getD_false_eq_any .., e.burst_eq, Entry.toUnit_pages present, e.toUnit_audioAbsent p⟩,
      fun room => State.join_room room, fun full => ⟨fun old oldest => State.join_full full oldest, State.join_overflow full⟩⟩

end Sys2Proof.Machine

namespace Sys2Proof.Machine

/-! # BFM's requests (R98, R99, R102, R104, R105, R107) -/

/-! ## Their fields -/

/-- A serial reads back where it was written (R194). -/
theorem serialAt_serialBytes (front back : List Byte) (n : Serial) : serialAt (front ++ (serialBytes n ++ back)) front.length = n := by
  rw [serialAt, serialBytes, u32, num_field front back 4 n.toNat n.isLt, BitVec.ofNat_toNat, BitVec.setWidth_eq]

theorem serialBytes_length (n : Serial) : (serialBytes n).length = 4 := beBytes_length 4 n.toNat

theorem code_of_num (x : Byte) (back : List Byte) : BitVec.ofNat 8 (num (x :: back) 0 1) = x := by
  rw [num_head, BitVec.ofNat_toNat, BitVec.setWidth_eq]

/-! ## Attachments (R98) -/

/-- An attachment goes behind every one that its serial is not older than. -/
theorem insertAttachment_split (n : Serial) (data : List Byte) : ∀ l : List (Serial × List Byte),
    ∃ front back, l = front ++ back ∧ (∀ a ∈ front, older n a.1 = false) ∧ (∀ a, back.head? = some a → older n a.1 = true) ∧
      insertAttachment n data l = front ++ (n, data) :: back
  | [] => ⟨[], [], rfl, by simp, by simp, rfl⟩
  | x :: l => by
    unfold insertAttachment
    split
    · next before => exact ⟨[], x :: l, rfl, by simp, by simpa using before, rfl⟩
    · next after =>
      obtain ⟨front, back, rfl, passes, stops, placed⟩ := insertAttachment_split n data l
      exact ⟨x :: front, back, rfl, List.forall_mem_cons.mpr ⟨Bool.eq_false_iff.mpr after, passes⟩, stops, by rw [placed]; rfl⟩

section
variable {tag : Byte} {s : State} {n : Serial} {data : List Byte}

theorem reqAuxAttach_written (n : Serial) (data : List Byte) (s : State) : reqAuxAttach (serialBytes n ++ data) s =
    let held := s.bfm.attachments.any (fun a => a.1 == n)
    let attachments := insertAttachment n data (s.bfm.attachments.filter (fun a => a.1 != n))
    if data.isEmpty || !newer n s.ftb.serial then refuse s .badValue
    else if !held && decide (8 ≤ s.bfm.attachments.length) then refuse s .full
    else answerOk (s.modifyBfm (fun b => { b with attachments := attachments })) (flagByte held ++ u8 attachments.length) := by
  unfold reqAuxAttach
  rw [show serialAt (serialBytes n ++ data) 0 = n from serialAt_serialBytes [] data n,
    show (serialBytes n ++ data).drop 4 = data from List.drop_left' (serialBytes_length n)]

/-- AUX_ATTACH's payload fits its row with up to 1,020 bytes of data. -/
theorem auxAttach_fits (most : data.length ≤ 1020) :
    (rowOfReq .auxAttach).least ≤ (serialBytes n ++ data).length ∧ (serialBytes n ++ data).length ≤ (rowOfReq .auxAttach).greatest := by
  rw [List.length_append, serialBytes_length]
  exact ⟨Nat.le_add_right 4 _, by show 4 + data.length ≤ 1024; omega⟩

theorem answers_auxAttach (ready : s.ready) (some' : data ≠ []) (most : data.length ≤ 1020) (new : newer n s.ftb.serial = true)
    (place : s.bfm.attachments.any (fun a => a.1 == n) = true ∨ s.bfm.attachments.length < 8) :
    let held := s.bfm.attachments.any (fun a => a.1 == n)
    let others := s.bfm.attachments.filter (fun a => a.1 != n)
    ∃ front back, others = front ++ back ∧ (∀ a ∈ front, older n a.1 = false) ∧
      (∀ a, back.head? = some a → older n a.1 = true) ∧
      Answers (.auxAttach tag (serialBytes n ++ data)) .auxAttach tag s
        { s with bfm := { s.bfm with attachments := front ++ (n, data) :: back } } .ok (flagByte held ++ u8 (others.length + 1)) := by
  intro held others
  obtain ⟨front, back, whole, passes, stops, placed⟩ := insertAttachment_split n data others
  refine ⟨front, back, whole, passes, stops, answers_ok ready rfl (auxAttach_fits most) rfl ?_ rfl⟩
  have room : ¬ (!held && decide (8 ≤ s.bfm.attachments.length)) = true := by
    simp only [Bool.and_eq_true, Bool.not_eq_true', decide_eq_true_eq, not_and, Nat.not_le]
    exact fun absent => place.resolve_left (by simp only [held] at absent; simp [absent])
  have count : (front ++ (n, data) :: back).length = others.length + 1 := by
    rw [whole, List.length_append, List.length_append, List.length_cons]
    omega
  refine (reqAuxAttach_written n data s).trans ?_
  dsimp only
  rw [placed, if_neg (by simp [some', new]), if_neg room, count]
  rfl

theorem auxAttach_refused (ready : s.ready) :
    (∀ n : Serial, Answers (.auxAttach tag (serialBytes n)) .auxAttach tag s s .badValue []) ∧
    (∀ (n : Serial) (data : List Byte), data ≠ [] → data.length ≤ 1020 →
      let attach := Answers (.auxAttach tag (serialBytes n ++ data)) .auxAttach tag s s
      (newer n s.ftb.serial = false → attach .badValue []) ∧
      (newer n s.ftb.serial = true → s.bfm.attachments.any (fun a => a.1 == n) = false → 8 ≤ s.bfm.attachments.length →
        attach .full [])) := by
  refine ⟨fun n => ?_, fun n data some' most => ?_⟩
  · rw [← List.append_nil (serialBytes n)]
    exact answers_refused ready rfl (auxAttach_fits (Nat.zero_le _)) rfl ((reqAuxAttach_written n [] s).trans rfl)
  · have refuses {status : Status} (refused : reqAuxAttach (serialBytes n ++ data) s = refuse s status) :=
      answers_refused (c := .auxAttach tag _) (tag := tag) ready rfl (auxAttach_fits most) rfl refused
    rw [reqAuxAttach_written] at refuses
    refine ⟨fun old => refuses (if_pos (by simp [old])), fun new absent full => refuses ?_⟩
    dsimp only
    rw [if_neg (by simp [some', new]), absent, if_pos (by simpa using full)]

end

/-! ## Marks (R99) -/

section
variable {tag : Byte} {s : State}

theorem answers_markFrame_next (ready : s.ready) (code : Byte) {rest : List Byte} (four : rest.length = 4) :
    Answers (.markFrame tag ([code, 1] ++ rest)) .markFrame tag s { s with bfm := { s.bfm with nextMark := some code } } .ok
      (presence 4 none ++ flagByte s.bfm.nextMark.isSome) := by
  have next : flagAt ([code, 1] ++ rest) 1 = some true := flagAt_of_num (b := true) (num_byte [code] 1 rest)
  have fits : ([code, 1] ++ rest).length = 6 := by rw [List.length_append, four]; rfl
  refine answers_ok ready rfl ⟨fits.ge, fits.le⟩ rfl ?_ rfl
  rw [takeRequest, reqMarkFrame, next, List.cons_append, code_of_num]
  rfl

theorem markFrame_serial (code flag : Byte) (n : Serial) : serialAt ([code, flag] ++ serialBytes n) 2 = n := by
  have read := serialAt_serialBytes [code, flag] [] n
  rwa [List.append_nil] at read

theorem markFrame_length (code flag : Byte) (n : Serial) : ([code, flag] ++ serialBytes n).length = 6 := by
  rw [List.length_append, serialBytes_length]
  rfl

theorem answers_markFrame_entry (ready : s.ready) (code : Byte) {n : Serial} {e : Entry} (found : s.bfm.entry n = some e) :
    Answers (.markFrame tag ([code, 0] ++ serialBytes n)) .markFrame tag s
      { s with bfm := s.bfm.modifyEntry n (fun e => { e with mark := some code }) } .ok
      (presence 4 (some (serialBytes n)) ++ flagByte e.mark.isSome) := by
  have older : flagAt ([code, 0] ++ serialBytes n) 1 = some false := flagAt_of_num (b := false) (num_byte [code] 0 _)
  refine answers_ok ready rfl ⟨(markFrame_length code 0 n).ge, (markFrame_length code 0 n).le⟩ rfl ?_ rfl
  rw [takeRequest, reqMarkFrame, older]
  dsimp only
  rw [markFrame_serial, found, List.cons_append, code_of_num]
  rfl

theorem markFrame_refused (ready : s.ready) {code flag : Byte} {n : Serial}
    (bad : 1 < flag.toNat ∨ (flag = 0 ∧ s.bfm.entry n = none)) :
    Answers (.markFrame tag ([code, flag] ++ serialBytes n)) .markFrame tag s s .badValue [] := by
  refine answers_refused ready rfl ⟨(markFrame_length code flag n).ge, (markFrame_length code flag n).le⟩ rfl ?_
  have read : num ([code, flag] ++ serialBytes n) 1 1 = flag.toNat := num_byte [code] flag _
  rcases bad with above | ⟨rfl, absent⟩
  · rw [takeRequest, reqMarkFrame, flagAt_none (by rwa [read])]
  · rw [takeRequest, reqMarkFrame, flagAt_of_num (b := false) read]
    dsimp only
    rw [markFrame_serial, absent]

end

/-! ## The pre-record depth (R102) -/

section
variable {tag : Byte} {s : State} {d : Nat}

theorem num_u16 {x : Nat} (fits : x ≤ 65535) : num (u16 x) 0 2 = x := by
  have read := num_field [] [] 2 x (by omega)
  rwa [List.append_nil] at read

/-- PREREC_CONFIG with a depth in range is judged by the Recorder's state and the timecode mode. -/
theorem reqPrerecConfig_eq (most : d ≤ 900) : reqPrerecConfig (u16 d) s =
    if s.rcd.state ≠ .standing ∨ (0 < d ∧ s.ftb.mode = .recRun) then refuse s .badState
    else answerOk { s with bfm := ({ s.bfm with depth := d }).ringRule }
      (u16 d ++ u16 (s.bfm.queue.length - ({ s.bfm with depth := d } : Bfm).ringRule.queue.length)) := by
  rw [reqPrerecConfig, rangeAt_of_num (num_u16 (by omega)) (Nat.zero_le d) most]
  exact if_congr (by simp) rfl rfl

theorem answers_prerecConfig (ready : s.ready) (most : d ≤ 900) (standing : s.rcd.state = .standing)
    (free : d = 0 ∨ s.ftb.mode = .freeRun) :
    let b := ({ s.bfm with depth := d }).ringRule
    Answers (.prerecConfig tag (u16 d)) .prerecConfig tag s { s with bfm := b } .ok
      (u16 d ++ u16 (s.bfm.queue.length - b.queue.length)) := by
  refine answers_ok ready rfl ⟨le_rfl, le_rfl⟩ rfl ((reqPrerecConfig_eq most).trans (if_neg ?_)) rfl
  rintro (busy | ⟨some', recRun⟩)
  · exact busy standing
  · rcases free with rfl | freeRun
    · exact Nat.lt_irrefl 0 some'
    · cases freeRun.symm.trans recRun

theorem prerecConfig_refused (ready : s.ready) (fits : d ≤ 65535) :
    let config := Answers (.prerecConfig tag (u16 d)) .prerecConfig tag s s
    (900 < d → config .badValue []) ∧
      (d ≤ 900 → s.rcd.state ≠ .standing ∨ (0 < d ∧ s.ftb.mode = .recRun) → config .badState []) := by
  have refuses {status : Status} (refused : reqPrerecConfig (u16 d) s = refuse s status) :=
    answers_refused (c := .prerecConfig tag (u16 d)) (tag := tag) (req := .prerecConfig) ready rfl ⟨le_rfl, le_rfl⟩ rfl refused
  refine ⟨fun above => refuses ?_, fun most bad => refuses ((reqPrerecConfig_eq most).trans (if_pos bad))⟩
  rw [reqPrerecConfig, rangeAt_none (num_u16 fits) (by omega)]

end

/-! ## Hold windows (R104, R105) -/

theorem RecUnit.ringIn_eq (u : RecUnit) (first' last : Serial) :
    u.ringIn first' last = (u.membership == .ring && !older u.serial first' && !newer u.serial last) := rfl

/-- The units that a hold range marks for the time before are unheld ring units (R104). -/
theorem filter_ringIn_unheld (units : List RecUnit) (first' last : Serial) :
    (units.filter (fun u => u.ringIn first' last)).filter RecUnit.unheldRing =
      units.filter (fun u => u.ringIn first' last && u.holds.isEmpty) := by
  rw [List.filter_filter]
  refine List.filter_congr fun u _ => ?_
  rw [RecUnit.ringIn_eq, RecUnit.unheldRing]
  cases u.membership == .ring <;> simp [Bool.and_comm]

/-- The window asked for is not valid. -/
theorem window_invalid {b : Bfm} {w : Nat} : (b.windows[w]?).join.isNone = true ↔ ∀ x, b.windows[w]? ≠ some (some x) := by
  rcases b.windows[w]? with _ | _ | x <;> simp

theorem Bfm.freeWindow_none {b : Bfm} (taken : ∀ w, w < 4 → ∃ x, b.windows[w]? = some (some x)) : b.freeWindow = none := by
  rw [Bfm.freeWindow, List.find?_eq_none]
  intro w listed invalid
  obtain ⟨x, valid⟩ := taken w (List.mem_range.mp listed)
  exact window_invalid.mp invalid x valid

/-- The lowest invalid window is the one with every window below it valid (R104). -/
theorem Bfm.freeWindow_lowest {b : Bfm} {w : Nat} (isWindow : w < 4) (invalid : b.windows[w]? = some none)
    (below : ∀ i, i < w → ∃ x, b.windows[i]? = some (some x)) : b.freeWindow = some w := by
  have range : List.range 4 = List.range w ++ w :: (List.range (3 - w)).map (fun i => w + 1 + i) := by
    interval_cases w <;> rfl
  rw [Bfm.freeWindow, range, List.find?_append, List.find?_eq_none.mpr, Option.none_or, List.find?_cons_of_pos]
  · rw [invalid]; rfl
  · intro i listed free
    obtain ⟨x, valid⟩ := below i (List.mem_range.mp listed)
    exact window_invalid.mp free x valid

theorem Bfm.holdBad_iff (b : Bfm) (first' last : Serial) : b.holdBad first' last = true ↔
    b.queue = [] ∨ newer first' last = true ∨ (∃ tail, b.queue.getLast? = some tail ∧ newer last tail.serial = true) ∨
      b.queue.filter (fun u => u.ringIn first' last) = [] := by
  unfold Bfm.holdBad
  cases found : b.queue.getLast? with
  | none => simpa using .inl (List.getLast?_eq_none_iff.mp found)
  | some tail =>
    have some' : b.queue ≠ [] := fun empty => by rw [empty] at found; cases found
    have inside : (!b.queue.any (fun u => u.ringIn first' last)) = true ↔ b.queue.filter (fun u => u.ringIn first' last) = [] := by
      rw [Bool.not_eq_true', List.any_eq_false, List.filter_eq_nil_iff]
    simp only [Bool.or_eq_true, inside, some', Option.some.injEq, exists_eq_left', false_or, or_assoc]

section
variable {tag : Byte} {s : State} {first' last : Serial}

theorem num_u8_zero {x : Nat} (fits : x ≤ 255) : num (u8 x) 0 1 = x := by
  have read := num_u8 fits [] []
  rwa [List.append_nil] at read

/-- What HOLD_SET answers when its range is good and `w` is the lowest invalid window (R104). -/
def State.judgeHold (s : State) (w : Nat) (first' last : Serial) : State × Answer :=
  let units := s.bfm.queue.filter (fun u => u.ringIn first' last)
  if 12288 < s.bfm.heldPages + pagesIn (units.filter RecUnit.unheldRing) then refuse s .full
  else answerOk { s with bfm := s.bfm.holdSet w first' last }
    (u8 w ++ u16 units.length ++ u16 (pagesIn units) ++ u16 (s.bfm.holdSet w first' last).heldPages)

/-- HOLD_SET reads its two serials, and is judged in the order of R104. -/
theorem reqHoldSet_cases (first' last : Serial) (s : State) :
    (s.bfm.holdBad first' last = true → reqHoldSet (serialBytes first' ++ serialBytes last) s = refuse s .badValue) ∧
    (s.bfm.holdBad first' last = false →
      (s.bfm.freeWindow = none → reqHoldSet (serialBytes first' ++ serialBytes last) s = refuse s .full) ∧
      ∀ w, s.bfm.freeWindow = some w →
        reqHoldSet (serialBytes first' ++ serialBytes last) s = s.judgeHold w first' last) := by
  have front : serialAt (serialBytes first' ++ serialBytes last) 0 = first' := serialAt_serialBytes [] _ first'
  have back := serialAt_serialBytes (serialBytes first') [] last
  rw [serialBytes_length, List.append_nil] at back
  unfold reqHoldSet
  rw [front, back]
  refine ⟨fun bad => if_pos bad, fun good => ⟨fun full => ?_, fun w free => ?_⟩⟩
  · dsimp only
    rw [good, full]
    rfl
  · dsimp only
    rw [good, free]
    rfl

theorem holdSet_fits : (rowOfReq .holdSet).least ≤ (serialBytes first' ++ serialBytes last).length ∧
    (serialBytes first' ++ serialBytes last).length ≤ (rowOfReq .holdSet).greatest := by
  rw [List.length_append, serialBytes_length, serialBytes_length]
  exact ⟨le_rfl, le_rfl⟩

theorem holdSet_refused (ready : s.ready) :
    let inside := fun (u : RecUnit) => u.membership == .ring && !older u.serial first' && !newer u.serial last
    let fresh := (s.bfm.queue.filter (fun u => inside u && u.holds.isEmpty)).map (fun u => u.pages.length)
    let set' := Answers (.holdSet tag (serialBytes first' ++ serialBytes last)) .holdSet tag s s
    let bad := s.bfm.queue = [] ∨ newer first' last = true ∨
      (∃ tail, s.bfm.queue.getLast? = some tail ∧ newer last tail.serial = true) ∨ s.bfm.queue.filter inside = []
    (bad → set' .badValue []) ∧
      (¬ bad → (∀ w, w < 4 → ∃ x, s.bfm.windows[w]? = some (some x)) ∨ 12288 < s.bfm.heldPages + fresh.sum → set' .full []) := by
  intro inside fresh set' bad
  have bad_iff : s.bfm.holdBad first' last = true ↔ bad := s.bfm.holdBad_iff first' last
  have refuses {status : Status} (refused : reqHoldSet (serialBytes first' ++ serialBytes last) s = refuse s status) :
      Answers (.holdSet tag (serialBytes first' ++ serialBytes last)) .holdSet tag s s status [] :=
    answers_refused ready rfl holdSet_fits rfl refused
  obtain ⟨refused, judged⟩ := reqHoldSet_cases first' last s
  refine ⟨fun is => refuses (refused (bad_iff.mpr is)), fun good crowded => ?_⟩
  obtain ⟨full, taken⟩ := judged (Bool.eq_false_iff.mpr (mt bad_iff.mp good))
  cases window : s.bfm.freeWindow with
  | none => exact refuses (full window)
  | some w =>
    refine refuses ((taken w window).trans (if_pos ?_))
    rw [filter_ringIn_unheld]
    refine crowded.resolve_left fun valid => ?_
    cases window.symm.trans (Bfm.freeWindow_none valid)

theorem answers_holdSet (ready : s.ready) {tail : RecUnit} {w : Nat} (last' : s.bfm.queue.getLast? = some tail)
    (ordered : newer first' last = false) (within : newer last tail.serial = false) (isWindow : w < 4)
    (invalid : s.bfm.windows[w]? = some none) (below : ∀ i, i < w → ∃ x, s.bfm.windows[i]? = some (some x)) :
    let units := s.bfm.queue.filter (fun u => u.ringIn first' last)
    units ≠ [] → s.bfm.heldPages + pagesIn (units.filter (fun u => u.holds.isEmpty)) ≤ 12288 →
    Answers (.holdSet tag (serialBytes first' ++ serialBytes last)) .holdSet tag s
      { s with bfm := s.bfm.holdSet w first' last } .ok
      (u8 w ++ u16 units.length ++ u16 (pagesIn units) ++ u16 (s.bfm.holdSet w first' last).heldPages) := by
  intro units some' fits
  have good : s.bfm.holdBad first' last = false := by
    rw [Bool.eq_false_iff, Ne, Bfm.holdBad_iff]
    rintro (empty | unordered | ⟨x, isLast, beyond⟩ | nothing)
    · rw [empty] at last'; cases last'
    · rw [ordered] at unordered; cases unordered
    · cases last'.symm.trans isLast
      rw [within] at beyond; cases beyond
    · exact some' nothing
  have taken := ((reqHoldSet_cases first' last s).2 good).2 w (Bfm.freeWindow_lowest isWindow invalid below)
  refine answers_ok ready rfl holdSet_fits rfl (taken.trans (if_neg ?_)) rfl
  rw [filter_ringIn_unheld, Nat.not_lt]
  rw [List.filter_filter, List.filter_congr (fun u _ => Bool.and_comm _ _)] at fits
  exact fits

end

section
variable {tag : Byte} {s : State} {w : Nat}

theorem windowAt_good (isWindow : w < 4) : rangeAt (u8 w) 0 1 0 3 = some w :=
  rangeAt_of_num (num_u8_zero (by omega)) (Nat.zero_le w) (by omega)

theorem windowAt_bad (fits : w ≤ 255) (above : 3 < w) : rangeAt (u8 w) 0 1 0 3 = none :=
  rangeAt_none (num_u8_zero fits) (by omega)

/-- HOLD_CLEAR of a window of the four (R105). -/
theorem reqHoldClear_eq (isWindow : w < 4) : reqHoldClear (u8 w) s =
    if (s.bfm.heldBy w).any (fun u => u.membership == .retain) then refuse s .busy
    else if (s.bfm.windows[w]?).join.isNone then answerOk s (flagByte true ++ u16 s.bfm.heldPages)
    else answerOk { s with bfm := s.bfm.clearWindow w } (flagByte false ++ u16 (s.bfm.clearWindow w).heldPages) := by
  rw [reqHoldClear, windowAt_good isWindow]

theorem holdClear_refused (ready : s.ready) (fits : w ≤ 255) :
    let clear := Answers (.holdClear tag (u8 w)) .holdClear tag s s
    (3 < w → clear .badValue []) ∧
      (w ≤ 3 → (∃ u ∈ s.bfm.queue.filter (fun u => u.holds.contains w), u.membership = .retain) → clear .busy []) := by
  have refuses {status : Status} (refused : reqHoldClear (u8 w) s = refuse s status) :
      Answers (.holdClear tag (u8 w)) .holdClear tag s s status [] := answers_refused ready rfl ⟨le_rfl, le_rfl⟩ rfl refused
  refine ⟨fun above => refuses (by rw [reqHoldClear, windowAt_bad fits above]), fun isWindow retained => ?_⟩
  refine refuses ((reqHoldClear_eq (by omega)).trans (if_pos ?_))
  obtain ⟨u, held, retain⟩ := retained
  exact List.any_eq_true.mpr ⟨u, held, beq_iff_eq.mpr retain⟩

theorem answers_holdClear (ready : s.ready) (isWindow : w < 4)
    (kept : ∀ u ∈ s.bfm.queue, w ∈ u.holds → u.membership ≠ .retain) :
    ((∀ x, s.bfm.windows[w]? ≠ some (some x)) →
      Answers (.holdClear tag (u8 w)) .holdClear tag s s .ok (flagByte true ++ u16 s.bfm.heldPages)) ∧
    ∀ x, s.bfm.windows[w]? = some (some x) →
      let b := { s.bfm with
        queue := s.bfm.queue.map (fun u => { u with holds := u.holds.filter (fun i => i != w) })
        windows := s.bfm.windows.set w none }
      Answers (.holdClear tag (u8 w)) .holdClear tag s { s with bfm := b } .ok (flagByte false ++ u16 b.heldPages) := by
  have idle : ¬ (s.bfm.heldBy w).any (fun u => u.membership == .retain) = true := by
    rw [List.any_eq_true]
    rintro ⟨u, held, retain⟩
    obtain ⟨queued, marked⟩ := List.mem_filter.mp held
    exact kept u queued (List.contains_iff_mem.mp marked) (beq_iff_eq.mp retain)
  have taken := reqHoldClear_eq (s := s) isWindow
  rw [if_neg idle] at taken
  refine ⟨fun invalid => ?_, fun x valid => ?_⟩
  · exact answers_ok ready rfl ⟨le_rfl, le_rfl⟩ rfl (taken.trans (if_pos (window_invalid.mpr invalid))) rfl
  · refine answers_ok ready rfl ⟨le_rfl, le_rfl⟩ rfl (taken.trans (if_neg fun invalid => ?_)) rfl
    exact window_invalid.mp invalid x valid

end

/-! ## Retention (R107, R124) -/

section
variable {tag : Byte} {s : State} {w : Nat}

/-- A window that may be retained: one of the four, valid, with a key unit. -/
theorem reqHoldRetain_bad (fits : w ≤ 255)
    (bad : ¬ (w < 4 ∧ (∃ x, s.bfm.windows[w]? = some (some x)) ∧ ∃ u ∈ s.bfm.heldBy w, u.picture.key = true)) :
    reqHoldRetain (u8 w) s = refuse s .badValue := by
  by_cases isWindow : w < 4
  · rw [reqHoldRetain, windowAt_good isWindow]
    dsimp only
    split
    · next x head valid found =>
      refine absurd ⟨isWindow, ⟨x, Option.join_eq_some_iff.mp valid⟩, head, List.mem_of_find?_eq_some found, ?_⟩ bad
      exact List.find?_some (p := fun u : RecUnit => u.picture.key) found
    · rfl
  · rw [reqHoldRetain, windowAt_bad fits (by omega)]

/-- A good window is judged by the Recorder and then by the primary slot. -/
theorem reqHoldRetain_good (isWindow : w < 4) {x : HoldWindow} (valid : s.bfm.windows[w]? = some (some x)) {head : RecUnit}
    (found : (s.bfm.heldBy w).find? (fun u => u.picture.key) = some head) :
    (s.rcd.state ≠ .standing → reqHoldRetain (u8 w) s = refuse s .busy) ∧
    (s.rcd.state = .standing →
      ((s.slot s.rcd.primary).state = .full → reqHoldRetain (u8 w) s = refuse s .full) ∧
      ((s.slot s.rcd.primary).state ≠ .ready → (s.slot s.rcd.primary).state ≠ .full → reqHoldRetain (u8 w) s = refuse s .noCard) ∧
      ((s.slot s.rcd.primary).state = .ready → reqHoldRetain (u8 w) s =
        answerOk (s.takeRetain w x head.serial) ((s.takeRetain w x head.serial).retainReply head.serial))) := by
  have joined : (s.bfm.windows[w]?).join = some x := Option.join_eq_some_iff.mpr valid
  rw [reqHoldRetain, windowAt_good isWindow]
  dsimp only
  rw [joined, found]
  dsimp only
  refine ⟨fun busy => if_pos (bne_iff_ne.mpr busy), fun standing => ?_⟩
  rw [if_neg (by simp [standing])]
  refine ⟨fun full => ?_, fun unready some' => ?_, fun ready => ?_⟩
  · rw [full]
  · split
    · next ready => exact absurd ready unready
    · next full => exact absurd full some'
    · rfl
  · rw [ready]

theorem holdRetain_refused (ready : s.ready) (fits : w ≤ 255) :
    let retain := Answers (.holdRetain tag (u8 w)) .holdRetain tag s s
    let good := w < 4 ∧ (∃ x, s.bfm.windows[w]? = some (some x)) ∧
      ∃ u ∈ s.bfm.queue.filter (fun u => u.holds.contains w), u.picture.key = true
    let primary := (s.slot s.rcd.primary).state
    (¬ good → retain .badValue []) ∧ (good → s.rcd.state ≠ .standing → retain .busy []) ∧
      (good → s.rcd.state = .standing →
        (primary = .full → retain .full []) ∧ (primary ≠ .ready → primary ≠ .full → retain .noCard [])) := by
  intro retain good primary
  have refuses {status : Status} (refused : reqHoldRetain (u8 w) s = refuse s status) :
      Answers (.holdRetain tag (u8 w)) .holdRetain tag s s status [] := answers_refused ready rfl ⟨le_rfl, le_rfl⟩ rfl refused
  have head : good → ∃ head, (s.bfm.heldBy w).find? (fun u => u.picture.key) = some head := by
    rintro ⟨_, _, u, held, key⟩
    exact Option.isSome_iff_exists.mp (List.find?_isSome.mpr ⟨u, held, key⟩)
  refine ⟨fun bad => refuses (reqHoldRetain_bad fits bad), fun is busy => ?_, fun is standing => ?_⟩
  all_goals
    obtain ⟨unit, found⟩ := head is
    obtain ⟨isWindow, ⟨x, valid⟩, _⟩ := is
    obtain ⟨whenBusy, whenStanding⟩ := reqHoldRetain_good isWindow valid found
  · exact refuses (whenBusy busy)
  · obtain ⟨full, noCard, _⟩ := whenStanding standing
    exact ⟨fun is => refuses (full is), fun unready some' => refuses (noCard unready some')⟩

/-- Opening a copy for a clip keeps the clip record (R117). -/
theorem State.openFor_clip {u : State} {clip : Clip} (begun : u.rcd.clip = some clip) (side : Side) (flags : CopyFlags)
    (continues : Option CopyRef) : ∃ clip, (u.openFor side flags continues).rcd.clip = some clip := by
  unfold State.openFor
  rw [State.modifyClip_rcd, (CardsOnly.openCopy u side flags continues).rcd, begun]
  exact ⟨_, rfl⟩

theorem State.openFor_bfm (u : State) (side : Side) (flags : CopyFlags) (continues : Option CopyRef) :
    (u.openFor side flags continues).bfm = u.bfm :=
  (CardsOnly.openCopy u side flags continues).bfm

/-- Closing a copy keeps the clip record (R118). -/
theorem State.closeCopy_clip {u : State} {clip : Clip} (begun : u.rcd.clip = some clip) (side : Side) (last : LastUnit) :
    ∃ clip, (u.closeCopy side last).rcd.clip = some clip := by
  unfold State.closeCopy
  rw [(CardsOnly.nameLast _ side last).rcd, State.modifyClip_rcd, begun]
  exact ⟨_, rfl⟩

/-- A retention that is taken leaves a clip record (R124). -/
theorem State.takeRetain_clip (s : State) (w : Nat) (x : HoldWindow) (head : Serial) :
    ∃ clip, (s.takeRetain w x head).rcd.clip = some clip := by
  unfold State.takeRetain
  extract_lets primary opened b kept retained clipped reported
  obtain ⟨clip, begun⟩ : ∃ clip, opened.rcd.clip = some clip := State.openFor_clip (u := s.beginClip .retained .retaining none) rfl ..
  exact State.closeCopy_clip (u := reported) (congrArg (Option.map _) begun) primary _

theorem State.retainReply_eq {u : State} {clip : Clip} (begun : u.rcd.clip = some clip) (head : Serial) :
    u.retainReply head = u16 clip.sequence ++ u16 (clip.copyNumber clip.primary) ++ serialBytes head ++
      u16 (u.bfm.queue.filter (fun u => u.membership == .retain)).length := by
  rw [State.retainReply, begun]

theorem answers_holdRetain (ready : s.ready) (isWindow : w < 4) {x : HoldWindow} (valid : s.bfm.windows[w]? = some (some x))
    {head : RecUnit} (found : (s.bfm.heldBy w).find? (fun u => u.picture.key) = some head) (standing : s.rcd.state = .standing)
    (primary : (s.slot s.rcd.primary).state = .ready) :
    ∃ clip, (s.takeRetain w x head.serial).rcd.clip = some clip ∧
      Answers (.holdRetain tag (u8 w)) .holdRetain tag s (s.takeRetain w x head.serial) .ok
        (u16 clip.sequence ++ u16 (clip.copyNumber clip.primary) ++ serialBytes head.serial ++
          u16 ((s.takeRetain w x head.serial).bfm.queue.filter (fun u => u.membership == .retain)).length) := by
  obtain ⟨clip, begun⟩ := s.takeRetain_clip w x head.serial
  obtain ⟨_, judged⟩ := reqHoldRetain_good isWindow valid found
  obtain ⟨_, _, taken⟩ := judged standing
  refine ⟨clip, begun, answers_ok ready rfl ⟨le_rfl, le_rfl⟩ rfl ?_ (State.Keeps.refl s).takeRetain.inbound⟩
  exact (taken primary).trans (congrArg _ (State.retainReply_eq begun head.serial))

end

/-- Settles O35: what each request reads, what it is refused for, and what it sets. -/
theorem bufferRequestsTaken : Obligations.BufferRequestsTaken := by
  unfold Obligations.BufferRequestsTaken
  refine ⟨fun tag s ready => ⟨fun n data => answers_auxAttach ready, fun code rest => answers_markFrame_next ready code,
      fun code n e => answers_markFrame_entry ready code, fun d => answers_prerecConfig ready⟩,
    fun tag s ready => ?_, fun tag s ready => ⟨?_, ?_, ?_⟩⟩
  · obtain ⟨noData, refused⟩ := auxAttach_refused (tag := tag) ready
    refine ⟨noData, refused, fun code flag n => markFrame_refused ready, fun d => prerecConfig_refused ready,
      fun first' last => holdSet_refused ready, fun w fits => ?_⟩
    obtain ⟨outside, busy⟩ := holdClear_refused (tag := tag) ready fits
    exact ⟨outside, busy, holdRetain_refused ready fits⟩
  · intro first' last tail w last' ordered within isWindow invalid below
    exact answers_holdSet ready last' ordered within isWindow invalid below
  · exact fun w => answers_holdClear ready
  · intro w x head isWindow valid found standing primary
    have answers := answers_holdRetain (tag := tag) ready isWindow valid found standing primary
    unfold State.takeRetain at answers
    dsimp only at answers
    rw [State.openFor_bfm] at answers
    exact answers

end Sys2Proof.Machine

namespace Sys2Proof.Machine

/-! ## A clip's start: the copies and the head (R106, R145)

A copy that has just been opened gives its writer no work, so the writer only fills places of the write queue with the CATALOGUE
commands that it owes. -/

@[simp] theorem State.setSlot_setSlot (s : State) (side : Side) (c d : CardSlot) :
    (s.setSlot side c).setSlot side d = s.setSlot side d := by
  cases side <;> rfl

/-- Nothing of a copy is in hand, ready or owed, and its last unit is not named: it waits for its next unit (R146). -/
structure WriterCopy.Waits (copy : WriterCopy) : Prop where
  ready : copy.ready = none
  rest : copy.rest = none
  stage : copy.stage = .writing
  last : copy.last = .unnamed
  owedIndex : copy.owedIndex = []

section
variable {s : State} {side : Side} {c : CardSlot} {copy : WriterCopy} {p : CatPurpose} {rest : List CatPurpose}

theorem State.writerWork_waits (held : (s.slot side).copy = some copy) (waits : copy.Waits) : s.writerWork side = none := by
  unfold State.writerWork
  dsimp only
  rw [held]
  dsimp only
  rw [waits.ready, waits.rest, waits.stage]
  simp [WriterCopy.lastReached, waits.last]

/-- The CATALOGUE command that a purpose becomes when it takes a place of the queue (R141). -/
def CardSlot.catCommand (c : CardSlot) (p : CatPurpose) : CardCmd :=
  { id := c.nextId, kind := .catalogue p, first := p.sector, sectors := 1, depends := c.catDepends p, data := c.image p }

/-- The command has joined the queue, and the rest is owed still. -/
def CardSlot.queueCat (c : CardSlot) (p : CatPurpose) (rest : List CatPurpose) : CardSlot :=
  { c with owed := rest, queue := c.queue ++ [c.catCommand p], nextId := c.nextId + 1 }

theorem CardSlot.fillPlace_crowded (crowded : 8 ≤ c.queue.length) : c.fillPlace = none := by
  unfold CardSlot.fillPlace CardSlot.hasPlace
  rw [decide_eq_false (by omega), if_pos (by rfl)]

theorem CardSlot.fillPlace_owed (place : c.queue.length < 8) (owes : c.owed = p :: rest) :
    c.fillPlace = some (c.queueCat p rest) := by
  unfold CardSlot.fillPlace CardSlot.hasPlace
  rw [decide_eq_true place, if_neg (by decide), owes]
  rfl

theorem CardSlot.fillPlace_waits (held : c.copy = some copy) (waits : copy.Waits) (owes : c.owed = []) : c.fillPlace = none := by
  unfold CardSlot.fillPlace
  split
  · rfl
  · rw [owes, held]
    dsimp only
    rw [WriterCopy.indexOwed, waits.owedIndex, waits.ready]

theorem CardSlot.catDepends_waits (held : c.copy = some copy) (waits : copy.Waits) : c.catDepends p = [] := by
  unfold CardSlot.catDepends
  rw [held]
  simp [waits.stage]

/-- `c'` is `c` after the commands joined the queue, made of what the writer owed, in that order (R141). -/
structure CardSlot.Fills (c : CardSlot) (commands : List CardCmd) (c' : CardSlot) : Prop where
  slot : c' = { c with
    owed := c.owed.drop commands.length, queue := c.queue ++ commands, nextId := c.nextId + commands.length }
  kinds : commands.map CardCmd.kind = (c.owed.take commands.length).map CardCmdKind.catalogue
  forms : ∀ x ∈ commands, x.sectors = 1 ∧ x.depends = [] ∧
    ∀ p, x.kind = .catalogue p → x.first = p.sector ∧ x.data = c.image p

theorem CardSlot.Fills.none (c : CardSlot) : c.Fills [] c :=
  ⟨by simp, rfl, by simp⟩

/-- A command goes before those that fill the places after it. -/
theorem CardSlot.Fills.cons (held : c.copy = some copy) (waits : copy.Waits) (owes : c.owed = p :: rest) {commands : List CardCmd}
    {c' : CardSlot}
    (h : (c.queueCat p rest).Fills commands c') :
    c.Fills (c.catCommand p :: commands) c' := by
  refine ⟨h.slot.trans ?_, ?_, fun x joins => ?_⟩
  · simp [CardSlot.queueCat, owes, Nat.add_comm, Nat.add_left_comm]
  · simp only [owes, List.map_cons, List.length_cons, List.take_succ_cons, h.kinds]
    rfl
  · rcases List.mem_cons.mp joins with rfl | later
    · exact ⟨rfl, c.catDepends_waits held waits, fun q same => by cases same; exact ⟨rfl, rfl⟩⟩
    · exact h.forms x later

/-- The writer of a waiting copy fills the free places with what it owes, as far as both go. -/
theorem State.writerLoop_waits (side : Side) (waits : copy.Waits) : ∀ (fuel : Nat) (s : State),
    (s.slot side).copy = some copy → min (8 - (s.slot side).queue.length) (s.slot side).owed.length < fuel →
    ∃ commands c', (s.slot side).Fills commands c' ∧ State.writerLoop fuel side s = s.setSlot side c' ∧
      commands.length = min (8 - (s.slot side).queue.length) (s.slot side).owed.length
  | 0, _, _, enough => absurd enough (Nat.not_lt_zero _)
  | fuel + 1, s, held, enough => by
    have stops (full : (s.slot side).fillPlace = none) : State.writerLoop (fuel + 1) side s = s.setSlot side (s.slot side) := by
      rw [State.writerLoop, State.writerWork_waits held waits]
      dsimp only
      rw [full, State.setSlot_slot]
    by_cases place : (s.slot side).queue.length < 8
    · cases owes : (s.slot side).owed with
      | nil => exact ⟨[], _, .none _, stops (CardSlot.fillPlace_waits held waits owes), by simp⟩
      | cons p rest =>
        rw [State.writerLoop, State.writerWork_waits held waits]
        dsimp only
        rw [CardSlot.fillPlace_owed place owes]
        dsimp only
        generalize next : s.setSlot side _ = t
        have queued : t.slot side = (s.slot side).queueCat p rest := by rw [← next, State.slot_setSlot_same]
        rw [owes, List.length_cons] at enough
        obtain ⟨commands, c', fills, same, count⟩ :=
          State.writerLoop_waits side waits fuel t (by rw [queued]; exact held) (by
            rw [queued]; simp only [CardSlot.queueCat, List.length_append, List.length_singleton]; omega)
        rw [queued] at fills count
        refine ⟨_, c', .cons held waits owes fills, ?_, ?_⟩
        · rw [same, ← next, State.setSlot_setSlot]
        · simp only [CardSlot.queueCat, List.length_append, List.length_cons, List.length_nil] at count ⊢
          omega
    · exact ⟨[], _, .none _, stops (CardSlot.fillPlace_crowded (by omega)), by simp; omega⟩

end

/-- Issuing a command changes what is in flight, and nothing else of the slot (R142). -/
theorem CardSlot.issue_eq (c : CardSlot) : ∃ flying, c.issue = { c with inFlight := flying } := by
  unfold CardSlot.issue
  split
  · exact ⟨c.inFlight, rfl⟩
  · split
    · exact ⟨_, rfl⟩
    · exact ⟨c.inFlight, rfl⟩

/-- The writer of a waiting copy goes on (R141, R142). -/
theorem State.runWriter_waits {s : State} {side : Side} {copy : WriterCopy} (held : (s.slot side).copy = some copy)
    (waits : copy.Waits) : ∃ commands c' flying, (s.slot side).Fills commands c' ∧
      s.runWriter side = s.setSlot side { c' with inFlight := flying } ∧
      commands.length = min (8 - (s.slot side).queue.length) (s.slot side).owed.length := by
  obtain ⟨commands, c', fills, same, count⟩ := State.writerLoop_waits side waits 64 s held (by omega)
  obtain ⟨flying, issued⟩ := c'.issue_eq
  refine ⟨commands, c', flying, fills, ?_, count⟩
  rw [State.runWriter, same, State.modifySlot_eq, State.slot_setSlot_same, State.setSlot_setSlot, issued]

/-! ### Opening a copy (R145) -/

/-- The number `k` is the lowest whose catalogue entry is FREE (R135). -/
structure Summary.LowestFree (sum : Summary) (k : Nat) : Prop where
  positive : 1 ≤ k
  within : k ≤ 999
  free : sum.entry k = none
  lowest : ∀ j, 1 ≤ j → j < k → sum.entry j ≠ none

theorem Summary.lowestFree_spec (sum : Summary) (room : ∃ j, 1 ≤ j ∧ j ≤ 999 ∧ sum.entry j = none) :
    sum.LowestFree sum.lowestFree := by
  obtain ⟨j, positive, within, free⟩ := room
  have found : ((List.range 999).find? (fun i => (sum.entry (i + 1)).isNone)).isSome := by
    refine List.find?_isSome.mpr ⟨j - 1, List.mem_range.mpr (by omega), ?_⟩
    rw [Nat.sub_add_cancel positive, free]
    rfl
  obtain ⟨i, isLowest⟩ := Option.isSome_iff_exists.mp found
  have same : sum.lowestFree = i + 1 := by
    rw [Summary.lowestFree, List.find?_map]
    exact congrArg (fun k => (Option.map (· + 1) k).getD 1000) isLowest
  obtain ⟨free', inRange, below⟩ := List.find?_range_eq_some.mp isLowest
  rw [same]
  have within' : i + 1 ≤ 999 := List.mem_range.mp inRange
  refine ⟨Nat.le_add_left 1 i, within', Option.isNone_iff_eq_none.mp free', fun k one less none => ?_⟩
  have taken := below (k - 1) (by omega)
  rw [Nat.sub_add_cancel one, none] at taken
  cases taken

theorem insertEntry_length (e : CatEntry) : ∀ entries, (insertEntry e entries).length = entries.length + 1
  | [] => rfl
  | x :: rest => by
    unfold insertEntry
    split
    · rfl
    · rw [List.length_cons, insertEntry_length e rest, List.length_cons]

theorem State.reportFull_slot (s : State) (side other : Side) : (s.reportFull side).slot other = s.slot other := by
  unfold State.reportFull
  split
  · rfl
  · rfl

theorem State.judgeFull_other (s : State) (side : Side) : (s.judgeFull side).slot side.other = s.slot side.other := by
  unfold State.judgeFull
  split
  · rfl
  · split
    · rw [State.reportFull_slot, State.modifySlot_eq, State.slot_setSlot_other]
    · rfl

/-- The room on the card is judged on the slot's state and the reports so far. -/
theorem State.roomJudged_setSlot (s : State) (side : Side) {c : CardSlot} (same : c.state = (s.slot side).state)
    (label : List Byte) (free used : Nat) : (s.setSlot side c).roomJudged side label free used = s.roomJudged side label free used := by
  unfold State.roomJudged
  rw [State.slot_setSlot_same, same]
  rfl

/-- The entry that the writer reserves for a new copy (R145). -/
def State.openedEntry (s : State) (sum : Summary) (flags : CopyFlags) (continues : Option CopyRef) : CatEntry :=
  { clip := sum.lowestFree, state := .opened, continuation := flags.continuation, retained := flags.retained,
    mirrored := flags.mirrored, start := sum.nextFree, extents := 0, frames := 0, label := { time := .zero, userBits := 0 },
    labelValid := false, rateCode := s.ftb.rate.code, dropFrame := s.ftb.dropFrame, continues := continues }

/-- The writer's new copy (R145). -/
def Summary.openedCopy (sum : Summary) : WriterCopy :=
  { clip := sum.lowestFree, start := sum.nextFree, consumed := 0, current := none, ready := none, rest := none, placed := 0,
    written := 0, lastTaken := none, last := .unnamed, stage := .writing, owedIndex := [], lastIndex := none, doneUnits := 0,
    doneBlocks := 0, doneEnd := 0 }

theorem Summary.openedCopy_waits (sum : Summary) : sum.openedCopy.Waits := ⟨rfl, rfl, rfl, rfl, rfl⟩

/-- The slot when its copy is opened, before the room is judged and the writer goes on. -/
def State.openedSlot (s : State) (side : Side) (sum : Summary) (flags : CopyFlags) (continues : Option CopyRef) : CardSlot :=
  { s.slot side with
    summary := some { sum with entries := insertEntry (s.openedEntry sum flags continues) sum.entries }
    copy := some sum.openedCopy
    owed := (s.slot side).owed ++ [.opening sum.lowestFree] }

section
variable {s : State} {side : Side} {sum : Summary} (flags : CopyFlags) (continues : Option CopyRef)

theorem State.openCopy_eq (held : (s.slot side).summary = some sum) : s.openCopy side flags continues =
    (((s.setSlot side (s.openedSlot side sum flags continues)).judgeFull side).runWriter side, some
      { clip := sum.lowestFree, label := sum.header.label, firstSerial := none, placed := 0, written := 0,
        continues := continues, state := .writing }) := by
  unfold State.openCopy
  dsimp only
  rw [held]
  rfl

/-- What the slots and LNK are once a copy is open: the OPEN write, after what was owed before, has taken a place if one was free,
and a slot without room has become FULL (R145, R149). -/
theorem State.openCopy_slots (held : (s.slot side).summary = some sum) :
    let t := (s.openCopy side flags continues).1
    let c := s.openedSlot side sum flags continues
    let judged := s.roomJudged side sum.header.label (sum.header.extents - sum.nextFree) (sum.entries.length + 1)
    (∃ commands c' flying, CardSlot.Fills { c with state := judged.1 } commands c' ∧ t.slot side = { c' with inFlight := flying } ∧
      commands.length = min (8 - (s.slot side).queue.length) ((s.slot side).owed.length + 1)) ∧
    t.lnk = judged.2 ∧ t.slot side.other = s.slot side.other := by
  intro t c judged
  have ran : t = ((s.setSlot side c).judgeFull side).runWriter side := congrArg Prod.fst (State.openCopy_eq flags continues held)
  have room := State.judgeFull_judges (s.setSlot side c) side
    (sum := { sum with entries := insertEntry (s.openedEntry sum flags continues) sum.entries }) (by rw [State.slot_setSlot_same]; rfl)
  rw [State.roomJudged_setSlot s side (c := c) rfl, insertEntry_length, State.slot_setSlot_same] at room
  obtain ⟨slot, lnk⟩ := room
  change _ = { c with state := judged.1 } at slot
  have other := State.judgeFull_other (s.setSlot side c) side
  generalize (s.setSlot side c).judgeFull side = u at ran slot lnk other
  obtain ⟨commands, c', flying, fills, went, count⟩ :=
    State.runWriter_waits (s := u) (side := side) (copy := sum.openedCopy) (by rw [slot]; rfl) sum.openedCopy_waits
  rw [slot] at fills count
  rw [ran, went]
  refine ⟨⟨commands, c', flying, fills, State.slot_setSlot_same .., ?_⟩, lnk, ?_⟩
  · rw [count]; simp [c, State.openedSlot]
  · rw [State.slot_setSlot_other, other, State.slot_setSlot_other]

end

end Sys2Proof.Machine

namespace Sys2Proof.Machine

theorem State.openedEntry_clip (s : State) (sum : Summary) (flags : CopyFlags) (continues : Option CopyRef) :
    (s.openedEntry sum flags continues).clip = sum.lowestFree := by
  rw [State.openedEntry]

theorem Summary.openedCopy_clip (sum : Summary) : sum.openedCopy.clip = sum.lowestFree := by
  rw [Summary.openedCopy]

/-- A copy is opened on a card with a FREE entry (R145). -/
theorem State.openCopy_opens {s : State} {side : Side} {sum : Summary} (flags : CopyFlags) (continues : Option CopyRef)
    (held : (s.slot side).summary = some sum) :
    let t := (s.openCopy side flags continues).1
    let k := sum.lowestFree
    let sum' : Summary := { sum with entries := insertEntry (s.openedEntry sum flags continues) sum.entries }
    (t.slot side).summary = some sum' ∧ (t.slot side).copy = some sum.openedCopy ∧
    (let c := s.slot side
     let placed := min (8 - c.queue.length) (c.owed.length + 1)
     (t.slot side).owed = (c.owed ++ [CatPurpose.opening k]).drop placed ∧
     ∃ commands, (t.slot side).queue = c.queue ++ commands ∧
       commands.map CardCmd.kind = ((c.owed ++ [CatPurpose.opening k]).take placed).map CardCmdKind.catalogue ∧
       ∀ x ∈ commands, x.sectors = 1 ∧ x.depends = [] ∧ (x.kind = .catalogue (.opening k) →
         x.first = 1 + (k - 1) / 4 ∧ x.data = sum'.sectorBytes (1 + (k - 1) / 4))) ∧
    ((t.slot side).state, t.lnk) =
      s.roomJudged side sum.header.label (sum.header.extents - sum.nextFree) (sum.entries.length + 1) ∧
    (t.slot side).nearFull = (s.slot side).nearFull ∧ t.slot side.other = s.slot side.other := by
  intro t k sum'
  obtain ⟨⟨commands, c', flying, fills, slot, count⟩, lnk, other⟩ := State.openCopy_slots flags continues held
  obtain ⟨rfl, kinds, forms⟩ := fills
  rw [count] at slot kinds
  change t.slot side = _ at slot
  rw [slot]
  refine ⟨rfl, rfl, ⟨rfl, commands, rfl, kinds, fun x joins => ?_⟩, Prod.ext rfl lnk, rfl, other⟩
  obtain ⟨sectors, depends, written⟩ := forms x joins
  refine ⟨sectors, depends, fun opening => ?_⟩
  obtain ⟨place, data⟩ := written _ opening
  exact ⟨place, data⟩

/-! ### The clip-head rule (R106) -/

theorem Clip.owedProgress_eq (clip : Clip) : clip.owedProgress =
    { a := if (clip.copies.get .a).any (fun c => c.state == .writing) then .owed else .none
      b := if (clip.copies.get .b).any (fun c => c.state == .writing) then .owed else .none } := by
  rw [Clip.owedProgress, Copy.isWriting_eq, Copy.isWriting_eq]
  rfl

section
variable {s : State} {clip : Clip} {floor : Serial}

theorem State.chooseHead_none (begun : s.rcd.clip = some clip)
    (none : s.bfm.queue.find? (fun u => u.fromFloor floor && u.picture.key) = none) :
    s.chooseHead floor = { s with bfm := s.bfm.discardStart (fun u => u.fromFloor floor) } := by
  unfold State.chooseHead
  rw [begun]
  dsimp only
  rw [none]

/-- What belongs to the clip once its head is chosen: the ring units from the head on, and how many they are. -/
def State.headed (s : State) (clip : Clip) (floor head : Serial) : State :=
  let b := s.bfm.discardStart (fun u => u.fromFloor floor && older u.serial head)
  let claim := fun (u : RecUnit) => u.membership == .ring && !older u.serial head
  { s with
    bfm := b.modifyUnits claim (fun u => { u with membership := .clip clip.sequence, progress := clip.owedProgress })
    rcd := { s.rcd with clip := some { clip with
      head := some head, claimed := bump 4294967295 clip.claimed (b.queue.filter claim).length } } }

theorem State.chooseHead_some (begun : s.rcd.clip = some clip) {head : RecUnit}
    (found : s.bfm.queue.find? (fun u => u.fromFloor floor && u.picture.key) = some head) :
    s.chooseHead floor = s.headed clip floor head.serial := by
  unfold State.chooseHead
  rw [begun]
  dsimp only
  rw [found]
  rfl

end

/-- Settles O37: the card from `State.openCopy_opens`, the queue from the two cases of the clip-head rule. -/
theorem clipOpensAndClaims : Obligations.ClipOpensAndClaims := by
  unfold Obligations.ClipOpensAndClaims
  refine ⟨fun s side flags continues sum held room => ?_, fun s clip floor begun => ?_⟩
  · obtain ⟨positive, within, free, lowest⟩ := sum.lowestFree_spec room
    obtain ⟨summary, copy, writes, judged, nearFull, other⟩ := State.openCopy_opens flags continues held
    have cards := CardsOnly.openCopy s side flags continues
    refine ⟨sum.lowestFree, sum.openedCopy, s.openedEntry sum flags continues, (s.openCopy side flags continues).1,
      positive, within, free, lowest, ?_, s.openedEntry_clip sum flags continues, rfl, rfl, rfl, rfl, rfl, rfl, rfl, rfl, rfl, rfl,
      rfl, summary, copy, sum.openedCopy_clip, rfl, rfl, rfl, rfl, rfl, writes, judged, nearFull, other,
      cards.bfm, cards.rcd, cards.mem, cards.ftb⟩
    rw [State.openCopy_eq flags continues held]
  · intro inRange t writing
    refine ⟨fun none => ?_, fun head found => ?_⟩
    · have passed : t = _ := State.chooseHead_none begun none
      rw [passed]
      exact ⟨rfl, rfl, rfl⟩
    · have claimed : t = _ := State.chooseHead_some begun found
      intro passed claims claim stay
      rw [claimed, State.headed, Clip.owedProgress_eq]
      exact ⟨rfl, rfl, rfl⟩

end Sys2Proof.Machine

namespace Sys2Proof.Machine

/-! ## A command completes (R143) -/

/-- Of commands that differ in their numbers, the one with a number is found (R141). -/
theorem find?_id {cmd : CardCmd} : ∀ {commands : List CardCmd}, (commands.map CardCmd.id).Nodup → cmd ∈ commands →
    commands.find? (fun x => x.id == cmd.id) = some cmd
  | x :: rest, distinct, queued => by
    obtain ⟨apart, distinct⟩ := List.nodup_cons.mp distinct
    rcases List.mem_cons.mp queued with rfl | later
    · exact List.find?_cons_of_pos (beq_self_eq_true _)
    · rw [List.find?_cons_of_neg, find?_id distinct later]
      intro same
      exact apart (List.mem_map.mpr ⟨cmd, later, (beq_iff_eq.mp same).symm⟩)

theorem CardSlot.flying_some {c : CardSlot} {cmd : CardCmd} (distinct : (c.queue.map CardCmd.id).Nodup) (queued : cmd ∈ c.queue)
    (flies : c.inFlight = some cmd.id) : c.flying = some cmd := by
  rw [CardSlot.flying, flies]
  exact find?_id distinct queued

theorem CardSlot.flying_none {c : CardSlot} (none : ∀ id, c.inFlight = some id → ∀ x ∈ c.queue, x.id ≠ id) : c.flying = .none := by
  unfold CardSlot.flying
  split
  · next id flies => exact List.find?_eq_none.mpr fun x queued same => none id flies x queued (beq_iff_eq.mp same)
  · rfl

/-- The slot once the command has left its queue and has been counted. -/
def CardSlot.done (c : CardSlot) (cmd : CardCmd) : CardSlot :=
  { c with queue := c.queue.filter (fun x => x.id != cmd.id), inFlight := none, completed := min 4294967295 (c.completed + 1) }

section
variable {s : State} {side : Side} {cmd : CardCmd}

/-- An answer with no command in flight changes nothing (log entry 16). -/
theorem State.commandAnswered_none (none : (s.slot side).flying = none) (status : CardStatus) :
    s.commandAnswered side status = s := by
  unfold State.commandAnswered
  rw [none]

theorem State.commandAnswered_ok (flying : (s.slot side).flying = some cmd) : s.commandAnswered side .ok =
    (((s.setSlot side ((s.slot side).done cmd)).completed side cmd.kind).runWriter side).review := by
  unfold State.commandAnswered
  rw [flying]
  rfl

/-- What a command's completion does by its kind, the writer and the Recorder go on after (R143). -/
theorem commandComplete_becomes (works : s.works) (flying : (s.slot side).flying = some cmd) {v : State}
    (effect : (s.setSlot side ((s.slot side).done cmd)).completed side cmd.kind = v) :
    Becomes (.commandComplete side .ok) s (v.runWriter side).review :=
  becomes_act (f := fun s => s.commandAnswered side .ok) works rfl ((State.commandAnswered_ok flying).trans (by rw [effect]))

end

/-! ### An INDEX command (R143) -/

theorem CardSlot.progressWaits_done {c : CardSlot} {cmd : CardCmd} {clip : Nat} : (c.done cmd).progressWaits clip = true ↔
    .progress clip ∈ c.owed ∨ ∃ x ∈ c.queue, x.id ≠ cmd.id ∧ x.kind = .catalogue (.progress clip) := by
  unfold CardSlot.progressWaits CardSlot.done
  simp only [Bool.or_eq_true, List.contains_iff_mem, List.any_eq_true, List.mem_filter, bne_iff_ne, Bool.and_eq_true, beq_iff_eq]
  simp [and_assoc]

/-- The copy counts a block that has been written, `tail` its last entry (R143). -/
def WriterCopy.blockDone (copy : WriterCopy) (block : IndexBlock) (tail : IndexEntry) : WriterCopy :=
  { copy with
    doneUnits := copy.doneUnits + block.entries.length, doneBlocks := copy.doneBlocks + 1, doneEnd := tail.offset + tail.size }

/-- The counts of the completed blocks, for an OPEN entry (R143). -/
def WriterCopy.recount (copy : WriterCopy) (e : CatEntry) : CatEntry :=
  if e.state == .opened then
    { e with frames := copy.doneUnits, extents := copy.doneBlocks + if essenceBytes < copy.doneEnd then 1 else 0 }
  else e

/-- The copy's own entry is the one that is recounted, while it is OPEN. -/
theorem WriterCopy.modifyEntry_recount (copy : WriterCopy) (sum : Summary) : sum.modifyEntry copy.clip copy.recount =
    { sum with entries := sum.entries.map (fun e =>
        if e.clip == copy.clip && e.state == .opened then
          { e with frames := copy.doneUnits, extents := copy.doneBlocks + if 3932160 < copy.doneEnd then 1 else 0 }
        else e) } := by
  refine congrArg (fun f => ({ sum with entries := sum.entries.map f } : Summary)) (funext fun e => ?_)
  by_cases own : (e.clip == copy.clip) = true
  · rw [if_pos own, own, Bool.true_and]
    rfl
  · rw [if_neg own, Bool.eq_false_iff.mpr own, Bool.false_and]
    rfl

/-- An INDEX command's completion: the copy counts the block, its entry is recounted, and one progress command is owed. -/
theorem CardSlot.indexWritten_eq {c : CardSlot} {copy : WriterCopy} {block : IndexBlock} {tail : IndexEntry}
    (held : c.copy = some copy) (last : block.entries.getLast? = some tail) :
    c.indexWritten block = { c with
      copy := some (copy.blockDone block tail)
      summary := c.summary.map (fun sum => sum.modifyEntry (copy.blockDone block tail).clip (copy.blockDone block tail).recount)
      owed := if c.progressWaits copy.clip then c.owed else c.owed ++ [.progress copy.clip] } := by
  unfold CardSlot.indexWritten
  rw [held, last]
  by_cases waits : c.progressWaits copy.clip = true
  · rw [if_pos waits]
    exact if_pos waits
  · rw [if_neg waits]
    exact if_neg waits

/-! ### The end of a copy, of a recovery, of a format -/

section
variable {s : State} {side : Side} {sum : Summary}

/-- A closing command's completion: the copy is CLOSED, and a normal clip in RELAY forgets it (R143, log entry 23). -/
theorem State.copyClosed_eq (s : State) (side : Side) :
    let v := s.modifySlot side (fun c => { c with copy := none })
    s.copyClosed side = { v with rcd := { v.rcd with clip := v.rcd.clip.map (fun clip => { clip with
      copies := clip.copies.set side
        (if clip.mode = .relay ∧ clip.kind = .normal then none
         else (clip.copies.get side).map (fun copy => { copy with state := .closed })) }) } } := by
  refine congrArg (s.modifySlot side (fun c => { c with copy := none })).modifyClip (funext fun clip => ?_)
  by_cases relay : clip.mode = .relay ∧ clip.kind = .normal
  · rw [if_pos relay, if_pos (by simpa using relay)]
  · rw [if_neg relay, if_neg (by simpa using relay)]
    rfl

/-- Recovery turns to the OPEN entry with the lowest number (R140). -/
theorem State.recoverNext_open (held : (s.slot side).summary = some sum) {e : CatEntry}
    (opened : sum.entries.find? (fun e => e.state == .opened) = some e) :
    s.recoverNext side = s.setSlot side { s.slot side with
      recovery := some { clip := e.clip, frames := 0, blocks := 0, tailEnd := 0 }, reading := some (.index e.start) } := by
  unfold State.recoverNext Summary.nextOpen
  dsimp only
  rw [held]
  dsimp only
  rw [opened]

/-- The end of a recovery in a state, CARD_DONE told (R140). -/
def State.recovered (s : State) (side : Side) (sum : Summary) (state : SlotState) : State :=
  (s.setSlot side { s.slot side with
    summary := some { sum with nextFree := nextFreeOf sum.entries }, state := state, reading := none, recovery := none
    mounted := [] }).report .cardDone (u8 side.code ++ u8 0 ++ u8 state.code ++ u16 (s.slot side).rebuilt)

theorem nextFreeOf_eq (entries : List CatEntry) : nextFreeOf entries = (entries.map (fun e => e.start + e.extents)).foldl max 1 := by
  rw [nextFreeOf, List.foldl_map]

/-- The end of a mount, CARD_DONE told, and CARD_FULL after it where the slot is FULL (R139, R149). -/
theorem State.mountEnds_eq (s : State) (side : Side) (state : SlotState) (recovered : Nat) :
    let t := (s.setSlot side { s.slot side with state := state, reading := none, recovery := none, mounted := [] }).report
      .cardDone (u8 side.code ++ u8 0 ++ u8 state.code ++ u16 recovered)
    s.mountEnds side state recovered = (if state = .full then t.reportFull side else t).judgeNearFull side := by
  unfold State.mountEnds State.reportDone
  dsimp only
  rw [State.slot_modifySlot_same]
  cases state <;> rfl

theorem State.recoverNext_ends (held : (s.slot side).summary = some sum) (closed : ∀ e ∈ sum.entries, e.state ≠ .opened) :
    (sum.header.extents - nextFreeOf sum.entries = 0 ∨ 999 ≤ sum.entries.length →
      s.recoverNext side = ((s.recovered side sum .full).reportFull side).judgeNearFull side) ∧
    (0 < sum.header.extents - nextFreeOf sum.entries → sum.entries.length < 999 →
      s.recoverNext side = (s.recovered side sum .ready).judgeNearFull side) := by
  have none : sum.entries.find? (fun e => e.state == .opened) = none :=
    List.find?_eq_none.mpr fun e used opened => closed e used (beq_iff_eq.mp opened)
  have ends (state : SlotState) (room : roomState { sum with nextFree := nextFreeOf sum.entries } = state) :
      s.recoverNext side =
        (if state = .full then (s.recovered side sum state).reportFull side else s.recovered side sum state).judgeNearFull side := by
    unfold State.recoverNext Summary.nextOpen
    dsimp only
    rw [held]
    dsimp only
    rw [none]
    dsimp only
    rw [room, State.mountEnds_eq, State.slot_setSlot_same, State.setSlot_setSlot]
    rfl
  refine ⟨fun full => ends .full (if_pos ?_), fun free room => ends .ready (if_neg ?_)⟩
  · simpa [Summary.isFull, Summary.freeExtents] using full
  · simpa [Summary.isFull, Summary.freeExtents] using And.intro free.ne' room

/-- The last write of a format has completed (R151). -/
theorem State.formatEnds_eq {h : CardHeader} (read : (s.slot side).lastHeader = some h) :
    s.formatEnds side = ((s.setSlot side { s.slot side with
      state := .ready, summary := some { header := h, entries := [], nextFree := 1 } }).report .cardDone
        (u8 side.code ++ u8 1 ++ u8 SlotState.ready.code ++ u16 0)).judgeNearFull side := by
  unfold State.formatEnds State.reportDone
  dsimp only
  rw [State.slot_modifySlot_same, State.modifySlot_eq, read]
  rfl

end

/-! ### A unit is written (R143, R113) -/

theorem RecUnit.ofClip_eq (u : RecUnit) : u.ofClip = (u.membership != .ring) := by
  unfold RecUnit.ofClip
  cases u.membership <;> rfl

theorem CardSlot.addSize_eq (c : CardSlot) (size : Nat) :
    c.addSize size = { c with sizes := (c.sizes ++ [size]).drop (c.sizes.length + 1 - 64) } := by
  rw [CardSlot.addSize, List.length_append, List.length_singleton]

theorem RecUnit.writtenSomewhere_iff (u : RecUnit) :
    u.writtenSomewhere = false ↔ u.progress.a ≠ .written ∧ u.progress.b ≠ .written := by
  simp [RecUnit.writtenSomewhere]

/-- The serial `n` has been written on no slot yet. -/
theorem unwritten_iff (queue : List RecUnit) (n : Serial) :
    (!queue.any (fun u => u.serial == n && u.writtenSomewhere)) = true ↔
      ∀ u ∈ queue, u.serial = n → u.progress.a ≠ .written ∧ u.progress.b ≠ .written := by
  simp [RecUnit.writtenSomewhere_iff]

/-- The units that a write makes WRITTEN on the slot: those of the clip that are owed there. -/
theorem RecUnit.written_eq (u : RecUnit) (n : Serial) (side : Side) :
    (if u.serial == n && u.ofClip then u.written side else u) =
      if u.serial == n && u.membership != .ring && u.progress.get side == .owed then
        { u with progress := u.progress.set side .written }
      else u := by
  rw [RecUnit.ofClip_eq]
  by_cases told : (u.serial == n && u.membership != .ring) = true
  · rw [if_pos told, told, Bool.true_and]
    rfl
  · rw [if_neg told, Bool.eq_false_iff.mpr told, Bool.false_and]
    rfl

theorem State.unitWritten_eq (s : State) (side : Side) (n : Serial) (size : Nat)
    [unwritten : Decidable (∀ u ∈ s.bfm.queue, u.serial = n → u.progress.a ≠ .written ∧ u.progress.b ≠ .written)] :
    s.unitWritten side n size =
      { s.setSlot side { s.slot side with
          sizes := ((s.slot side).sizes ++ [size]).drop ((s.slot side).sizes.length + 1 - 64)
          copy := (s.slot side).copy.map (fun copy => { copy with written := min 4294967295 (copy.written + 1) }) } with
        rcd := { s.rcd with clip := s.rcd.clip.map (fun clip => { clip with
          copies := clip.copies.set side
            ((clip.copies.get side).map (fun copy => { copy with written := min 4294967295 (copy.written + 1) }))
          written := if ∀ u ∈ s.bfm.queue, u.serial = n → u.progress.a ≠ .written ∧ u.progress.b ≠ .written then
            min 4294967295 (clip.written + 1) else clip.written }) }
        bfm := { s.bfm with queue := s.bfm.queue.map (fun u =>
          if u.serial == n && u.membership != .ring && u.progress.get side == .owed then
            { u with progress := u.progress.set side .written }
          else u) } } := by
  have counts : ∀ x y : Nat, (if !s.bfm.queue.any (fun u => u.serial == n && u.writtenSomewhere) then x else y) =
      if ∀ u ∈ s.bfm.queue, u.serial = n → u.progress.a ≠ .written ∧ u.progress.b ≠ .written then x else y :=
    fun _ _ => if_congr (unwritten_iff s.bfm.queue n) rfl rfl
  unfold State.unitWritten
  simp only [CardSlot.addSize_eq, counts, State.modifyUnits, Bfm.modifyUnits, RecUnit.written_eq]
  rfl

/-- Settles O44: the effect of each kind of command, and of one unit written. -/
theorem commandCompletes : Obligations.CommandCompletes := by
  unfold Obligations.CommandCompletes
  refine ⟨fun side status s works => ?_, fun side n size s => s.unitWritten_eq side n size⟩
  intro c count done goesOn
  refine ⟨fun none => becomes_act (f := (·.commandAnswered side status)) works rfl
      (State.commandAnswered_none (CardSlot.flying_none none) status),
    fun cmd distinct queued flies => ?_⟩
  have becomes {v : State} (effect : (s.setSlot side (c.done cmd)).completed side cmd.kind = v) : goesOn v :=
    commandComplete_becomes works (CardSlot.flying_some distinct queued flies) effect
  have slot : (s.setSlot side (c.done cmd)).slot side = c.done cmd := State.slot_setSlot_same ..
  refine ⟨?_, ?_, ?_, ?_, ?_, ?_, ?_⟩
  · rintro clip (kind | kind) <;> exact becomes (by rw [kind]; rfl)
  · rintro (⟨n, kind⟩ | kind) <;> exact becomes (by rw [kind]; rfl)
  · intro units ends kind
    exact becomes (by rw [kind]; rfl)
  · intro block copy tail kind held last copy' waits
    have progress : (if (c.done cmd).progressWaits copy.clip then (c.done cmd).owed
          else (c.done cmd).owed ++ [.progress copy.clip]) =
        if waits then c.owed else c.owed ++ [.progress copy.clip] := if_congr CardSlot.progressWaits_done rfl rfl
    refine becomes ?_
    rw [kind, State.completed, State.modifySlot_eq, slot, CardSlot.indexWritten_eq (c := c.done cmd) held last,
      State.setSlot_setSlot]
    rw [progress, funext (copy.blockDone block tail).modifyEntry_recount]
    rfl
  · intro clip kind v left
    refine becomes ?_
    rw [kind]
    refine (State.copyClosed_eq _ side).trans ?_
    rw [State.modifySlot_eq, slot, State.setSlot_setSlot]
    rfl
  · intro n sum kind held slot' next sum' ended
    have rebuilt : ((s.setSlot side (c.done cmd)).completed side cmd.kind) =
        (s.setSlot side slot').recoverNext side := by
      rw [kind, State.completed, State.modifySlot_eq, slot, State.setSlot_setSlot]
      rfl
    have held' : ((s.setSlot side slot').slot side).summary = some sum := by rw [State.slot_setSlot_same]; exact held
    have isEnded (state : SlotState) : (s.setSlot side slot').recovered side sum state = ended state := by
      rw [State.recovered, State.slot_setSlot_same, State.setSlot_setSlot, nextFreeOf_eq]
    refine ⟨fun e opened => becomes (rebuilt.trans ?_), fun closed => ?_⟩
    · rw [State.recoverNext_open held' opened, State.slot_setSlot_same, State.setSlot_setSlot]
    · obtain ⟨full, ready⟩ := State.recoverNext_ends held' closed
      rw [isEnded, nextFreeOf_eq] at full ready
      exact ⟨fun without => becomes (rebuilt.trans (full without)),
        fun free room => becomes (rebuilt.trans (ready free room))⟩
  · intro h kind read
    refine becomes ?_
    rw [kind]
    refine (State.formatEnds_eq (s := s.setSlot side (c.done cmd)) (by rw [slot]; exact read)).trans ?_
    rw [slot, State.setSlot_setSlot]
    rfl

end Sys2Proof.Machine

namespace Sys2Proof.Machine

/-! ## A slot fails (R144) -/

/-- A slot in FAULT (R144): `errors` and `timeouts` more, nothing queued, in flight, read or copied any longer. -/
def CardSlot.broken (c : CardSlot) (errors timeouts : Nat) : CardSlot :=
  { c with
    state := .fault, queue := [], inFlight := none, owed := [], copy := none, reading := none, recovery := none, mounted := []
    errors := min 65535 (c.errors + errors), timeouts := min 65535 (c.timeouts + timeouts) }

theorem CardSlot.faulted_error {c : CardSlot} (few : c.timeouts ≤ 65535) : c.faulted .error = c.broken 1 0 := by
  have same : min 65535 (c.timeouts + 0) = c.timeouts := Nat.min_eq_right few
  unfold CardSlot.broken
  rw [same]
  rfl

theorem CardSlot.faulted_timeout {c : CardSlot} (few : c.errors ≤ 65535) : c.faulted .timeout = c.broken 0 1 := by
  have same : min 65535 (c.errors + 0) = c.errors := Nat.min_eq_right few
  unfold CardSlot.broken
  rw [same]
  rfl

/-- The first sector of a failed read as CARD_FAULT tells it; a read of the card's size has none (R195, log entry 1). -/
def CardRead.sectorBytes (read : CardRead) : List (Option Byte) :=
  match read with
  | .size => [none, none, none, none]
  | .header => (u32 0).map some
  | .entries n => (u32 n).map some
  | .index extent => (u32 (8192 * extent)).map some

/-- The slot is lost, and CARD_FAULT tells it (R144, R130). -/
def State.failed (s : State) (side : Side) (errors timeouts kind cause : Nat) (sector : List (Option Byte)) : State :=
  ((s.setSlot side ((s.slot side).broken errors timeouts)).slotLost side).notify .cardFault
    ((u8 side.code ++ u8 kind ++ u8 cause).map some ++ sector)

section
variable {s : State} {side : Side}

theorem State.cardFails_command_error (few : (s.slot side).timeouts ≤ 65535) (kind first' : Nat) :
    s.cardFails side kind (some first') .error = s.failed side 1 0 kind 0 ((u32 first').map some) := by
  rw [State.failed, ← CardSlot.faulted_error few]
  rfl

theorem State.cardFails_command_timeout (few : (s.slot side).errors ≤ 65535) (kind first' : Nat) :
    s.cardFails side kind (some first') .timeout = s.failed side 0 1 kind 1 ((u32 first').map some) := by
  rw [State.failed, ← CardSlot.faulted_timeout few]
  rfl

theorem State.cardFails_read_error (few : (s.slot side).timeouts ≤ 65535) (read : CardRead) :
    s.cardFails side 0 read.sector .error = s.failed side 1 0 0 0 read.sectorBytes := by
  rw [State.failed, ← CardSlot.faulted_error few]
  cases read <;> rfl

theorem State.cardFails_read_timeout (few : (s.slot side).errors ≤ 65535) (read : CardRead) :
    s.cardFails side 0 read.sector .timeout = s.failed side 0 1 0 1 read.sectorBytes := by
  rw [State.failed, ← CardSlot.faulted_timeout few]
  cases read <;> rfl

theorem State.commandAnswered_error {cmd : CardCmd} (flying : (s.slot side).flying = some cmd) :
    s.commandAnswered side .error = s.cardFails side cmd.kind.faultCode (some cmd.first) .error := by
  unfold State.commandAnswered
  rw [flying]

theorem State.readAnswered_none (none : (s.slot side).reading = none) (answer : ReadAnswer) : s.readAnswered side answer = s := by
  unfold State.readAnswered
  rw [none]

theorem State.readAnswered_error {read : CardRead} (reads : (s.slot side).reading = some read) :
    s.readAnswered side .error = s.cardFails side 0 read.sector .error := by
  unfold State.readAnswered
  rw [reads]

/-- A timeout is that of the command in flight, and else that of the read (log entry 27). -/
theorem State.cardTimesOut_command {cmd : CardCmd} (flying : (s.slot side).flying = some cmd) :
    s.cardTimesOut side = s.cardFails side cmd.kind.faultCode (some cmd.first) .timeout := by
  unfold State.cardTimesOut
  rw [flying]

theorem State.cardTimesOut_read {read : CardRead} (idle : (s.slot side).inFlight = none) (reads : (s.slot side).reading = some read) :
    s.cardTimesOut side = s.cardFails side 0 read.sector .timeout := by
  unfold State.cardTimesOut CardSlot.flying
  rw [idle, reads]

theorem State.cardTimesOut_none (idle : (s.slot side).inFlight = none) (none : (s.slot side).reading = none) :
    s.cardTimesOut side = s := by
  unfold State.cardTimesOut CardSlot.flying
  rw [idle, none]

end

theorem CardCmdKind.faultCode_eq (kind : CardCmdKind) : kind.faultCode = match kind with
    | .essence _ _ => 1
    | .index _ => 2
    | .catalogue _ => 3 := by
  cases kind <;> rfl

/-! ## The loss of a slot (R130) -/

/-- Owed on the slot no longer (R130 step 2). -/
def RecUnit.notOwed (u : RecUnit) (side : Side) : RecUnit :=
  if u.membership != .ring && u.progress.get side == .owed then { u with progress := u.progress.set side .none } else u

theorem RecUnit.notOwed_owed {u : RecUnit} {side : Side} (ofClip : (u.notOwed side).membership ≠ .ring) :
    (u.notOwed side).progress.get side ≠ .owed := by
  unfold RecUnit.notOwed at ofClip ⊢
  split at ofClip
  · next owed =>
    rw [if_pos owed, Two.get_set_same]
    decide
  · next not =>
    rw [if_neg not]
    intro owed
    exact not (by rw [owed]; simpa using ofClip)

/-- A unit of a lost copy that no live slot owes: it is released when no slot has written it, and held ones return to the ring
(R108). -/
def State.released (s : State) (u : RecUnit) : RecUnit :=
  if u.membership == .ring || s.liveOwed u then u else u.toRing

/-- The units that the loss of a slot leaves in the queue: those of the ring, those still owed on a live slot, and the held ones
that no slot has written (R101, R108). -/
def State.outlives (s : State) (u : RecUnit) : Bool :=
  u.membership == .ring || s.liveOwed u || (!u.writtenSomewhere && !u.holds.isEmpty)

/-- The release of a unit that is held (R108). -/
def RecUnit.freed (which : RecUnit → Bool) (u : RecUnit) : RecUnit :=
  if which u && !u.holds.isEmpty then u.toRing else u

/-- A release takes the held units out of the clip, so that only unheld ones are discarded. -/
theorem Bfm.releaseUnits_queue (b : Bfm) {which : RecUnit → Bool} (clipOnly : ∀ u, which u = true → u.ofClip = true) :
    (b.releaseUnits which).queue =
      (b.queue.filter (fun u => !(which u && u.holds.isEmpty))).map (fun u => if which u then u.toRing else u) := by
  have ring (u : RecUnit) : which u.toRing = false := Bool.eq_false_iff.mpr fun is => nomatch clipOnly _ is
  have stays (u : RecUnit) :
      (!(which (u.freed which) && (u.freed which).holds.isEmpty)) = !(which u && u.holds.isEmpty) := by
    by_cases held : (which u && !u.holds.isEmpty) = true
    · obtain ⟨_, hold⟩ := Bool.and_eq_true_iff.mp held
      rw [RecUnit.freed, if_pos held, ring, (Bool.not_eq_true' _).mp hold, Bool.and_false, Bool.false_and]
    · rw [RecUnit.freed, if_neg held]
  change (b.queue.map (RecUnit.freed which)).filter (fun u => !(which u && u.holds.isEmpty)) = _
  rw [List.filter_map, Function.comp_def, List.filter_congr fun u _ => stays u]
  refine List.map_congr_left fun u kept => if_congr ?_ rfl rfl
  obtain ⟨_, stay⟩ := List.mem_filter.mp kept
  rw [Bool.and_eq_true]
  exact ⟨And.left, fun is => ⟨is, by simpa [is] using stay⟩⟩

section
variable (s : State) (side : Side)

theorem State.looseUnits_queue : (s.looseUnits side).bfm.queue =
    ((s.bfm.queue.map (fun u => u.notOwed side)).filter s.outlives).map s.released := by
  have off : (fun u : RecUnit => if u.ofClip && u.progress.get side == .owed then
      { u with progress := u.progress.set side .none } else u) = fun u => u.notOwed side := by
    funext u
    rw [RecUnit.ofClip_eq]
    rfl
  have loosed : (s.looseUnits side).bfm.queue =
      (({ s.bfm with queue := (s.bfm.queue.map (fun u => u.notOwed side)).filter (fun u =>
          !(u.ofClip && !s.liveOwed u && u.writtenSomewhere)) } : Bfm).releaseUnits
        (fun u => u.ofClip && !s.liveOwed u && !u.writtenSomewhere)).queue := by
    rw [← off]
    rfl
  have stays (u : RecUnit) : (!(u.ofClip && !s.liveOwed u && !u.writtenSomewhere && u.holds.isEmpty) &&
      !(u.ofClip && !s.liveOwed u && u.writtenSomewhere)) = s.outlives u := by
    rw [RecUnit.ofClip_eq, State.outlives, bne]
    cases u.membership == .ring <;> cases s.liveOwed u <;> cases u.writtenSomewhere <;> simp
  rw [loosed, Bfm.releaseUnits_queue _ fun u is => by simp_all]
  dsimp only
  rw [List.filter_filter, List.filter_congr fun u _ => stays u]
  refine List.map_congr_left fun u kept => ?_
  obtain ⟨_, outlives⟩ := List.mem_filter.mp kept
  rw [RecUnit.ofClip_eq, State.released, bne]
  by_cases stay : (u.membership == .ring || s.liveOwed u) = true
  · rw [if_pos stay, if_neg]
    rw [Bool.or_eq_true] at stay
    rcases stay with ring | owed
    · simp [ring]
    · simp [owed]
  · rw [if_neg stay, if_pos]
    rw [State.outlives, Bool.eq_false_iff.mpr stay, Bool.false_or, Bool.and_eq_true] at outlives
    rw [Bool.not_eq_true, Bool.or_eq_false_iff] at stay
    simp [stay, outlives.1]

/-- No unit of the clip is owed on the lost slot any longer. -/
theorem State.looseUnits_owed {u : RecUnit} (queued : u ∈ (s.looseUnits side).bfm.queue) (ofClip : u.membership ≠ .ring) :
    u.progress.get side ≠ .owed := by
  rw [State.looseUnits_queue] at queued
  obtain ⟨x, stays, rfl⟩ := List.mem_map.mp queued
  obtain ⟨from', _⟩ := List.mem_filter.mp stays
  obtain ⟨y, _, rfl⟩ := List.mem_map.mp from'
  unfold State.released at ofClip ⊢
  split at ofClip
  · next stay =>
    rw [if_pos stay]
    exact RecUnit.notOwed_owed ofClip
  · exact absurd rfl ofClip

/-- Once every unit of the clip is released, the queue holds ring units alone (R108). -/
theorem Bfm.releaseUnits_ring {b : Bfm} {u : RecUnit} (queued : u ∈ (b.releaseUnits RecUnit.ofClip).queue) :
    u.membership = .ring := by
  rw [Bfm.releaseUnits_queue _ fun _ is => is] at queued
  obtain ⟨x, _, rfl⟩ := List.mem_map.mp queued
  split
  · rfl
  · next not => simpa [RecUnit.ofClip_eq] using not

end

/-! ### The end of the clip -/

theorem State.modifyClip_congr {s : State} {clip : Clip} (begun : s.rcd.clip = some clip) {f g : Clip → Clip}
    (same : f clip = g clip) : s.modifyClip f = s.modifyClip g := by
  rw [State.modifyClip, State.modifyClip, begun, Option.map_some, Option.map_some, same]

theorem laterEnd_eq (last : Option Serial) (copy : Option WriterCopy) : laterEnd last copy =
    match copy.map WriterCopy.last, last with
      | some (.unit x), some e => some (if newer x e then x else e)
      | some (.unit x), none => some x
      | _, e => e := by
  unfold laterEnd
  rcases copy.map WriterCopy.last with _ | ⟨_ | _ | x⟩ <;> cases last <;> rfl

/-- The clip ends, and no start is waiting (R130, R118). -/
theorem State.endClip_quiet {s : State} (quiet : s.rcd.latch = false) :
    (s.endClip .aborted).rcd = { s.rcd with
      state := .standing, clip := none
      endings := { s.rcd.endings with aborted := min 65535 (s.rcd.endings.aborted + 1) } } ∧
    (s.endClip .aborted).bfm = { s.bfm with gapPending := false } := by
  unfold State.endClip
  dsimp only
  rw [if_neg (by rw [State.reportRec, State.notify]; simp [quiet])]
  exact ⟨rfl, rfl⟩

section
variable {s : State} {side : Side} {clip : Clip} {copy : Copy}

/-- The clip without its copy on the lost slot (R130 steps 1 and 2). -/
def State.lost (s : State) (side : Side) : State :=
  (s.modifyClip (fun clip => clip.modifyCopy side (fun copy => { copy with state := .lost }))).looseUnits side

theorem State.lost_eq (begun : s.rcd.clip = some clip) (held : clip.copies.get side = some copy) : s.lost side =
    (s.modifyClip (fun c => { c with copies := c.copies.set side (some { copy with state := .lost }) })).looseUnits side := by
  rw [State.lost, State.modifyClip_congr begun]
  rw [Clip.modifyCopy, held]
  rfl

/-- The clip is aborted, every unit of it that is queued released (R130 step 5, R108). -/
def State.releaseClip (s : State) : State :=
  let v := s.modifyClip (fun clip => { clip with reason := some .aborted })
  { v with bfm := v.bfm.releaseUnits RecUnit.ofClip }

theorem State.isTarget_iff (begun : s.rcd.clip = some clip) : s.isTarget side = true ↔
    ∃ copy, clip.copies.get side = some copy ∧ (copy.state = .writing ∨ copy.state = .closing) := by
  unfold State.isTarget
  rw [begun]
  dsimp only
  cases clip.copies.get side <;> simp

theorem State.slotLost_idle (idle : s.isTarget side = false) : s.slotLost side = s := by
  unfold State.slotLost
  split
  · rfl
  · rw [if_pos (by rw [idle]; rfl)]

/-- What follows once the copy is lost, by the state of the other copy (R130 steps 3 to 5). -/
theorem State.slotLost_cases (begun : s.rcd.clip = some clip) (target : s.isTarget side = true) :
    (clip.copyState side.other = some .writing → s.slotLost side = ((s.lost side).reportRec .slotDropped 0 side.code).review) ∧
    (clip.copyState side.other = some .closing →
      let v := (s.lost side).modifyClip (fun clip =>
        { clip with last := laterEnd clip.last (s.slot side.other).copy, reason := some .aborted })
      let closing : State := { v with rcd := { v.rcd with
        state := if s.rcd.state = .recording then .closing else s.rcd.state } }
      s.slotLost side = (closing.reportRec .aborted 0 0).review) ∧
    (clip.copyState side.other ≠ some .writing → clip.copyState side.other ≠ some .closing →
      s.slotLost side = (s.lost side).releaseClip.endClip .aborted) := by
  unfold State.slotLost
  rw [begun]
  dsimp only
  rw [target, if_neg (by decide)]
  refine ⟨fun writing => by rw [writing]; rfl, fun closing => ?_, fun unwriting unclosing => ?_⟩
  · rw [closing]
    refine congrArg (fun t : State => (t.reportRec .aborted 0 0).review) ?_
    by_cases recording : s.rcd.state = .recording
    · rw [if_pos recording]
      exact if_pos (beq_iff_eq.mpr recording)
    · rw [if_neg recording]
      exact if_neg fun is => recording (beq_iff_eq.mp is)
  · split
    · next writing => exact absurd writing unwriting
    · next closing => exact absurd closing unclosing
    · rfl

end

/-- The other copy is gone from the clip, or neither WRITING nor CLOSING. -/
theorem Clip.copyState_other {clip : Clip} {side : Side} {state : CopyState}
    (none : ∀ other, clip.copies.get side = some other → other.state ≠ state) : clip.copyState side ≠ some state := by
  intro is
  obtain ⟨copy, held, is⟩ := Option.map_eq_some_iff.mp is
  exact none copy held is

/-- Only a slot with a copy in WRITING or CLOSING is lost to the clip. -/
theorem State.isTarget_none {s : State} {side : Side} (gone : ∀ clip copy, s.rcd.clip = some clip →
    clip.copies.get side = some copy → copy.state ≠ .writing ∧ copy.state ≠ .closing) : s.isTarget side = false := by
  cases begun : s.rcd.clip with
  | none => rw [State.isTarget, begun]
  | some clip =>
    rw [Bool.eq_false_iff, Ne, State.isTarget_iff begun]
    rintro ⟨copy, held, live⟩
    obtain ⟨unwriting, unclosing⟩ := gone clip copy begun held
    exact live.elim unwriting unclosing

/-- Settles O45: how a slot fails, the units that its loss leaves, and the end of the clip by the state of the other copy. -/
theorem cardFailures : Obligations.CardFailures := by
  unfold Obligations.CardFailures
  refine ⟨fun side s works => ?_, fun side s => s.looseUnits_queue side, fun side s => ?_⟩
  · intro c failed fewErrors fewTimeouts
    refine ⟨fun cmd distinct queued flies => ?_, fun read idle reads => ?_, fun idle none => ?_⟩
    · intro kind
      have code : cmd.kind.faultCode = kind := cmd.kind.faultCode_eq
      have flying := CardSlot.flying_some distinct queued flies
      refine ⟨becomes_act (f := (·.commandAnswered side .error)) works rfl ?_, becomes_act (f := (·.cardTimesOut side)) works rfl ?_⟩
      · rw [State.commandAnswered_error flying, code, State.cardFails_command_error fewTimeouts]
        rfl
      · rw [State.cardTimesOut_command flying, code, State.cardFails_command_timeout fewErrors]
        rfl
    · intro sector
      have told : read.sectorBytes = sector := by cases read <;> rfl
      refine ⟨becomes_act (f := (·.readAnswered side .error)) works rfl ?_, becomes_act (f := (·.cardTimesOut side)) works rfl ?_⟩
      · rw [State.readAnswered_error reads, State.cardFails_read_error fewTimeouts, told]
        rfl
      · rw [State.cardTimesOut_read idle reads, State.cardFails_read_timeout fewErrors, told]
        rfl
    · exact ⟨becomes_act (f := (·.cardTimesOut side)) works rfl (State.cardTimesOut_none idle none),
        fun answer => becomes_act (f := (·.readAnswered side answer)) works rfl (State.readAnswered_none none answer)⟩
  · refine ⟨fun gone => State.slotLost_idle (State.isTarget_none gone),
      fun clip copy begun held live => ?_⟩
    · have target : s.isTarget side = true := (State.isTarget_iff begun).mpr ⟨copy, held, live⟩
      obtain ⟨whenWriting, whenClosing, otherwise⟩ := State.slotLost_cases begun target
      intro lost
      have isLost : s.lost side = lost := State.lost_eq begun held
      rw [isLost] at whenWriting whenClosing otherwise
      refine ⟨fun u queued => State.looseUnits_owed _ side queued, fun other there closing => ?_, fun other there writing => ?_,
        fun dead => ?_⟩
      · intro last v
        have kept : lost.rcd.clip = some { clip with copies := clip.copies.set side (some { copy with state := .lost }) } :=
          congrArg (Option.map _) begun
        have later : laterEnd clip.last (s.slot side.other).copy = last := laterEnd_eq ..
        have renamed : lost.modifyClip (fun clip =>
              { clip with last := laterEnd clip.last (s.slot side.other).copy, reason := some .aborted }) =
            lost.modifyClip (fun clip => { clip with last := last, reason := some .aborted }) :=
          State.modifyClip_congr kept (by dsimp only; rw [later])
        have ends := whenClosing (by rw [Clip.copyState, there, Option.map_some, closing])
        dsimp only at ends
        rw [renamed] at ends
        exact ends
      · exact whenWriting (by rw [Clip.copyState, there, Option.map_some, writing])
      · intro t
        have ends : t = _ := otherwise (Clip.copyState_other fun other there => (dead other there).1)
          (Clip.copyState_other fun other there => (dead other there).2)
        have settled (quiet : s.rcd.latch = false) := State.endClip_quiet (s := lost.releaseClip) quiet
        refine ⟨fun u queued ofClip => ?_, fun quiet => ?_⟩
        · refine Bool.of_not_eq_false fun quiet => ?_
          obtain ⟨_, bfm⟩ := settled quiet
          rw [ends, bfm] at queued
          exact ofClip (Bfm.releaseUnits_ring queued)
        · obtain ⟨rcd, bfm⟩ := settled quiet
          rw [ends]
          exact ⟨rcd, congrArg Bfm.gapPending bfm⟩

end Sys2Proof.Machine

namespace Sys2Proof.Machine

/-! # Starts, stops and presses (R112, R114 to R118, R121) -/

/-! ## The clip record of a start that is taken -/

theorem State.openCopies_clip {u : State} {clip : Clip} (begun : u.rcd.clip = some clip) :
    ∃ clip, u.openCopies.rcd.clip = some clip := by
  unfold State.openCopies
  dsimp only
  split
  · exact State.openFor_clip begun ..
  · exact State.openFor_clip begun ..
  · obtain ⟨clip', begun'⟩ := State.openFor_clip begun .a { continuation := false, retained := false, mirrored := u.rcd.mode == .mirror } none
    exact State.openFor_clip begun' ..

theorem State.chooseHead_clip {u : State} {clip : Clip} (begun : u.rcd.clip = some clip) (floor : Serial) :
    ∃ clip, (u.chooseHead floor).rcd.clip = some clip := by
  cases found : u.bfm.queue.find? (fun x => x.fromFloor floor && x.picture.key) with
  | none => exact ⟨clip, by rw [State.chooseHead_none begun found]; exact begun⟩
  | some head => exact ⟨_, by rw [State.chooseHead_some begun found]; rfl⟩

/-- A start that is taken leaves a clip record (R117). -/
theorem State.clipBegun_clip (s : State) (n : Serial) : ∃ clip, (s.clipBegun n).rcd.clip = some clip := by
  obtain ⟨clip, begun⟩ := State.openCopies_clip (u := s.beginClip .normal .recording (some n)) rfl
  rw [← State.takeStart_eq, State.takeStart]
  split
  · exact State.chooseHead_clip begun _
  · exact ⟨clip, begun⟩

/-! ## REC_START -/

section
variable {tag : Byte} {s u : State} {status : Status}

theorem answers_recStart_ok (ready : s.ready) (started : s.start .host s.rcd.noted = (u, .ok)) {clip : Clip}
    (held : u.rcd.clip = some clip) : Answers (.recStart tag []) .recStart tag s u .ok clip.startReply := by
  refine answers_ok ready rfl ⟨le_rfl, le_rfl⟩ rfl ?_ ?_
  · rw [takeRequest, reqRecStart, started]
    dsimp only
    rw [held]
    rfl
  · have kept := ((State.Keeps.refl s).start (source := .host) (serial := s.rcd.noted)).inbound
    rwa [started] at kept

/-- A start that is refused leaves its last-start entry alone. -/
theorem answers_recStart_refused (ready : s.ready) (refused : status ≠ .ok)
    (started : s.start .host s.rcd.noted = (s.withLastStart .host status s.rcd.noted, status)) :
    Answers (.recStart tag []) .recStart tag s (s.withLastStart .host status s.rcd.noted) status [] := by
  refine answers_taken (body := []) ready rfl le_rfl le_rfl rfl ?_ ready.2.1 (by cases status <;> rfl)
  rw [takeRequest, reqRecStart, started]
  exact if_neg fun ok => refused (beq_iff_eq.mp ok)

end

/-- Settles O36: what `State.start` answers in each state of the Recorder, with the clip record that then stands. -/
theorem recStartAnswered : Obligations.RecStartAnswered := by
  unfold Obligations.RecStartAnswered
  intro tag s ready answers reply
  refine ⟨fun standby => ?_, fun run => ⟨fun state clip held => ?_, fun state => ?_, fun state refused => ?_, fun state taken => ?_⟩⟩
  · exact answers_recStart_refused ready (by decide) (State.start_inStandby standby)
  · exact answers_recStart_ok ready (State.start_recording run state) held
  · exact answers_recStart_refused ready (by decide) (State.start_busy run state)
  · exact answers_recStart_refused ready refused ((State.start_standing run state).trans (if_neg refused))
  · obtain ⟨clip, held⟩ := s.clipBegun_clip s.rcd.noted
    exact ⟨clip, held, answers_recStart_ok ready ((State.start_standing run state).trans (if_pos taken)) held⟩

/-! ## SLOT_MODE (R114) -/

section
variable {tag : Byte} {s : State}

theorem slotModeFields_code (mode : SlotMode) (primary : Side) :
    slotModeAt (u8 mode.code ++ u8 primary.code) 0 = some mode ∧ sideAt (u8 mode.code ++ u8 primary.code) 1 = some primary := by
  cases mode <;> cases primary <;> exact ⟨rfl, rfl⟩

theorem slotModeAt_none {x : Byte} (above : 2 < x.toNat) (back : List Byte) : slotModeAt (x :: back) 0 = none := by
  unfold slotModeAt
  rw [num_head]
  split
  · omega
  · omega
  · omega
  · rfl

theorem sideAt_none (x : Byte) {y : Byte} (above : 1 < y.toNat) : sideAt [x, y] 1 = none := by
  have read : num [x, y] 1 1 = y.toNat := num_byte [x] y []
  unfold sideAt slotOfCode
  rw [read]
  split
  · omega
  · omega
  · rfl

theorem reqSlotMode_code (mode : SlotMode) (primary : Side) : reqSlotMode (u8 mode.code ++ u8 primary.code) s =
    if s.rcd.state = .standing then
      answerOk { s with rcd := { s.rcd with mode := mode, primary := primary } } (u8 mode.code ++ u8 primary.code)
    else refuse s .badState := by
  obtain ⟨modeRead, primaryRead⟩ := slotModeFields_code mode primary
  rw [reqSlotMode, modeRead, primaryRead]
  dsimp only
  by_cases standing : s.rcd.state = .standing
  · rw [if_pos standing, if_neg (by simp [standing])]
  · rw [if_neg standing, if_pos (bne_iff_ne.mpr standing)]

theorem reqSlotMode_bad {x y : Byte} (bad : 2 < x.toNat ∨ 1 < y.toNat) : reqSlotMode [x, y] s = refuse s .badValue := by
  unfold reqSlotMode
  rcases bad with mode | primary
  · rw [slotModeAt_none mode]
  · rw [sideAt_none x primary]
    split
    · next primaryRead => cases primaryRead
    · rfl

end

/-! ## REC_STOP and the REC line (R115, R118, R121) -/

section
variable {s : State}

theorem State.press_standing (run : s.pwc.inRun = true) (state : s.rcd.state = .standing) :
    s.press = s.startReported .line s.rcd.noted := by
  rw [State.press, run, state]
  rfl

theorem State.press_recording (run : s.pwc.inRun = true) (state : s.rcd.state = .recording) : s.press = s.stop s.rcd.noted := by
  rw [State.press, run, state]
  rfl

theorem State.press_busy (run : s.pwc.inRun = true) (state : s.rcd.state = .closing ∨ s.rcd.state = .retaining) :
    s.press = { s with rcd := { s.rcd with latch := true } } := by
  rw [State.press, run]
  rcases state with state | state <;> rw [state] <;> rfl

/-- A start from the REC line or from the latch: one that is refused is told with REC_STATE (R115, R118). -/
theorem State.startReported_of_start {source : StartSource} {n : Serial} {u : State} {status : Status}
    (started : s.start source n = (u, status)) :
    s.startReported source n = if status = .ok then u else u.reportRec .startRefused status.code 0 := by
  rw [State.startReported_eq, started]
  exact if_congr beq_iff_eq rfl rfl

theorem State.startReported_standing {source : StartSource} {n : Serial} (run : s.pwc.inRun = true)
    (state : s.rcd.state = .standing) : s.startReported source n =
      if s.startStatus = .ok then (s.clipBegun n).withLastStart source .ok n
      else (s.withLastStart source s.startStatus n).reportRec .startRefused s.startStatus.code 0 := by
  have started := State.start_standing (source := source) (n := n) run state
  by_cases taken : s.startStatus = .ok
  · rw [if_pos taken] at started ⊢
    exact State.startReported_of_start started
  · rw [if_neg taken] at started ⊢
    exact (State.startReported_of_start started).trans (if_neg taken)

end

/-- Settles O39: the requests by the state that each asks for, a press by what it stands for in each state. -/
theorem stopsAndPresses : Obligations.StopsAndPresses := by
  unfold Obligations.StopsAndPresses
  refine ⟨⟨fun f rest s works due => ?_, fun tag mode primary s ready => ?_⟩, fun tag s => ?_⟩
  · refine becomes_act (f := State.rcdStep) works rfl ?_
    rw [State.rcdStep, due]
  · intro c
    refine ⟨fun standing => ?_, fun unstanding => ?_, fun x y bad => ?_⟩
    · exact answers_ok ready rfl ⟨le_rfl, le_rfl⟩ rfl ((reqSlotMode_code mode primary).trans (if_pos standing)) rfl
    · exact answers_refused ready rfl ⟨le_rfl, le_rfl⟩ rfl ((reqSlotMode_code mode primary).trans (if_neg unstanding))
    · exact answers_refused ready rfl ⟨le_rfl, le_rfl⟩ rfl (reqSlotMode_bad bad)
  · intro n stopped
    have stops {clip : Clip} (state : s.rcd.state = .recording) (held : s.rcd.clip = some clip) : s.stop n = stopped clip :=
      State.stop_recording state held
    refine ⟨fun ready => ⟨fun clip state held => ?_, fun idle => ?_⟩, fun works run => ⟨fun clip state held => ?_, fun state => ?_,
      fun state taken => ?_, fun state refused => ?_⟩⟩
    · refine answers_ok ready rfl ⟨le_rfl, le_rfl⟩ rfl ?_ (stops state held ▸ ((State.Keeps.refl s).stop (serial := n)).inbound)
      rw [← stops state held, takeRequest, reqRecStop, state]
      rfl
    · refine answers_ok ready rfl ⟨le_rfl, le_rfl⟩ rfl ?_ rfl
      rw [takeRequest, reqRecStop, State.stop_idle idle, if_neg (by simpa using idle)]
      rfl
    · exact becomes_act (f := State.press) works rfl ((State.press_recording run state).trans (stops state held))
    · exact becomes_act (f := State.press) works rfl (State.press_busy run state)
    · exact becomes_act (f := State.press) works rfl
        ((State.press_standing run state).trans ((State.startReported_standing run state).trans (if_pos taken)))
    · exact becomes_act (f := State.press) works rfl
        ((State.press_standing run state).trans ((State.startReported_standing run state).trans (if_neg refused)))

end Sys2Proof.Machine

namespace Sys2Proof.Machine

/-! # The end of a clip (R118, R122, R123, R125) -/

/-! ## What the Recorder waits for -/

theorem side_eq_or_other (x side : Side) : x = side ∨ x = side.other := by
  cases x <;> cases side <;> decide

/-- A copy needs nothing more when it is absent, CLOSED or LOST. -/
theorem Clip.copyDone_iff (clip : Clip) (side : Side) :
    clip.copyDone side = true ↔ ∀ copy, clip.copies.get side = some copy → copy.state = .closed ∨ copy.state = .lost := by
  unfold Clip.copyDone Clip.copyState
  cases clip.copies.get side with
  | none => simp
  | some copy => cases state : copy.state <;> simp [state]

section
variable {s : State} {clip : Clip} {side : Side}

/-- The clip is not done while a unit of it is queued or a copy is WRITING or CLOSING (R122, R125). -/
theorem State.clipDone_iff : s.clipDone clip = true ↔
    ¬ ((∃ u ∈ s.bfm.queue, u.membership ≠ .ring) ∨
      ∃ side copy, clip.copies.get side = some copy ∧ (copy.state = .closing ∨ copy.state = .writing)) := by
  have queued : s.bfm.queue.any RecUnit.ofClip = true ↔ ∃ u ∈ s.bfm.queue, u.membership ≠ .ring := by
    simp [List.any_eq_true, RecUnit.ofClip_eq]
  have done (side : Side) : clip.copyDone side = true ↔
      ¬ ∃ copy, clip.copies.get side = some copy ∧ (copy.state = .closing ∨ copy.state = .writing) := by
    rw [Clip.copyDone_iff]
    push Not
    refine forall_congr' fun copy => imp_congr_right fun _ => ?_
    cases copy.state <;> decide
  rw [State.clipDone, Bool.and_eq_true, Bool.and_eq_true, done, done, Bool.not_eq_true', ← Bool.not_eq_true, queued, not_or]
  refine ⟨fun ⟨⟨unqueued, a⟩, b⟩ => ⟨unqueued, ?_⟩,
    fun ⟨unqueued, copies⟩ => ⟨⟨unqueued, fun a => copies ⟨.a, a⟩⟩, fun b => copies ⟨.b, b⟩⟩⟩
  rintro ⟨side, copy⟩
  cases side
  · exact a copy
  · exact b copy

theorem State.entryRemains_iff : s.entryRemains clip = true ↔ ∃ e, clip.last = some e ∧
    ((∃ x ∈ s.bfm.entries, olderOrSame x.serial e = true) ∨ ∃ f ∈ s.due.bfm, f.inRun = true ∧ olderOrSame f.serial e = true) := by
  unfold State.entryRemains
  cases clip.last <;> simp [List.any_eq_true]

/-! ## The copies are told their last unit -/

theorem CardSlot.lastTaken_eq (c : CardSlot) : c.lastTaken = c.copy.bind WriterCopy.lastTaken := by
  unfold CardSlot.lastTaken
  cases c.copy <;> rfl

theorem State.newestUnit_eq (s : State) (side : Side) : s.newestUnit side =
    match ((s.bfm.queue.filter (fun u => u.membership != .ring)).getLast?).map RecUnit.serial,
        (s.slot side).copy.bind WriterCopy.lastTaken with
     | some q, some x => .unit (if newer x q then x else q)
     | some q, none => .unit q
     | none, some x => .unit x
     | none, none => .nothing := by
  unfold State.newestUnit
  rw [CardSlot.lastTaken_eq, show RecUnit.ofClip = fun u => u.membership != .ring from funext RecUnit.ofClip_eq] <;> rfl

theorem Clip.copyState_writing : (clip.copyState side == some .writing) = true ↔
    ∃ copy, clip.copies.get side = some copy ∧ copy.state = .writing := by
  rw [beq_iff_eq, Clip.copyState, Option.map_eq_some_iff]

theorem State.tellLast_idle (idle : ∀ copy, clip.copies.get side = some copy → copy.state ≠ .writing)
    (begun : s.rcd.clip = some clip) : s.tellLast side = s := by
  unfold State.tellLast
  rw [begun]
  refine if_neg fun writing => ?_
  obtain ⟨copy, held, state⟩ := Clip.copyState_writing.mp writing
  exact idle copy held state

theorem State.closeCopy_held (begun : s.rcd.clip = some clip) {copy : Copy} (held : clip.copies.get side = some copy)
    (last : LastUnit) : s.closeCopy side last = (s.modifyClip (fun clip => { clip with
      copies := clip.copies.set side (some { copy with state := .closing }) })).nameLast side last := by
  refine congrArg (·.nameLast side last) (State.modifyClip_congr begun ?_)
  rw [Clip.modifyCopy, held]
  rfl

theorem State.tellLast_writing (begun : s.rcd.clip = some clip) {copy : Copy} (held : clip.copies.get side = some copy)
    (state : copy.state = .writing) : s.tellLast side = (s.modifyClip (fun clip => { clip with
      copies := clip.copies.set side (some { copy with state := .closing }) })).nameLast side (s.newestUnit side) := by
  rw [← State.closeCopy_held begun held]
  unfold State.tellLast
  rw [begun]
  exact if_pos (Clip.copyState_writing.mpr ⟨copy, held, state⟩)

/-- The clip record once the copy on a slot, if it is WRITING, has been told its last unit. -/
def Clip.told (clip : Clip) (side : Side) : Clip :=
  if clip.copyState side == some .writing then clip.modifyCopy side (fun copy => { copy with state := .closing }) else clip

theorem State.tellLast_told (begun : s.rcd.clip = some clip) (side : Side) :
    (s.tellLast side).rcd.clip = some (clip.told side) ∧ (s.tellLast side).bfm = s.bfm := by
  unfold State.tellLast Clip.told
  rw [begun]
  dsimp only
  split
  · have named := CardsOnly.nameLast
      (s.modifyClip (fun clip => clip.modifyCopy side (fun copy => { copy with state := .closing }))) side (s.newestUnit side)
    refine ⟨(congrArg Rcd.clip named.rcd).trans ?_, named.bfm⟩
    rw [State.modifyClip_rcd, begun]
    rfl
  · exact ⟨begun, rfl⟩

/-- A copy that is told its last unit needs as much more as before: a WRITING one turns CLOSING. -/
theorem Clip.copyDone_told (clip : Clip) (side x : Side) : (clip.told side).copyDone x = clip.copyDone x := by
  unfold Clip.told
  split
  · next writing =>
    obtain ⟨copy, held, state⟩ := Clip.copyState_writing.mp writing
    unfold Clip.copyDone Clip.copyState Clip.modifyCopy
    rcases side_eq_or_other x side with rfl | rfl
    · rw [Two.get_set_same, held, Option.map_some, Option.map_some, Option.map_some, state]
    · rw [Two.get_set_other]
  · rfl

theorem Clip.reason_told (clip : Clip) (side : Side) : (clip.told side).reason = clip.reason := by
  unfold Clip.told
  split <;> rfl

/-- Both copies are told, and the clip ends when it was done before (R122, R123). -/
theorem State.watchClip_closing (begun : s.rcd.clip = some clip) (state : s.rcd.state = .closing)
    (none : s.entryRemains clip = false) : s.watchClip =
      if s.clipDone clip then ((s.tellLast .a).tellLast .b).endClip (clip.reason.getD .stopped)
      else (s.tellLast .a).tellLast .b := by
  obtain ⟨toldA, bfmA⟩ := State.tellLast_told begun .a
  obtain ⟨toldB, bfmB⟩ := State.tellLast_told toldA .b
  unfold State.watchClip
  rw [begun, state]
  dsimp only
  rw [none, toldB]
  dsimp only
  rw [State.clipDone, bfmB, bfmA, Clip.copyDone_told, Clip.copyDone_told, Clip.copyDone_told, Clip.copyDone_told,
    Clip.reason_told, Clip.reason_told]
  rfl

theorem State.watchClip_remains (begun : s.rcd.clip = some clip) (state : s.rcd.state = .closing)
    (remains : s.entryRemains clip = true) : s.watchClip = s := by
  unfold State.watchClip
  rw [begun, state]
  exact if_pos remains

theorem State.watchClip_retaining (begun : s.rcd.clip = some clip) (state : s.rcd.state = .retaining) :
    s.watchClip = if s.clipDone clip then s.endClip (clip.reason.getD .retained) else s := by
  unfold State.watchClip
  rw [begun, state]

end

/-! ## The clip ends -/

/-- One more ending with a reason (R132). -/
def EndCounts.plus (k : EndCounts) (reason : EndReason) : EndCounts :=
  match reason with
  | .stopped => { k with stopped := min 65535 (k.stopped + 1) }
  | .cardFull => { k with cardFull := min 65535 (k.cardFull + 1) }
  | .aborted => { k with aborted := min 65535 (k.aborted + 1) }
  | .retained => { k with retained := min 65535 (k.retained + 1) }

/-- The ending is counted and reported, the clip record and the latch are gone (R122, R125). -/
def State.ended (s : State) (reason : EndReason) : State :=
  let u := ({ s with
    rcd := { s.rcd with state := .standing, endings := s.rcd.endings.plus reason }
    bfm := { s.bfm with gapPending := false } } : State).reportRec reason.report 0 0
  { u with rcd := { u.rcd with clip := none, latch := false } }

/-- A clip ends, and a set latch starts the next one (R118). -/
theorem State.endClip_eq (s : State) (reason : EndReason) : s.endClip reason =
    if s.rcd.latch = false then s.ended reason
    else (s.ended reason).startReported .latch (s.ended reason).rcd.noted := by
  cases latch : s.rcd.latch with
  | false =>
    have quiet : s.ended reason = { s.ended reason with rcd := { (s.ended reason).rcd with latch := s.rcd.latch } } := by
      rw [latch]
      rfl
    rw [if_pos rfl, quiet]
    unfold State.endClip
    dsimp only
    rw [if_neg (by rw [State.reportRec, State.notify]; simp [latch])]
    cases reason <;> rfl
  | true =>
    rw [if_neg (by decide)]
    unfold State.endClip
    dsimp only
    rw [if_pos (by rw [State.reportRec, State.notify]; exact latch)]
    cases reason <;> rfl

/-- What the latch's start makes of a clip that has ended. -/
theorem State.ended_startReported (s : State) (reason : EndReason) :
    let u := s.ended reason
    let status : Status := if s.pwc.inRun then u.startStatus else .badState
    u.startReported .latch u.rcd.noted =
      if status = .ok then (u.clipBegun u.rcd.noted).withLastStart .latch .ok u.rcd.noted
      else (u.withLastStart .latch status u.rcd.noted).reportRec .startRefused status.code 0 := by
  intro u status
  by_cases run : s.pwc.inRun = true
  · have judged : status = u.startStatus := if_pos run
    rw [judged]
    exact State.startReported_standing (s := u) run rfl
  · have judged : status = .badState := if_neg run
    rw [judged]
    exact State.startReported_of_start (State.start_inStandby (v := u) (Bool.eq_false_iff.mpr run))

/-- Settles O40: what the Recorder waits for, the telling of the copies, and the ending, in CLOSING and in RETAINING. -/
theorem clipCloses : Obligations.ClipCloses := by
  unfold Obligations.ClipCloses
  refine ⟨fun clip s begun => ?_, fun clip side s begun => ?_⟩
  · intro writing busy up counted ended
    have ends (reason : EndReason) : s.endClip reason = ended reason := by
      rw [State.endClip_eq, State.ended_startReported]
      rfl
    have done : s.clipDone clip = true ↔ ¬ busy := State.clipDone_iff
    refine ⟨fun state => ?_, fun state => ?_⟩
    · intro remains
      have waits : s.entryRemains clip = true ↔ remains := State.entryRemains_iff
      have closes (none : ¬ remains) := State.watchClip_closing begun state (Bool.eq_false_iff.mpr fun is => none (waits.mp is))
      have idle (unwriting : ¬ writing) : (s.tellLast .a).tellLast .b = s := by
        have tells (side : Side) : s.tellLast side = s :=
          State.tellLast_idle (fun copy held is => unwriting ⟨side, copy, held, is⟩) begun
        rw [tells, tells]
      refine ⟨fun is => State.watchClip_remains begun state (waits.mpr is), fun none is => ?_, fun none unwriting is => ?_,
        fun reason none unwriting idleClip given => ?_⟩
      · obtain ⟨side, copy, held, state⟩ := is
        exact (closes none).trans (if_neg fun is => done.mp is (.inr ⟨side, copy, held, .inr state⟩))
      · rw [closes none, if_neg fun finished => done.mp finished is, idle unwriting]
      · rw [closes none, if_pos (done.mpr idleClip), idle unwriting, given]
        exact ends reason
    · have retains := State.watchClip_retaining begun state
      exact ⟨fun is => retains.trans (if_neg fun finished => done.mp finished is),
        fun idleClip => retains.trans ((if_pos (done.mpr idleClip)).trans (ends _))⟩
  · refine ⟨fun idle => State.tellLast_idle idle begun, fun copy held state => ?_⟩
    exact (State.tellLast_writing begun held state).trans (congrArg (State.nameLast _ side) (s.newestUnit_eq side))

end Sys2Proof.Machine

namespace Sys2Proof.Machine

/-! # The writer at work (R146 to R149)

Whatever the writer does, it leaves the other slot alone, the copy keeps its number, its start and its count of units, and the room on
its card changes only where an extent becomes current. -/

/-! ## The other slot -/

theorem State.judgeNearFull_other (s : State) (side : Side) : (s.judgeNearFull side).slot side.other = s.slot side.other := by
  unfold State.judgeNearFull
  dsimp only
  split
  · rfl
  · split
    · exact State.slot_setSlot_other ..
    · split
      · rfl
      · exact State.slot_setSlot_other ..

theorem State.openExtent_other (s : State) (side : Side) : (s.openExtent side).slot side.other = s.slot side.other := by
  unfold State.openExtent
  dsimp only
  split
  · rw [State.judgeNearFull_other, State.judgeFull_other, State.slot_setSlot_other]
  · rfl

/-! ## An extent becomes current -/

/-- What the room on a card is judged by, besides the summary: a slot that agrees in it is judged alike. -/
theorem State.extentUsed_setSlot (s : State) (side : Side) {c : CardSlot} (state : c.state = (s.slot side).state)
    (threshold : c.threshold = (s.slot side).threshold) (nearFull : c.nearFull = (s.slot side).nearFull)
    (sizes : c.sizes = (s.slot side).sizes) (sum : Summary) : (s.setSlot side c).extentUsed side sum = s.extentUsed side sum := by
  unfold State.extentUsed
  dsimp only
  rw [State.roomJudged_setSlot s side state, State.slot_setSlot_same, threshold, nearFull, sizes]
  rfl

/-- The copy whose current extent has been closed (R146, R147). -/
def WriterCopy.closed (copy : WriterCopy) (sum : Summary) : WriterCopy :=
  { copy with
    current := none
    ready := match copy.current with
      | some cur => if cur.chunk.bytes = [] then copy.ready else some cur.chunk
      | none => copy.ready
    owedIndex := copy.owedIndex ++ (match copy.current with
      | some cur => if cur.listed = [] then [] else
          [{ extent := cur.chunk.extent, formatNumber := sum.header.formatNumber, clip := copy.clip, start := copy.start,
             entries := cur.listed }]
      | none => []) }

/-- The copy whose current extent is the next free one (R146). -/
def WriterCopy.next (copy : WriterCopy) (sum : Summary) : WriterCopy :=
  { copy.closed sum with
    consumed := copy.consumed + 1
    current := some { chunk := .empty sum.nextFree 1, listed := [] } }

theorem WriterCopy.closed_none {copy : WriterCopy} (none : copy.current = none) (sum : Summary) : copy.closed sum = copy := by
  unfold WriterCopy.closed
  rcases copy
  subst none
  simp only [List.append_nil]

theorem CardSlot.closeExtent_eq {c : CardSlot} {sum : Summary} {copy : WriterCopy} (card : c.summary = some sum)
    (held : c.copy = some copy) : c.closeExtent = { c with copy := some (copy.closed sum) } := by
  unfold CardSlot.closeExtent
  rw [held]
  dsimp only
  cases current : copy.current with
  | none => rw [WriterCopy.closed_none current, ← held]
  | some cur =>
    unfold CardSlot.closingBlock WriterCopy.closed
    rw [card, current]
    simp only [List.isEmpty_iff]
    rfl

theorem CardSlot.closeExtent_none {c : CardSlot} (none : c.copy.bind WriterCopy.current = none) : c.closeExtent = c := by
  unfold CardSlot.closeExtent
  split
  · rfl
  · next copy held =>
    rw [held, Option.bind_some] at none
    rw [none]

section
variable {s : State} {side : Side} {sum : Summary} {copy : WriterCopy}

/-- The current extent, if there is one, is closed, and the next free one becomes current. -/
def State.nextExtent (s : State) (side : Side) : State := (s.setSlot side (s.slot side).closeExtent).openExtent side

/-- The slot and LNK once the next free extent is current (R146, R149). -/
theorem State.nextExtent_eq (card : (s.slot side).summary = some sum) (held : (s.slot side).copy = some copy) :
    (s.nextExtent side).slot side = { s.slot side with
      state := (s.extentUsed side sum).1
      nearFull := (s.extentUsed side sum).2.1
      summary := some { sum with nextFree := sum.nextFree + 1 }
      copy := some (copy.next sum) } ∧
    (s.nextExtent side).lnk = (s.extentUsed side sum).2.2 := by
  have same : (s.setSlot side { s.slot side with copy := some (copy.closed sum) }).extentUsed side sum = s.extentUsed side sum :=
    State.extentUsed_setSlot (c := { s.slot side with copy := some (copy.closed sum) }) s side rfl rfl rfl rfl sum
  have consumes := State.openExtent_consumes (s.setSlot side { s.slot side with copy := some (copy.closed sum) }) side
    (sum := sum) (copy := copy.closed sum) (by rw [State.slot_setSlot_same]; exact card) (by rw [State.slot_setSlot_same])
  rw [same, State.slot_setSlot_same] at consumes
  rw [State.nextExtent, CardSlot.closeExtent_eq card held]
  exact consumes

/-- The judgement of the room and of the near-full flag, taken together. -/
theorem State.nextExtent_judged (card : (s.slot side).summary = some sum) (held : (s.slot side).copy = some copy) :
    (((s.nextExtent side).slot side).state, ((s.nextExtent side).slot side).nearFull, (s.nextExtent side).lnk) =
      s.extentUsed side sum := by
  obtain ⟨slot, lnk⟩ := State.nextExtent_eq card held
  rw [slot, lnk]

theorem State.openExtent_first (none : (s.slot side).copy.bind WriterCopy.current = none) :
    s.openExtent side = s.nextExtent side := by
  rw [State.nextExtent, CardSlot.closeExtent_none none, State.setSlot_slot]

/-! ## A unit in hand (R146) -/

/-- Without a current extent, or when the area of the current one is full, the next free extent becomes current. -/
theorem State.writerWork_extent {r : Rest} (held : (s.slot side).copy = some copy) (idle : copy.ready = none)
    (inHand : copy.rest = some r) (full : ∀ cur, copy.current = some cur → 16 ≤ cur.chunk.chunk) :
    s.writerWork side = some (s.nextExtent side) := by
  unfold State.writerWork
  dsimp only
  rw [held]
  dsimp only
  rw [idle, inHand]
  cases current : copy.current with
  | none => exact congrArg some (State.openExtent_first (by rw [held]; exact current))
  | some cur => exact if_pos (decide_eq_true (full cur current))

/-- Otherwise bytes of the unit go into the current chunk. -/
theorem State.writerWork_append {r : Rest} {cur : CurrentExtent} (held : (s.slot side).copy = some copy) (idle : copy.ready = none)
    (inHand : copy.rest = some r) (current : copy.current = some cur) (fits : cur.chunk.chunk < 16) :
    s.writerWork side = some (s.setSlot side { s.slot side with copy := some (copy.append cur r) }) := by
  have area : cur.areaFull = false := decide_eq_false (by omega)
  unfold State.writerWork
  dsimp only
  rw [held]
  dsimp only
  rw [idle, inHand, current]
  dsimp only
  rw [area]
  rfl

/-- The bytes that fit go into the chunk; a full chunk is ready, and the next one begun. -/
theorem WriterCopy.append_eq (cur : CurrentExtent) (r : Rest) (idle : copy.ready = none) :
    let n := min (262144 - cur.chunk.bytes.length) r.bytes.length
    let whole := n = r.bytes.length
    let chunk : Chunk := { cur.chunk with
      bytes := cur.chunk.bytes ++ r.bytes.take n
      units := if r.serial ∈ cur.chunk.units then cur.chunk.units else cur.chunk.units ++ [r.serial]
      ends := if whole then cur.chunk.ends ++ [(r.serial, r.size)] else cur.chunk.ends }
    let full := 262144 ≤ chunk.bytes.length
    copy.append cur r = { copy with
      rest := if whole then none else some { r with bytes := r.bytes.drop n }
      ready := if full then some chunk else none
      current := some { cur with chunk := if full then
          { extent := chunk.extent, chunk := chunk.chunk + 1, bytes := [], units := [], ends := [] } else chunk } } := by
  unfold WriterCopy.append
  simp only [beq_iff_eq, List.contains_iff_mem, decide_eq_true_eq, idle]
  rfl

end

end Sys2Proof.Machine

namespace Sys2Proof.Machine

/-! ## What the writer's own work can do -/

/-- What a copy keeps while the writer works on it: its number, its start, the count of its units and the last one taken. -/
def WriterCopy.account (copy : WriterCopy) : Nat × Nat × Nat × Option Serial := (copy.clip, copy.start, copy.placed, copy.lastTaken)

/-- `c'` is `c` after work in which no extent becomes current. -/
structure CardSlot.Works (c c' : CardSlot) : Prop where
  state : c'.state = c.state
  summary : ∀ sum, c.summary = some sum →
    ∃ entries, c'.summary = some { sum with entries := entries } ∧ entries.length = sum.entries.length
  copy : c'.copy.map WriterCopy.account = c.copy.map WriterCopy.account

theorem CardSlot.Works.of_same {c c' : CardSlot} (kept : c'.summary = c.summary ∧ c'.state = c.state)
    (copy : c'.copy.map WriterCopy.account = c.copy.map WriterCopy.account) : c.Works c' :=
  ⟨kept.2, fun sum card => ⟨sum.entries, kept.1.trans card, rfl⟩, copy⟩

theorem CardSlot.Works.refl (c : CardSlot) : c.Works c := .of_same ⟨rfl, rfl⟩ rfl

theorem CardSlot.Works.closeExtent (c : CardSlot) : c.Works c.closeExtent := by
  refine .of_same c.closeExtent_keeps ?_
  unfold CardSlot.closeExtent
  split
  · rfl
  · next held =>
    rw [held]
    split
    · rw [held]
    · rfl

theorem CardSlot.Works.fillPlace {c c' : CardSlot} (filled : c.fillPlace = some c') : c.Works c' := by
  refine .of_same (CardSlot.fillPlace_keeps filled) ?_
  unfold CardSlot.fillPlace at filled
  split at filled
  · cases filled
  · split at filled
    · cases filled; rfl
    · split at filled
      · cases filled
      · next held =>
        split at filled
        · cases filled; rw [held]; rfl
        · split at filled
          · cases filled; rw [held]; rfl
          · cases filled

theorem CardSlot.Works.issue (c : CardSlot) : c.Works c.issue := by
  obtain ⟨flying, issued⟩ := c.issue_eq
  rw [issued]
  exact .of_same ⟨rfl, rfl⟩ rfl

theorem CardSlot.Works.closeEntry {c : CardSlot} {copy : WriterCopy} (held : c.copy = some copy) : c.Works (c.closeEntry copy) where
  state := rfl
  summary sum card := by
    refine ⟨_, congrArg (Option.map _) card, ?_⟩
    exact List.length_map _
  copy := by rw [held]; rfl

/-- One piece of the writer's work, after which the next free extent may become current. -/
theorem State.writerWork_cases {u v : State} {side : Side} (worked : u.writerWork side = some v) :
    ∃ c', (u.slot side).Works c' ∧ (v = u.setSlot side c' ∨ v = (u.setSlot side c').openExtent side) := by
  unfold State.writerWork at worked
  dsimp only at worked
  split at worked
  · cases worked
  · next copy held =>
    split at worked
    · cases worked
    · split at worked
      · split at worked
        · cases worked
          exact ⟨_, .closeExtent _, .inr rfl⟩
        · cases worked
          refine ⟨_, ?_, .inl rfl⟩
          exact .of_same ⟨rfl, rfl⟩ (by rw [held]; rfl)
      · cases worked
        exact ⟨u.slot side, .refl _, .inr (by rw [State.setSlot_slot])⟩
      · split at worked
        · split at worked
          · cases worked
            have closed := CardSlot.Works.closeExtent (u.slot side)
            refine ⟨_, ?_, .inl rfl⟩
            refine ⟨closed.state, closed.summary, Eq.trans ?_ closed.copy⟩
            rw [Option.map_map]
            rfl
          · cases worked
        · split at worked
          · cases worked
            exact ⟨_, .closeEntry held, .inl rfl⟩
          · cases worked
        · cases worked

/-- What no piece of work ends, and no extent that becomes current, the writer keeps. -/
theorem State.runWriter_keeps {P : State → Prop} {side : Side}
    (work : ∀ u c', P u → (u.slot side).Works c' → P (u.setSlot side c')) (extent : ∀ u, P u → P (u.openExtent side)) {s : State}
    (h : P s) : P (s.runWriter side) := by
  have loop : ∀ fuel u, P u → P (State.writerLoop fuel side u) := by
    intro fuel
    induction fuel with
    | zero => exact fun _ h => h
    | succ fuel ih =>
      intro u h
      unfold State.writerLoop
      split
      · next v worked =>
        obtain ⟨c', works, rfl | rfl⟩ := State.writerWork_cases worked
        · exact ih _ (work u c' h works)
        · exact ih _ (extent _ (work u c' h works))
      · split
        · next c' filled => exact ih _ (work u c' h (.fillPlace filled))
        · exact h
  exact work _ _ (loop 64 s h) (.issue _)

/-- An extent becomes current only where there are a summary and a copy. -/
theorem State.openExtent_idle {s : State} {side : Side}
    (idle : ∀ sum copy, (s.slot side).summary = some sum → (s.slot side).copy ≠ some copy) : s.openExtent side = s := by
  unfold State.openExtent
  dsimp only
  split
  · next sum copy card held => exact absurd held (idle sum copy card)
  · rfl

/-- An extent that becomes current does so on a card with a summary, for a copy (R146, R149). -/
theorem State.openExtent_cases (s : State) (side : Side) : s.openExtent side = s ∨
    ∃ sum copy, (s.slot side).summary = some sum ∧ (s.slot side).copy = some copy := by
  by_cases busy : ∃ sum copy, (s.slot side).summary = some sum ∧ (s.slot side).copy = some copy
  · exact .inr busy
  · exact .inl (State.openExtent_idle fun sum copy card held => busy ⟨sum, copy, card, held⟩)

theorem State.openExtent_account (s : State) (side : Side) :
    ((s.openExtent side).slot side).copy.map WriterCopy.account = (s.slot side).copy.map WriterCopy.account := by
  rcases s.openExtent_cases side with same | ⟨sum, copy, card, held⟩
  · rw [same]
  · rw [(State.openExtent_consumes s side card held).1, held]
    rfl

/-- The writer keeps the copy's account, and leaves the other slot alone. -/
theorem State.runWriter_account (s : State) (side : Side) :
    ((s.runWriter side).slot side).copy.map WriterCopy.account = (s.slot side).copy.map WriterCopy.account ∧
      (s.runWriter side).slot side.other = s.slot side.other := by
  refine State.runWriter_keeps (P := fun v => (v.slot side).copy.map WriterCopy.account = (s.slot side).copy.map WriterCopy.account ∧
    v.slot side.other = s.slot side.other) ?_ ?_ ⟨rfl, rfl⟩
  · rintro u c' ⟨copy, other⟩ works
    rw [State.slot_setSlot_same, State.slot_setSlot_other]
    exact ⟨works.copy.trans copy, other⟩
  · rintro u ⟨copy, other⟩
    exact ⟨(u.openExtent_account side).trans copy, (u.openExtent_other side).trans other⟩

/-! ## The room on the card while the writer works (R149) -/

/-- A source's state after an occurrence whose every byte is stated (R178). -/
def SourceState.occurred (st : SourceState) (latest : Serial) (detail : List Byte) : SourceState :=
  if !st.enabled then st
  else if st.pending then { st with count := bump 255 st.count 1 }
  else { st with pending := true, count := 1, sent := false, record := some { detail := detail, serial := latest } }

theorem fillDetail_stated (detail : List Byte) : ∀ drawn, (fillDetail drawn (detail.map some)).1 = detail := by
  induction detail with
  | nil => exact fun _ => rfl
  | cons b rest ih => exact fun drawn => congrArg (b :: ·) (ih drawn)

theorem Lnk.table_modifySource_number (lnk : Lnk) (src x : Source) (f : SourceState → SourceState) :
    (lnk.modifySource src f).table[x.number]? =
      if x = src then (lnk.table[x.number]?).map f else lnk.table[x.number]? := by
  rw [Lnk.modifySource, getElem?_modifyAt]
  exact if_congr ⟨Source.number_inj, congrArg Source.number⟩ rfl rfl

/-- An occurrence is its own source's alone. -/
theorem Lnk.occur_table_of_ne (lnk : Lnk) (latest : Serial) {src x : Source} (ne : x ≠ src) (detail : List (Option Byte)) :
    (lnk.occur latest src detail).table[x.number]? = lnk.table[x.number]? := by
  have modified (f : SourceState → SourceState) : (lnk.modifySource src f).table[x.number]? = lnk.table[x.number]? :=
    (lnk.table_modifySource_number src x f).trans (if_neg ne)
  unfold Lnk.occur
  dsimp only
  split
  · rfl
  · split
    · exact modified _
    · exact modified _

/-- What the table holds for a source after its occurrence. -/
theorem Lnk.occur_table (lnk : Lnk) (latest : Serial) (src : Source) (detail : List Byte) :
    (lnk.occur latest src (detail.map some)).table[src.number]? =
      (lnk.table[src.number]?).map (fun st => st.occurred latest detail) := by
  have modified (f : SourceState → SourceState) :
      (lnk.modifySource src f).table[src.number]? = (lnk.table[src.number]?).map f :=
    (lnk.table_modifySource_number src src f).trans (if_pos rfl)
  unfold Lnk.occur SourceState.occurred
  dsimp only
  rw [fillDetail_stated]
  cases held : lnk.table[src.number]? with
  | none =>
    have gone (f : SourceState → SourceState) : (lnk.modifySource src f).table[src.number]? = none := by rw [modified, held]; rfl
    split
    · exact held
    · split
      · exact gone _
      · exact gone _
  | some st =>
    have here : lnk.source src = st := by rw [Lnk.source, held]; rfl
    rw [here, Option.map_some]
    split
    · exact held
    · split
      · rw [modified, held]; rfl
      · exact (modified _).trans (by rw [held]; rfl)

theorem Lnk.source_of_table {lnk lnk' : Lnk} {src : Source} (same : lnk'.table[src.number]? = lnk.table[src.number]?) :
    lnk'.source src = lnk.source src := by
  rw [Lnk.source, Lnk.source, same]

section
variable {s v : State} {side : Side} {sum : Summary}

/-- The near-full notice leaves what the table holds for CARD_FULL. -/
theorem State.extentUsed_table (v : State) (side : Side) (sum : Summary) :
    (v.extentUsed side sum).2.2.table[Source.cardFull.number]? =
      (v.roomJudged side sum.header.label (sum.header.extents - (sum.nextFree + 1)) sum.entries.length).2.table[Source.cardFull.number]? := by
  unfold State.extentUsed
  dsimp only
  split
  · exact Lnk.occur_table_of_ne _ _ (by decide) _
  · rfl

/-- The room on the card of a slot that was READY in `s`, with `sum` its summary, while the writer works: READY while an extent is
free, and then FULL, with CARD_FULL told once. -/
structure State.Room (s : State) (side : Side) (sum : Summary) (v : State) : Prop where
  ftb : v.ftb = s.ftb
  left : ∃ sum', (v.slot side).summary = some sum' ∧ sum'.header = sum.header ∧ sum'.entries.length = sum.entries.length ∧
    (sum'.nextFree < sum.header.extents → (v.slot side).state = .ready ∧
      v.lnk.table[Source.cardFull.number]? = s.lnk.table[Source.cardFull.number]?) ∧
    (sum.header.extents ≤ sum'.nextFree → (v.slot side).state = .full ∧
      v.lnk.table[Source.cardFull.number]? =
        (s.report .cardFull (u8 side.code ++ sum.header.label.take 15)).lnk.table[Source.cardFull.number]?)

theorem State.Room.setSlot (room : State.Room s side sum v) {c' : CardSlot} (works : (v.slot side).Works c') :
    State.Room s side sum (v.setSlot side c') := by
  obtain ⟨ftb, sum', card, header, length, free, full⟩ := room
  obtain ⟨entries, card', length'⟩ := works.summary sum' card
  refine ⟨ftb, { sum' with entries := entries }, ?_, header, length'.trans length, ?_, ?_⟩
  · rw [State.slot_setSlot_same]
    exact card'
  · rw [State.slot_setSlot_same, works.state]
    exact free
  · rw [State.slot_setSlot_same, works.state]
    exact full

theorem State.Room.openExtent (room : State.Room s side sum v) (few : sum.entries.length < 999) :
    State.Room s side sum (v.openExtent side) := by
  rcases v.openExtent_cases side with same | ⟨sum', copy, card, held⟩
  · rwa [same]
  obtain ⟨ftb, sum'', card', header, length, free, full⟩ := room
  obtain rfl : sum'' = sum' := Option.some.inj (card'.symm.trans card)
  obtain ⟨slot, lnk⟩ := State.openExtent_consumes v side card held
  have state : ((v.openExtent side).slot side).state =
      (v.roomJudged side sum.header.label (sum.header.extents - (sum''.nextFree + 1)) sum.entries.length).1 := by
    rw [slot, ← header, ← length]
    rfl
  have table : (v.openExtent side).lnk.table[Source.cardFull.number]? =
      (v.roomJudged side sum.header.label (sum.header.extents - (sum''.nextFree + 1)) sum.entries.length).2.table[Source.cardFull.number]? := by
    rw [lnk, State.extentUsed_table, header, length]
  refine ⟨(CardsOnly.openExtent v side).ftb.trans ftb, { sum'' with nextFree := sum''.nextFree + 1 }, by rw [slot], header, length,
    fun (someFree : sum''.nextFree + 1 < sum.header.extents) => ?_, fun (noneFree : sum.header.extents ≤ sum''.nextFree + 1) => ?_⟩
  · rw [state, table]
    obtain ⟨ready, told⟩ := free (by omega)
    rw [State.roomJudged, if_neg (by omega)]
    exact ⟨ready, told⟩
  · rw [state, table]
    by_cases before : sum''.nextFree < sum.header.extents
    · obtain ⟨ready, told⟩ := free before
      have last : sum.header.extents - (sum''.nextFree + 1) = 0 := by omega
      rw [State.roomJudged, last, if_pos ⟨ready, .inl rfl⟩]
      refine ⟨rfl, ?_⟩
      rw [if_pos rfl, Nat.add_zero, State.report_lnk, State.report_lnk, Lnk.occur_table, Lnk.occur_table, ftb, told]
    · obtain ⟨isFull, told⟩ := full (by omega)
      rw [State.roomJudged, if_neg (by rw [isFull]; rintro ⟨ready, _⟩; cases ready)]
      exact ⟨isFull, told⟩

/-- A READY slot stays READY while an extent is free; with the last one it becomes FULL, and CARD_FULL is told (R149). -/
theorem State.runWriter_ready (card : (s.slot side).summary = some sum) (ready : (s.slot side).state = .ready)
    (free : sum.nextFree < sum.header.extents) (few : sum.entries.length < 999) : State.Room s side sum (s.runWriter side) :=
  State.runWriter_keeps (P := State.Room s side sum) (fun _ _ room works => room.setSlot works)
    (fun _ room => room.openExtent few)
    ⟨rfl, sum, card, rfl, rfl, fun _ => ⟨ready, rfl⟩, fun noneFree => absurd free (by omega)⟩

/-- The state of a slot that is not READY stands (R149). -/
theorem State.runWriter_unready (unready : (s.slot side).state ≠ .ready) :
    ((s.runWriter side).slot side).state = (s.slot side).state := by
  refine State.runWriter_keeps (P := fun v => (v.slot side).state = (s.slot side).state) ?_ ?_ rfl
  · intro u c' same works
    rw [State.slot_setSlot_same]
    exact works.state.trans same
  · intro u same
    rcases u.openExtent_cases side with idle | ⟨sum, copy, card, held⟩
    · rwa [idle]
    · rw [(State.openExtent_consumes u side card held).1]
      change (u.roomJudged side sum.header.label (sum.header.extents - (sum.nextFree + 1)) sum.entries.length).1 = _
      rw [State.roomJudged, if_neg fun is => unready (same ▸ is.1)]
      exact same

end

end Sys2Proof.Machine

namespace Sys2Proof.Machine

/-! # Taking a unit (R126, R146) -/

section
variable {s : State} {side : Side} {sum : Summary} {copy : WriterCopy} {u : RecUnit}

/-! ## Whether a unit is taken -/

theorem State.takeNext_idle (idle : (s.slot side).takes = false ∨ s.nextUnit side = none) : s.takeNext side = s := by
  unfold State.takeNext
  rcases idle with busy | nothing
  · rw [busy]
    rfl
  · rw [nothing]
    split <;> rfl

theorem State.takeNext_unit (takes : (s.slot side).takes = true) (next : s.nextUnit side = some u) : s.takeNext side =
    if u.cardSize ≤ (s.slot side).capacity then ((s.takeUnit side u).recordTaken side u.serial).review
    else s.endOfCard side u.serial := by
  unfold State.takeNext
  rw [takes, next]
  rfl

/-- The bytes left in the current extent and in the free ones (R126). -/
theorem CardSlot.capacity_eq {c : CardSlot} (card : c.summary = some sum) (held : c.copy = some copy) : c.capacity =
    (match copy.current with
      | some cur => if cur.listed.length < 255 then (16 - cur.chunk.chunk) * 262144 - cur.chunk.bytes.length else 0
      | none => 0) + (sum.header.extents - sum.nextFree) * 3932160 := by
  unfold CardSlot.capacity
  rw [card, held, Option.bind_some]
  refine congrArg (· + (sum.header.extents - sum.nextFree) * 3932160) ?_
  cases copy.current with
  | none => rfl
  | some cur =>
    dsimp only
    by_cases full : 255 ≤ cur.listed.length
    · rw [if_pos full, if_neg (by omega)]
    · rw [if_neg full, if_pos (by omega)]
      rfl

/-! ## The extent that the unit is listed in (R146 steps 1 and 2) -/

/-- An extent becomes current for the next unit. -/
def WriterCopy.opensExtent (copy : WriterCopy) : Bool :=
  match copy.current with
  | some cur => decide (255 ≤ cur.listed.length ∨ 16 ≤ cur.chunk.chunk)
  | none => true

theorem State.readyExtent_eq (held : (s.slot side).copy = some copy) :
    s.readyExtent side = if copy.opensExtent then s.nextExtent side else s := by
  unfold State.readyExtent WriterCopy.opensExtent
  rw [held, Option.bind_some]
  cases current : copy.current with
  | none => exact State.openExtent_first (by rw [held]; exact current)
  | some cur => exact if_congr (by simp [CurrentExtent.areaFull]) rfl rfl

theorem CardsOnly.readyExtent (s : State) (side : Side) : CardsOnly s (s.readyExtent side) := by
  unfold State.readyExtent
  split
  · exact .openExtent s side
  · split
    · exact (CardsOnly.modifySlot s side _).trans (.openExtent _ side)
    · exact .refl s

/-- The slot and LNK once the extent is current that the unit is listed in. -/
theorem State.readyExtent_slot (card : (s.slot side).summary = some sum) (held : (s.slot side).copy = some copy) :
    let t := s.readyExtent side
    t.slot side = { s.slot side with
      state := (t.slot side).state
      nearFull := (t.slot side).nearFull
      summary := some { sum with nextFree := if copy.opensExtent then sum.nextFree + 1 else sum.nextFree }
      copy := some (if copy.opensExtent then copy.next sum else copy) } ∧
    ((t.slot side).state, (t.slot side).nearFull, t.lnk) =
      (if copy.opensExtent then s.extentUsed side sum else ((s.slot side).state, (s.slot side).nearFull, s.lnk)) ∧
    t.slot side.other = s.slot side.other := by
  intro t
  have same : t = _ := State.readyExtent_eq held
  cases opens : copy.opensExtent with
  | true =>
    rw [same, opens, if_pos rfl, if_pos rfl, if_pos rfl, if_pos rfl]
    refine ⟨?_, State.nextExtent_judged card held, ?_⟩
    · rw [(State.nextExtent_eq card held).1]
    · rw [State.nextExtent, State.openExtent_other, State.slot_setSlot_other]
  | false =>
    rw [same, opens, if_neg (by decide), if_neg (by decide), if_neg (by decide), if_neg (by decide)]
    refine ⟨?_, rfl, rfl⟩
    rw [← card, ← held]

/-! ## The unit is taken (R146 steps 3 to 5) -/

/-- The first label of the copy's entry is filled in while it is invalid, from a unit with a known label. -/
theorem Summary.modifyEntry_takeLabel (sum : Summary) (clip : Nat) (u : RecUnit) :
    sum.modifyEntry clip (fun e => e.takeLabel u) = { sum with entries := sum.entries.map (fun e =>
      match u.label with
      | some l => if e.clip = clip ∧ e.labelValid = false then { e with label := l, labelValid := u.labelValid } else e
      | none => e) } := by
  refine congrArg (fun f => ({ sum with entries := sum.entries.map f } : Summary)) (funext fun e => ?_)
  unfold CatEntry.takeLabel
  cases u.label with
  | none =>
    dsimp only
    split
    · split <;> rfl
    · rfl
  | some l =>
    dsimp only
    by_cases own : e.clip = clip
    · rw [if_pos (beq_iff_eq.mpr own)]
      cases valid : e.labelValid with
      | true => rw [if_pos rfl, if_neg fun is => nomatch is.2]
      | false => rw [if_neg (by decide), if_pos ⟨own, rfl⟩]
    · rw [if_neg (by simpa using own), if_neg fun is => own is.1]

/-- The unit is listed for the slot's copy, and its entry takes the unit's label. -/
def CardSlot.listUnit (c : CardSlot) (u : RecUnit) (mem : Memory) : CardSlot :=
  match c.copy with
  | none => c
  | some copy =>
    { c.modifySummary (fun sum => sum.modifyEntry copy.clip (fun e => e.takeLabel u)) with
      copy := some (copy.take u (u.bytes mem copy.clip)) }

theorem CardSlot.listUnit_eq {c : CardSlot} (held : c.copy = some copy) (u : RecUnit) (mem : Memory) : c.listUnit u mem =
    { c with
      summary := c.summary.map (fun sum => sum.modifyEntry copy.clip (fun e => e.takeLabel u))
      copy := some (copy.take u (u.bytes mem copy.clip)) } := by
  unfold CardSlot.listUnit
  rw [held]
  rfl

/-- The state with the unit taken, before the writer goes on. -/
def State.taken (s : State) (side : Side) (u : RecUnit) : State :=
  (s.readyExtent side).modifySlot side (fun c => c.listUnit u (s.readyExtent side).mem)

theorem State.takeUnit_eq (s : State) (side : Side) (u : RecUnit) : s.takeUnit side u = (s.taken side u).runWriter side := rfl

/-- The slot and LNK with the unit taken. -/
theorem State.taken_slot (card : (s.slot side).summary = some sum) (held : (s.slot side).copy = some copy) :
    let w := s.taken side u
    w.slot side = { s.slot side with
      state := (w.slot side).state
      nearFull := (w.slot side).nearFull
      summary := some (({ sum with nextFree := if copy.opensExtent then sum.nextFree + 1 else sum.nextFree } : Summary).modifyEntry
        copy.clip (fun e => e.takeLabel u))
      copy := some ((if copy.opensExtent then copy.next sum else copy).take u (u.bytes s.mem copy.clip)) } ∧
    ((w.slot side).state, (w.slot side).nearFull, w.lnk) =
      (if copy.opensExtent then s.extentUsed side sum else ((s.slot side).state, (s.slot side).nearFull, s.lnk)) ∧
    w.slot side.other = s.slot side.other := by
  intro w
  obtain ⟨slot, judged, other⟩ := State.readyExtent_slot card held
  have listed : w.slot side = ((s.readyExtent side).slot side).listUnit u s.mem := by
    rw [← (CardsOnly.readyExtent s side).mem]
    exact State.slot_modifySlot_same ..
  rw [CardSlot.listUnit_eq (by rw [slot])] at listed
  have number : (if copy.opensExtent then copy.next sum else copy).clip = copy.clip := by split <;> rfl
  refine ⟨?_, ?_, (State.slot_setSlot_other ..).trans other⟩
  · rw [listed, number, slot]
    rfl
  · rw [listed]
    exact judged

theorem State.takeUnit_copy (card : (s.slot side).summary = some sum) (held : (s.slot side).copy = some copy) :
    (∃ copy', ((s.takeUnit side u).slot side).copy = some copy' ∧ copy'.lastTaken = some u.serial ∧
      copy'.placed = min 4294967295 (copy.placed + 1) ∧ copy'.clip = copy.clip ∧ copy'.start = copy.start) ∧
    (s.takeUnit side u).slot side.other = s.slot side.other := by
  obtain ⟨slot, _, other⟩ := State.taken_slot (u := u) card held
  obtain ⟨account, other'⟩ := (s.taken side u).runWriter_account side
  rw [State.takeUnit_eq]
  refine ⟨?_, other'.trans other⟩
  have before : ((s.taken side u).slot side).copy.map WriterCopy.account =
      some (copy.clip, copy.start, min 4294967295 (copy.placed + 1), some u.serial) := by
    rw [slot]
    dsimp only
    split <;> rfl
  obtain ⟨copy', held', same⟩ := Option.map_eq_some_iff.mp (account.trans before)
  injection same with clip same
  injection same with start same
  injection same with placed taken
  exact ⟨copy', held', taken, placed, clip, start⟩

end

/-- The clip's record of a unit that has been taken (R113, R126). -/
theorem State.recordTaken_eq (s : State) (side : Side) (n : Serial) : s.recordTaken side n =
    s.modifyClip (fun clip => { clip with
      copies := clip.copies.set side ((clip.copies.get side).map (fun c => { c with
        placed := min 4294967295 (c.placed + 1), firstSerial := some (c.firstSerial.getD n) }))
      newestPlaced := match clip.newestPlaced with
        | some x => some (if newer n x then n else x)
        | none => some n }) := by
  refine congrArg s.modifyClip (funext fun clip => ?_)
  unfold Clip.modifyCopy
  cases clip.copies.get side with
  | none => rfl
  | some copy =>
    rcases copy with ⟨_, _, firstSerial, _⟩
    cases firstSerial <;> rfl

end Sys2Proof.Machine

namespace Sys2Proof.Machine

/-! # The end of a card (R127 to R129) -/

theorem Two.get_set_back {α : Type} (t : Two α) (side : Side) (x : α) : (t.set side.other x).get side = t.get side := by
  cases side <;> rfl

theorem CardSlot.lastBefore_eq (c : CardSlot) : c.lastBefore = match c.copy.bind WriterCopy.lastTaken with
    | some t => .unit t
    | none => .nothing := by
  unfold CardSlot.lastBefore
  rw [CardSlot.lastTaken_eq] <;> rfl

/-- The units of the clip from `u` on are those that a full card leaves (R127 to R129). -/
theorem State.modifyUnits_late (s : State) (u : Serial) (f : RecUnit → RecUnit) :
    s.modifyUnits (fun x => x.ofClip && !older x.serial u) f =
      { s with bfm := { s.bfm with
        queue := s.bfm.queue.map (fun x => if x.membership != .ring && !older x.serial u then f x else x) } } := by
  rw [show (fun x : RecUnit => x.ofClip && !older x.serial u) = fun x => x.membership != .ring && !older x.serial u from
    funext fun x => by rw [RecUnit.ofClip_eq]]
  rfl

section
variable {s : State} {side : Side} {u : Serial} {clip : Clip}

/-- The full copy is told its last unit, the last it took. -/
def State.toldFull (s : State) (side : Side) : State := s.closeCopy side (s.slot side).lastBefore

theorem State.toldFull_rcd (begun : s.rcd.clip = some clip) : (s.toldFull side).rcd =
    { s.rcd with clip := some (clip.modifyCopy side (fun copy => { copy with state := .closing })) } := by
  refine (CardsOnly.nameLast _ side _).rcd.trans ?_
  rw [State.modifyClip_rcd, begun]
  rfl

theorem State.toldFull_other : (s.toldFull side).slot side.other = s.slot side.other :=
  ((State.runWriter_account _ side).2).trans (State.slot_setSlot_other ..)

/-! ## Which end it is -/

theorem State.endOfCard_relay (begun : s.rcd.clip = some clip) (kind : clip.kind = .normal) (mode : clip.mode = .relay)
    (ready : (s.slot side.other).state = .ready) (done : clip.copyDone side.other = true) :
    s.endOfCard side u = (s.relaySwitch side u).review := by
  unfold State.endOfCard
  rw [begun]
  dsimp only
  rw [kind, mode, ready, done]
  rfl

theorem State.endOfCard_mirror (begun : s.rcd.clip = some clip) (kind : clip.kind = .normal) (mode : clip.mode = .mirror)
    (writing : clip.copyState side.other = some .writing) : s.endOfCard side u = (s.dropMirror side u).review := by
  unfold State.endOfCard Clip.otherCarries
  rw [begun]
  dsimp only
  rw [kind, mode, writing]
  rfl

/-- Where no other copy can carry the clip, it ends CARD_FULL (R128). -/
theorem State.endOfCard_cardFull (begun : s.rcd.clip = some clip)
    (alone : clip.kind = .retained ∨ clip.mode = .single ∨
      (clip.mode = .relay ∧ ((s.slot side.other).state == .ready && clip.copyDone side.other) = false) ∨
      (clip.mode = .mirror ∧ clip.copyState side.other ≠ some .writing)) :
    s.endOfCard side u = (s.cardFullEnd side u).review := by
  unfold State.endOfCard Clip.otherCarries
  rw [begun]
  refine congrArg State.review ?_
  split
  · rfl
  · next normal =>
    rcases alone with kind | mode | ⟨mode, carries⟩ | ⟨mode, unwriting⟩
    · exact absurd (beq_iff_eq.mpr kind) normal
    · rw [mode]
    · rw [mode]
      dsimp only
      rw [carries]
      rfl
    · rw [mode]
      exact if_neg fun writing => unwriting (beq_iff_eq.mp writing)

/-! ## The relay switch (R127) -/

theorem Clip.copyNumber_eq (clip : Clip) (side : Side) : clip.copyNumber side = ((clip.copies.get side).map Copy.clip).getD 0 := by
  unfold Clip.copyNumber
  cases clip.copies.get side <;> rfl

/-- The clip number of a copy of the clip under way, 0 where there is none. -/
def State.numberOf (s : State) (side : Side) : Nat := ((s.rcd.clip.bind (fun c => c.copies.get side)).map Copy.clip).getD 0

theorem State.numberOf_eq (s : State) (side : Side) :
    s.numberOf side = (s.rcd.clip.map (fun clip => clip.copyNumber side)).getD 0 := by
  unfold State.numberOf
  cases s.rcd.clip with
  | none => rfl
  | some clip => exact (clip.copyNumber_eq side).symm

/-- A change of the clip record that leaves the number of one copy. -/
theorem State.numberOf_modifyClip (s : State) (side : Side) {f : Clip → Clip}
    (same : ∀ clip, ((f clip).copies.get side).map Copy.clip = (clip.copies.get side).map Copy.clip) :
    (s.modifyClip f).numberOf side = s.numberOf side := by
  unfold State.numberOf
  rw [State.modifyClip_rcd]
  cases s.rcd.clip with
  | none => rfl
  | some clip => exact congrArg (Option.getD · 0) (same clip)

/-- The clip goes on on the other slot, and the units from `u` on are owed there. -/
def State.switched (s : State) (side : Side) (u : Serial) (left : Option Copy) : State :=
  (((s.toldFull side).openFor side.other { continuation := true, retained := false, mirrored := false }
      (left.map (fun c => { label := c.label, clip := c.clip }))).modifyUnits (fun x => x.ofClip && !older x.serial u)
    (fun x => { x with progress := (x.progress.set side .none).set side.other .owed })).modifyClip (fun clip =>
      { clip.modifyCopy side.other (fun c => { c with firstSerial := some u }) with switches := clip.switches + 1 })

theorem State.toldFull_number (s : State) (side : Side) : (s.toldFull side).numberOf side = s.numberOf side := by
  have named : (s.toldFull side).rcd = _ := (CardsOnly.nameLast _ side _).rcd
  rw [State.numberOf, named]
  refine State.numberOf_modifyClip s side fun clip => ?_
  rw [Clip.modifyCopy, Two.get_set_same, Option.map_map]
  rfl

theorem State.openFor_number (s : State) (side : Side) (flags : CopyFlags) (continues : Option CopyRef) :
    (s.openFor side.other flags continues).numberOf side = s.numberOf side := by
  have opened : s.openFor side.other flags continues = (s.openCopy side.other flags continues).1.modifyClip (fun clip =>
      { clip with copies := clip.copies.set side.other (s.openCopy side.other flags continues).2 }) := rfl
  rw [opened, State.numberOf_modifyClip _ side fun clip => by rw [Two.get_set_back]]
  rw [State.numberOf, (CardsOnly.openCopy s side.other flags continues).rcd]
  rfl

/-- The full copy keeps its clip number through the switch. -/
theorem State.switched_number (s : State) (side : Side) (u : Serial) (left : Option Copy) :
    (s.switched side u left).numberOf side = s.numberOf side := by
  refine (State.numberOf_modifyClip _ side fun clip => by rw [Clip.modifyCopy, Two.get_set_back]).trans ?_
  exact (State.openFor_number ..).trans (State.toldFull_number s side)

theorem State.relaySwitch_eq (begun : s.rcd.clip = some clip) :
    let v := s.switched side u (clip.copies.get side)
    s.relaySwitch side u = v.report .relaySwitch (u8 side.code ++ u8 side.other.code ++ serialBytes u ++
      u16 (v.numberOf side) ++ u16 (v.numberOf side.other)) := by
  intro v
  have number : v.numberOf side = clip.copyNumber side := by
    rw [State.switched_number, State.numberOf_eq, begun]
    rfl
  rw [number, State.numberOf_eq]
  unfold State.relaySwitch
  rw [begun]
  rfl

/-! ## The clip ends CARD_FULL (R128) -/

/-- A CLOSING copy that awaits a unit from `u` on, which its writer has yet to take. -/
def awaitsLate (u : Serial) (copy : Option Copy) (writer : Option WriterCopy) : Bool :=
  match copy, writer.map WriterCopy.last with
  | some o, some (.unit last) => o.state == .closing && !older last u && writer.bind WriterCopy.lastTaken != some last
  | _, _ => false

theorem State.renameLast_eq (s : State) (side : Side) (u : Serial) {copy : Option Copy}
    (state : s.rcd.clip.bind (fun clip => clip.copyState side) = copy.map Copy.state) : s.renameLast side u =
      if awaitsLate u copy (s.slot side).copy then s.nameLast side (s.newestUnit side) else s := by
  unfold State.renameLast awaitsLate
  rw [state]
  cases copy with
  | none => rfl
  | some o =>
    obtain ⟨_, _, _, _, _, _, copyState⟩ := o
    cases (s.slot side).copy with
    | none => cases copyState <;> rfl
    | some w =>
      cases copyState with
      | closing =>
        change (if w.awaitsFrom u then _ else s) = _
        rw [Option.map_some, WriterCopy.awaitsFrom]
        cases w.last <;> rfl
      | writing => rw [Option.map_some, Option.map_some]; cases w.last <;> rfl
      | closed => rw [Option.map_some, Option.map_some]; cases w.last <;> rfl
      | lost => rw [Option.map_some, Option.map_some]; cases w.last <;> rfl

/-- E is the last unit taken, or else the newest placed, and the units from `u` on return to the ring. -/
def State.fullFreed (s : State) (side : Side) (u : Serial) (e : Option Serial) : State :=
  ((s.toldFull side).modifyClip (fun clip => { clip with last := e, reason := some .cardFull })).modifyUnits
    (fun x => x.ofClip && !older x.serial u) RecUnit.toRing

theorem State.fullFreed_rcd (begun : s.rcd.clip = some clip) (e : Option Serial) :
    (s.fullFreed side u e).rcd.state = s.rcd.state ∧
      (s.fullFreed side u e).rcd.clip.bind (fun clip => clip.copyState side.other) =
        (clip.copies.get side.other).map Copy.state := by
  rw [State.fullFreed, State.modifyUnits_rcd, State.modifyClip_rcd, State.toldFull_rcd begun]
  refine ⟨rfl, ?_⟩
  dsimp only
  rw [Option.map_some, Option.bind_some, Clip.copyState, Clip.modifyCopy, Two.get_set_other]

theorem State.cardFullEnd_freed (begun : s.rcd.clip = some clip) :
    let taken := (s.slot side).copy.bind WriterCopy.lastTaken
    s.cardFullEnd side u =
      (let t := (s.fullFreed side u (if taken.isSome then taken else clip.newestPlaced)).renameLast side.other u
       if t.rcd.state == .recording then ({ t with rcd := { t.rcd with state := .closing } } : State) else t).reportRec
        .cardFull 0 0 := by
  have last := (s.slot side).lastTaken_eq
  unfold State.cardFullEnd
  rw [begun]
  dsimp only
  cases taken : (s.slot side).copy.bind WriterCopy.lastTaken with
  | none =>
    rw [taken] at last
    rw [last]
    rfl
  | some t =>
    rw [taken] at last
    rw [last]
    rfl

theorem State.cardFullEnd_eq (begun : s.rcd.clip = some clip) :
    let taken := (s.slot side).copy.bind WriterCopy.lastTaken
    let freed := s.fullFreed side u (if taken.isSome then taken else clip.newestPlaced)
    let renamed := if awaitsLate u (clip.copies.get side.other) (s.slot side.other).copy then
      freed.nameLast side.other (freed.newestUnit side.other) else freed
    let closing : State := if s.rcd.state = .recording then { renamed with rcd := { renamed.rcd with state := .closing } } else renamed
    s.cardFullEnd side u = closing.reportRec .cardFull 0 0 := by
  intro taken freed renamed closing
  obtain ⟨freedState, freedCopy⟩ := State.fullFreed_rcd (side := side) (u := u) begun (if taken.isSome then taken else clip.newestPlaced)
  have other : (freed.slot side.other).copy = (s.slot side.other).copy := congrArg CardSlot.copy State.toldFull_other
  have renames := State.renameLast_eq freed side.other u freedCopy
  rw [other] at renames
  have state : renamed.rcd.state = s.rcd.state := by
    refine Eq.trans ?_ freedState
    unfold renamed
    split
    · exact congrArg Rcd.state (CardsOnly.nameLast ..).rcd
    · rfl
  rw [State.cardFullEnd_freed begun, show freed.renameLast side.other u = renamed from renames]
  dsimp only
  rw [state]
  exact congrArg (State.reportRec · .cardFull 0 0) (if_congr beq_iff_eq rfl rfl)

end

end Sys2Proof.Machine

namespace Sys2Proof.Machine

/-! # UNIT_TAKE (R126 to R129, R146) -/

theorem WriterCopy.take_eq {copy : WriterCopy} {cur : CurrentExtent} (current : copy.current = some cur) (u : RecUnit)
    (bytes : List Byte) : copy.take u bytes = { copy with
      current := some { cur with listed := cur.listed ++ [
        { offset := (cur.chunk.chunk - 1) * 262144 + cur.chunk.bytes.length, serial := u.serial, size := u.cardSize,
          key := u.picture.key, gap := u.gap }] }
      rest := some { serial := u.serial, size := u.cardSize, bytes := bytes }
      placed := min 4294967295 (copy.placed + 1), lastTaken := some u.serial } := by
  unfold WriterCopy.take
  rw [current]
  rfl

theorem State.nextUnit_eq {s : State} {side : Side} {copy : WriterCopy} (held : (s.slot side).copy = some copy) : s.nextUnit side =
    s.bfm.queue.find? (fun x => x.progress.get side == .owed &&
      (match copy.lastTaken with
       | some t => newer x.serial t
       | none => true)) := by
  have last : (s.slot side).lastTaken = copy.lastTaken := by rw [CardSlot.lastTaken_eq, held, Option.bind_some]
  unfold State.nextUnit
  rw [last] <;> rfl

/-- The other slot can take the clip over in RELAY: READY, and without a live copy of it (log entry 23). -/
theorem relayCarries_iff {s : State} {side : Side} {clip : Clip} :
    ((s.slot side).state == .ready && clip.copyDone side) = true ↔
      (s.slot side).state = .ready ∧ ∀ o, clip.copies.get side = some o → o.state = .closed ∨ o.state = .lost := by
  rw [Bool.and_eq_true, beq_iff_eq, Clip.copyDone_iff]

/-- Settles O42: the taking from `State.taken_slot` and what the writer keeps, the three ends of a card, the room from
`State.runWriter_ready`, and the two pieces of work on a unit in hand. -/
theorem unitTaken : Obligations.UnitTaken := by
  unfold Obligations.UnitTaken
  intro next
  refine ⟨fun side s works => ⟨fun idle => ?_, fun copy sum u takes held card queued => ?_⟩, fun side u clip s begun => ?_,
    fun side s sum card => ?_, fun side s copy sum r held card idle inHand => ⟨fun full => ?_, fun cur current fits => ?_⟩⟩
  · exact becomes_act (f := (·.takeNext side)) works rfl (State.takeNext_idle idle)
  · intro left room
    have capacity : (s.slot side).capacity = room := CardSlot.capacity_eq card held
    have takesNext := State.takeNext_unit takes ((State.nextUnit_eq held).trans queued)
    rw [capacity] at takesNext
    refine ⟨fun fits => ?_, fun short => ?_⟩
    · intro v
      obtain ⟨slot, judged, _⟩ := State.taken_slot (u := u) card held
      obtain ⟨taken, other⟩ := State.takeUnit_copy (u := u) card held
      have cards := CardsOnly.takeUnit s side u
      refine ⟨taken, ⟨s.taken side u, State.takeUnit_eq s side u, by rw [slot], by rw [slot], ?_⟩, other, cards.bfm, cards.mem,
        cards.rcd, cards.ftb, becomes_act (f := (·.takeNext side)) works rfl ?_⟩
      · intro opened c
        refine ⟨fun cur current => ?_, ?_, judged⟩
        · have placed : c.placed = copy.placed := by
            unfold c
            split <;> rfl
          rw [slot, ← placed]
          exact congrArg some (WriterCopy.take_eq current u _)
        · rw [slot]
          exact congrArg some (Summary.modifyEntry_takeLabel _ copy.clip u)
      · exact takesNext.trans ((if_pos fits).trans (congrArg State.review (State.recordTaken_eq v side u.serial)))
    · exact becomes_act (f := (·.takeNext side)) works rfl (takesNext.trans (if_neg (by omega)))
  · intro taken told late units carries clipSet
    have toldFull : s.toldFull side = told := congrArg (s.closeCopy side) (s.slot side).lastBefore_eq
    have carried : ((s.slot side.other).state == .ready && clip.copyDone side.other) = true ↔ carries := relayCarries_iff
    have moves (v : State) (f : RecUnit → RecUnit) : v.modifyUnits (fun x => x.ofClip && !older x.serial u) f = units v f :=
      State.modifyUnits_late v u f
    refine ⟨fun kind mode carry => ?_, fun other kind mode there writing => ?_, fun alone => ?_⟩
    · intro opened moved v number
      obtain ⟨ready, done⟩ := Bool.and_eq_true_iff.mp (carried.mpr carry)
      have switched : s.switched side u (clip.copies.get side) = v := by
        rw [State.switched, moves, toldFull]
        rfl
      have switches := State.relaySwitch_eq (side := side) (u := u) begun
      dsimp only at switches
      rw [switched] at switches
      rw [State.endOfCard_relay begun kind mode (beq_iff_eq.mp ready) done, switches]
      rfl
    · rw [State.endOfCard_mirror begun kind mode (by rw [Clip.copyState, there, Option.map_some, writing])]
      refine congrArg (fun t : State => (t.reportRec .slotDropped 0 side.code).review) ?_
      rw [State.dropOwed, moves, ← toldFull]
      rfl
    · intro ended freed awaits renamed closing
      have freedEq : s.fullFreed side u (if taken.isSome then taken else clip.newestPlaced) = freed := by
        rw [State.fullFreed, moves, toldFull]
        rfl
      have awaitsEq : awaitsLate u (clip.copies.get side.other) (s.slot side.other).copy = awaits := rfl
      have ends := State.cardFullEnd_eq (side := side) (u := u) begun
      dsimp only at ends
      rw [freedEq, awaitsEq] at ends
      refine (State.endOfCard_cardFull begun ?_).trans (congrArg State.review ends)
      rcases alone with kind | mode | ⟨mode, alone⟩ | ⟨mode, unwriting⟩
      · exact .inl kind
      · exact .inr (.inl mode)
      · exact .inr (.inr (.inl ⟨mode, Bool.eq_false_iff.mpr fun is => alone (carried.mp is)⟩))
      · exact .inr (.inr (.inr ⟨mode, Clip.copyState_other unwriting⟩))
  · intro v
    refine ⟨State.runWriter_unready, fun ready free few => ?_⟩
    obtain ⟨_, sum', card', header, length, someFree, noneFree⟩ := State.runWriter_ready card ready free few
    refine ⟨sum', card', header, length, fun is => ?_, fun is => ?_⟩
    · obtain ⟨state, table⟩ := someFree is
      exact ⟨state, Lnk.source_of_table table⟩
    · obtain ⟨state, table⟩ := noneFree is
      exact ⟨state, Lnk.source_of_table table⟩
  · obtain ⟨slot, _⟩ := State.nextExtent_eq card held
    exact ⟨s.nextExtent side, State.writerWork_extent held idle inHand full, by rw [slot]; rfl, by rw [slot],
      State.nextExtent_judged card held⟩
  · rw [State.writerWork_append held idle inHand current fits, WriterCopy.append_eq cur r idle]

end Sys2Proof.Machine

namespace Sys2Proof.Machine

/-! # The lines of a slot (R138, R155, R156) -/

section
variable {s : State} {side : Side}

/-- A card goes on being mounted as the slot then stands: at once in RUN, later in STANDBY (R138, R155). -/
theorem State.mountOrDefer_setSlot (c : CardSlot) : (s.setSlot side c).mountOrDefer side =
    s.setSlot side (if s.pwc.inRun then c.beginMount else { c with deferred := true }) := by
  rw [State.mountOrDefer_eq, State.slot_setSlot_same, State.setSlot_setSlot]
  rfl

/-! ## The card-detect line -/

theorem State.detectChanged_same : s.detectChanged side (s.slot side).present = s := if_pos (beq_self_eq_true _)

theorem State.detectChanged_off (off : (s.slot side).state = .off) (on : Bool) :
    s.detectChanged side on = s.setSlot side { s.slot side with present := on } := by
  by_cases same : (s.slot side).present = on
  · subst same
    exact State.detectChanged_same.trans (s.setSlot_slot side).symm
  · exact (if_neg (by simpa using same)).trans (if_pos (by rw [off]; rfl))

theorem State.detectChanged_inserted (gone : (s.slot side).present = false) (absent : (s.slot side).state = .absent) :
    s.detectChanged side true =
      ((s.setSlot side { s.slot side with present := true }).mountOrDefer side).reportChange side 0 := by
  unfold State.detectChanged
  dsimp only
  rw [gone, if_neg (by decide), if_neg (by simp [absent]), if_pos rfl, if_pos (by simp [absent])]

theorem State.detectChanged_removed (here : (s.slot side).present = true) (on : (s.slot side).state ≠ .off) :
    s.detectChanged side false = ((s.setSlot side (s.slot side).removed).slotLost side).reportChange side 1 := by
  unfold State.detectChanged
  dsimp only
  rw [here, if_neg (by decide), if_neg (by simpa using on)]
  rfl

/-! ## The write-protect line -/

theorem State.protectChanged_same : s.protectChanged side (s.slot side).protectOn = s := if_pos (beq_self_eq_true _)

theorem State.protectChanged_set (clear : (s.slot side).protectOn = false) (card : (s.slot side).state = .ready ∨ (s.slot side).state = .full)
    (free : s.isTarget side = false) : s.protectChanged side true =
      (s.setSlot side { s.slot side with protectOn := true, state := .writeProtected }).reportChange side 2 := by
  unfold State.protectChanged
  dsimp only
  rw [clear, if_neg (by decide), if_pos rfl, if_pos, State.modifySlot_eq, State.slot_setSlot_same, State.setSlot_setSlot]
  rw [show (s.setSlot side { s.slot side with protectOn := true }).isTarget side = s.isTarget side from rfl, free]
  simpa using card

/-- A slot that is no READY or FULL one, and one that is a target, only follow the level (R138). -/
theorem State.protectChanged_set_level (clear : (s.slot side).protectOn = false)
    (stays : ((s.slot side).state = .ready ∨ (s.slot side).state = .full) → s.isTarget side = true) :
    s.protectChanged side true = s.setSlot side { s.slot side with protectOn := true } := by
  unfold State.protectChanged
  dsimp only
  rw [clear, if_neg (by decide), if_pos rfl, if_neg]
  rw [show (s.setSlot side { s.slot side with protectOn := true }).isTarget side = s.isTarget side from rfl]
  simpa using stays

theorem State.protectChanged_clear (set : (s.slot side).protectOn = true) (card : (s.slot side).state = .writeProtected) :
    s.protectChanged side false =
      ((s.setSlot side { s.slot side with protectOn := false }).mountOrDefer side).reportChange side 3 := by
  unfold State.protectChanged
  dsimp only
  rw [set, if_neg (by decide), if_neg (by decide), if_pos (by simp [card])]

theorem State.protectChanged_clear_level (set : (s.slot side).protectOn = true) (card : (s.slot side).state ≠ .writeProtected) :
    s.protectChanged side false = s.setSlot side { s.slot side with protectOn := false } := by
  unfold State.protectChanged
  dsimp only
  rw [set, if_neg (by decide), if_neg (by decide), if_neg (by simpa using card)]

/-- In OFF the level alone is followed (R138). -/
theorem State.protectChanged_off (off : (s.slot side).state = .off) (on : Bool) :
    s.protectChanged side on = s.setSlot side { s.slot side with protectOn := on } := by
  cases was : (s.slot side).protectOn <;> cases on
  · exact (was ▸ State.protectChanged_same).trans (was ▸ (s.setSlot_slot side).symm)
  · exact State.protectChanged_set_level was (by simp [off])
  · exact State.protectChanged_clear_level was (by simp [off])
  · exact (was ▸ State.protectChanged_same).trans (was ▸ (s.setSlot_slot side).symm)

end

/-- Settles O47: each line by the level it had and the slot's state. -/
theorem cardLines : Obligations.CardLines := by
  unfold Obligations.CardLines
  intro side s works c change mounted detect protect
  have detects {on : Bool} {u : State} (h : s.detectChanged side on = u) : Becomes (detect on) s u :=
    becomes_act (f := (·.detectChanged side on)) works rfl h
  have protects {on : Bool} {u : State} (h : s.protectChanged side on = u) : Becomes (protect on) s u :=
    becomes_act (f := (·.protectChanged side on)) works rfl h
  have mounts (c' : CardSlot) : (s.setSlot side c').mountOrDefer side = s.setSlot side (mounted c') := s.mountOrDefer_setSlot c'
  refine ⟨detects State.detectChanged_same, protects State.protectChanged_same,
    fun off => ⟨fun on => detects (State.detectChanged_off off on), fun on => protects (State.protectChanged_off off on)⟩,
    fun gone absent => detects ?_, fun here on => detects (State.detectChanged_removed here on),
    fun clear card => ⟨fun free => protects (State.protectChanged_set clear card free),
      fun target => protects (State.protectChanged_set_level clear fun _ => target)⟩,
    fun set card => protects ?_,
    fun clear ready full => protects (State.protectChanged_set_level clear fun card => (card.elim ready full).elim),
    fun set card => protects (State.protectChanged_clear_level set card)⟩
  · rw [State.detectChanged_inserted gone absent, mounts]
    rfl
  · rw [State.protectChanged_clear set card, mounts]
    rfl

end Sys2Proof.Machine

namespace Sys2Proof.Machine

/-! # CARD_FORMAT, CARD_EJECT and CARD_CONFIG (R149, R151, R152) -/

/-! ## The near-full flag (R149) -/

section
variable {s : State} {side : Side} {sum : Summary}

/-- The flag is judged by the free extents and the threshold, while the slot holds a summary. -/
theorem State.judgeNearFull_some (card : (s.slot side).summary = some sum) : s.judgeNearFull side =
    if (s.slot side).threshold < sum.freeExtents then s.setSlot side { s.slot side with nearFull := false }
    else if (s.slot side).nearFull = true then s
    else (s.setSlot side { s.slot side with nearFull := true }).report .cardNearFull
      (u8 side.code ++ u16 sum.freeExtents ++ (s.slot side).remainingBytes s.ftb.rate.nominal) := by
  unfold State.judgeNearFull
  dsimp only
  split
  · next none => cases card.symm.trans none
  · next held =>
    cases card.symm.trans held
    rfl

theorem State.judgeNearFull_above (card : (s.slot side).summary = some sum) (above : (s.slot side).threshold < sum.freeExtents) :
    s.judgeNearFull side = s.setSlot side { s.slot side with nearFull := false } :=
  (State.judgeNearFull_some card).trans (if_pos above)

theorem State.judgeNearFull_stands (card : (s.slot side).summary = some sum) (below : sum.freeExtents ≤ (s.slot side).threshold)
    (stands : (s.slot side).nearFull = true) : s.judgeNearFull side = s :=
  (State.judgeNearFull_some card).trans ((if_neg below.not_gt).trans (if_pos stands))

theorem State.judgeNearFull_sets (card : (s.slot side).summary = some sum) (below : sum.freeExtents ≤ (s.slot side).threshold)
    (clear : (s.slot side).nearFull = false) : s.judgeNearFull side =
      (s.setSlot side { s.slot side with nearFull := true }).report .cardNearFull
        (u8 side.code ++ u16 sum.freeExtents ++ (s.slot side).remainingBytes s.ftb.rate.nominal) :=
  (State.judgeNearFull_some card).trans ((if_neg below.not_gt).trans (if_neg (Bool.eq_false_iff.mp clear)))

theorem State.judgeNearFull_none (none : (s.slot side).summary = none) : s.judgeNearFull side = s := by
  unfold State.judgeNearFull
  dsimp only
  rw [none]

/-- The judgement of the flag leaves the summary. -/
theorem State.judgeNearFull_summary (s : State) (side : Side) :
    ((s.judgeNearFull side).slot side).summary = (s.slot side).summary := by
  cases card : (s.slot side).summary with
  | none => rw [State.judgeNearFull_none card, card]
  | some sum =>
    by_cases above : (s.slot side).threshold < sum.freeExtents
    · rw [State.judgeNearFull_above card above, State.slot_setSlot_same, card]
    · cases flag : (s.slot side).nearFull
      · rw [State.judgeNearFull_sets card (by omega) flag, State.slot_report, State.slot_setSlot_same, card]
      · rw [State.judgeNearFull_stands card (by omega) flag, card]

end

/-! ## CARD_FORMAT (R151) -/

/-- The 250 sectors of a new catalogue stand between the blank header and the new one. -/
theorem formatPlan_eq : formatPlan = CatPurpose.blankHeader :: (List.range' 1 250).map CatPurpose.freeSector ++ [.newHeader] := by
  rw [formatPlan, List.range'_eq_map_range, List.map_map]
  simp only [Function.comp_def, Nat.add_comm 1]

section
variable {s : State} {side : Side} {label : List Byte}

/-- CARD_FORMAT's label is the 16 bytes behind the slot. -/
theorem reqCardFormat_label (size : label.length = 16) : field (u8 side.code ++ label) 1 16 = label := by
  rw [field, List.drop_left' (u8_length _), ← size, List.take_length]

theorem reqCardFormat_bad (size : label.length = 16) (bad : label.all isCardChar = false) :
    reqCardFormat (u8 side.code ++ label) s = refuse s .badValue := by
  unfold reqCardFormat
  rw [sideAt_code, reqCardFormat_label size]
  exact if_pos (by rw [bad]; rfl)

theorem reqCardFormat_refused {status : Status} (size : label.length = 16) (good : label.all isCardChar = true)
    (judged : s.judgeFormat side = .refused status) : reqCardFormat (u8 side.code ++ label) s = refuse s status := by
  unfold reqCardFormat
  rw [sideAt_code, reqCardFormat_label size]
  dsimp only
  rw [if_neg (by simp [good]), judged]

theorem reqCardFormat_taken (size : label.length = 16) (good : label.all isCardChar = true) (judged : s.judgeFormat side = .taken) :
    reqCardFormat (u8 side.code ++ label) s =
      ((s.setSlot side ((s.slot side).beginFormat label)).runWriter side, { status := .accepted, body := [] }) := by
  unfold reqCardFormat
  rw [sideAt_code, reqCardFormat_label size]
  dsimp only
  rw [if_neg (by simp [good]), judged]
  rfl

/-- CARD_FORMAT is judged by the part's run state first. -/
theorem State.judgeFormat_standby (standby : s.pwc.inRun = false) : s.judgeFormat side = .refused .badState :=
  if_pos (by rw [standby]; rfl)

/-- The judgement of CARD_FORMAT in RUN, by the slot's state. -/
theorem State.judgeFormat_run (run : s.pwc.inRun = true) :
    let room := if (s.slot side).cardSectors / 8192 < 2 then FormatJudgement.refused .badState else .taken
    s.judgeFormat side = match (s.slot side).state with
      | .ready | .full => if s.isTarget side then .refused .busy else room
      | .unformatted => room
      | .mounting | .recovering | .formatting => .refused .busy
      | .writeProtected | .fault => .refused .badState
      | .absent | .ejected => .refused .noCard
      | .off => .refused .blockOff := by
  unfold State.judgeFormat
  dsimp only
  rw [if_neg (by simp [run])]
  cases (s.slot side).state <;> rfl

/-- A slot that is no target takes a format of a card with two extents or more. -/
theorem State.judgeFormat_taken (run : s.pwc.inRun = true) (free : s.isTarget side = false)
    (state : (s.slot side).state = .ready ∨ (s.slot side).state = .full ∨ (s.slot side).state = .unformatted)
    (large : 2 ≤ (s.slot side).cardSectors / 8192) : s.judgeFormat side = .taken := by
  have room : (if (s.slot side).cardSectors / 8192 < 2 then FormatJudgement.refused .badState else .taken) = .taken :=
    if_neg large.not_gt
  have spared : ¬ s.isTarget side = true := Bool.eq_false_iff.mp free
  rw [State.judgeFormat_run run]
  rcases state with state | state | state <;> rw [state]
  · exact (if_neg spared).trans room
  · exact (if_neg spared).trans room
  · exact room

/-- What CARD_FORMAT is refused for in RUN. -/
theorem State.judgeFormat_refused (run : s.pwc.inRun = true) :
    let refused := fun (status : Status) => s.judgeFormat side = .refused status
    let c := s.slot side
    (c.state = .ready ∨ c.state = .full →
      (s.isTarget side = true → refused .busy) ∧ (¬ s.isTarget side = true → c.cardSectors / 8192 < 2 → refused .badState)) ∧
    (c.state = .unformatted → c.cardSectors / 8192 < 2 → refused .badState) ∧
    (c.state = .mounting ∨ c.state = .recovering ∨ c.state = .formatting → refused .busy) ∧
    (c.state = .writeProtected ∨ c.state = .fault → refused .badState) ∧
    (c.state = .absent ∨ c.state = .ejected → refused .noCard) := by
  dsimp only
  rw [State.judgeFormat_run run]
  refine ⟨fun state => ⟨fun target => ?_, fun free small => ?_⟩, fun state small => ?_, fun state => ?_, fun state => ?_,
    fun state => ?_⟩
  · rcases state with state | state <;> rw [state] <;> exact if_pos target
  · rcases state with state | state <;> rw [state] <;> exact (if_neg free).trans (if_pos small)
  · rw [state]
    exact if_pos small
  · rcases state with state | state | state <;> rw [state]
  · rcases state with state | state <;> rw [state]
  · rcases state with state | state <;> rw [state]

end

/-! ## CARD_EJECT (R152) -/

section
variable {s : State} {side : Side}

theorem reqCardEject_target (target : s.isTarget side = true) : reqCardEject (u8 side.code) s = refuse s .busy := by
  unfold reqCardEject
  rw [show sideAt (u8 side.code) 0 = some side from sideAt_code side []]
  exact if_pos target

/-- CARD_EJECT of a slot that is no target, by the slot's state. -/
theorem reqCardEject_free (free : s.isTarget side = false) : reqCardEject (u8 side.code) s = match (s.slot side).state with
    | .ready | .full | .writeProtected | .unformatted | .fault => answerOk (s.setSlot side (s.slot side).eject) []
    | .mounting | .recovering | .formatting => refuse s .busy
    | .absent => refuse s .noCard
    | .ejected => answerOk s []
    | .off => refuse s .blockOff := by
  unfold reqCardEject
  rw [show sideAt (u8 side.code) 0 = some side from sideAt_code side []]
  dsimp only
  rw [if_neg (by simp [free])]
  cases (s.slot side).state <;> rfl

end

/-! ## CARD_CONFIG (R149) -/

section
variable (s : State) (side : Side)

/-- CARD_CONFIG's threshold stands behind the slot. -/
theorem reqCardConfig_threshold {x : Nat} (fits : x ≤ 65535) : num (u8 side.code ++ u16 x) 1 2 = x := by
  simpa [u16] using num_field (u8 side.code) [] 2 x (by omega)

theorem reqCardConfig_bad {x : Nat} (above : 4096 < x) (fits : x ≤ 65535) :
    reqCardConfig (u8 side.code ++ u16 x) s = refuse s .badValue := by
  unfold reqCardConfig
  rw [sideAt_code, rangeAt_none (reqCardConfig_threshold side fits) (by omega)]

theorem reqCardConfig_taken {x : Nat} (most : x ≤ 4096) :
    let u := (s.setSlot side { s.slot side with threshold := x }).judgeNearFull side
    reqCardConfig (u8 side.code ++ u16 x) s = answerOk u
      (u16 x ++ presence 2 ((s.slot side).summary.map (fun sum => u16 sum.freeExtents)) ++ flagByte (u.slot side).nearFull) := by
  intro u
  have summary : (u.slot side).summary = (s.slot side).summary := by
    rw [State.judgeNearFull_summary, State.slot_setSlot_same]
  unfold reqCardConfig
  rw [sideAt_code, rangeAt_of_num (reqCardConfig_threshold side (by omega)) (Nat.zero_le _) most, ← summary]
  rfl

end

/-- Settles O48: each request is judged by its fields, then by the target, then by the slot's state. -/
theorem cardRequestsTaken : Obligations.CardRequestsTaken := by
  unfold Obligations.CardRequestsTaken
  intro tag side s ready on c
  have isOn (back : List Byte) : s.judgeBlock .card (u8 side.code ++ back) = none := State.judgeBlock_card on back
  have formatFits {label : List Byte} (size : label.length = 16) :
      (u8 side.code ++ label).length = 17 := by rw [List.length_append, u8_length, size]
  refine ⟨fun label size good run free state large => ?_, fun free => ⟨fun state => ?_, fun state => ?_⟩, fun label size => ?_,
    ⟨fun target => ?_, fun free => ⟨fun state => ?_, fun state => ?_⟩⟩, fun x above fits => ?_, fun x most => ?_,
    fun sum card => ⟨State.judgeNearFull_above card, State.judgeNearFull_stands card, State.judgeNearFull_sets card⟩⟩
  · intro number header plan
    refine answers_taken ready rfl (formatFits size).ge (formatFits size).le (isOn label)
      ((reqCardFormat_taken size good (State.judgeFormat_taken run free state large)).trans ?_) ?_ rfl
    · unfold CardSlot.beginFormat
      rw [formatPlan_eq]
      rfl
    · exact (CardsOnly.runWriter _ side).inbound.trans ready.2.1
  · refine answers_ok ready rfl ⟨le_rfl, le_rfl⟩ (isOn []) ((reqCardEject_free free).trans ?_) rfl
    rcases state with state | state | state | state | state <;> rw [state] <;> rfl
  · exact answers_ok ready rfl ⟨le_rfl, le_rfl⟩ (isOn []) ((reqCardEject_free free).trans (by rw [state])) rfl
  · intro refused target small
    have refuses {status : Status} (h : reqCardFormat (u8 side.code ++ label) s = refuse s status) : refused status :=
      answers_refused ready rfl ⟨(formatFits size).ge, (formatFits size).le⟩ (isOn label) h
    refine ⟨fun bad => refuses (reqCardFormat_bad size bad), fun good => ?_⟩
    have judges {status : Status} (h : s.judgeFormat side = .refused status) : refused status :=
      refuses (reqCardFormat_refused size good h)
    refine ⟨fun standby => judges (State.judgeFormat_standby standby), fun run => ?_⟩
    obtain ⟨room, unformatted, busy, badState, noCard⟩ := State.judgeFormat_refused (side := side) run
    exact ⟨fun state => ⟨fun is => judges ((room state).1 is), fun not few => judges ((room state).2 not few)⟩,
      fun state few => judges (unformatted state few), fun state => judges (busy state), fun state => judges (badState state),
      fun state => judges (noCard state)⟩
  · exact answers_refused ready rfl ⟨le_rfl, le_rfl⟩ (isOn []) (reqCardEject_target target)
  · refine answers_refused ready rfl ⟨le_rfl, le_rfl⟩ (isOn []) ((reqCardEject_free free).trans ?_)
    rcases state with state | state | state <;> rw [state]
  · exact answers_refused ready rfl ⟨le_rfl, le_rfl⟩ (isOn []) ((reqCardEject_free free).trans (by rw [state]))
  · exact answers_refused ready rfl ⟨le_rfl, le_rfl⟩ (isOn _) (reqCardConfig_bad s side above fits)
  · exact answers_ok ready rfl ⟨le_rfl, le_rfl⟩ (isOn _) (reqCardConfig_taken s side most)
      (CardsOnly.judgeNearFull _ side).inbound

end Sys2Proof.Machine

namespace Sys2Proof.Machine

/-! # The reads of a mount and of a recovery (R135, R137, R139, R140) -/

/-- The end of a mount in a state, CARD_DONE told; `c` is what the slot holds besides (R139). -/
def State.mountEnded (s : State) (side : Side) (c : CardSlot) (state : SlotState) : State :=
  (s.setSlot side { c with state := state, reading := none, recovery := none, mounted := [] }).report .cardDone
    (u8 side.code ++ u8 0 ++ u8 state.code ++ u16 0)

section
variable {s : State} {side : Side} {size : Nat} {bytes : List Byte}

theorem State.mountEnds_setSlot (s : State) (side : Side) (c : CardSlot) (state : SlotState) :
    (s.setSlot side c).mountEnds side state 0 =
      (if state = .full then (s.mountEnded side c state).reportFull side else s.mountEnded side c state).judgeNearFull side := by
  rw [State.mountEnds_eq, State.slot_setSlot_same, State.setSlot_setSlot]
  rfl

/-- A card without a summary has no near-full flag to judge. -/
theorem State.mountUnformatted_eq (s : State) (side : Side) (c : CardSlot) :
    (s.setSlot side c).mountUnformatted side = s.mountEnded side { c with summary := none } .unformatted := by
  unfold State.mountUnformatted
  rw [State.modifySlot_eq, State.slot_setSlot_same, State.setSlot_setSlot, State.mountEnds_setSlot, if_neg (by decide)]
  exact State.judgeNearFull_none (by rw [State.mountEnded, State.slot_report, State.slot_setSlot_same])

theorem State.readAnswered_done {read : CardRead} (reads : (s.slot side).reading = some read) :
    s.readAnswered side (.done size bytes) = s.cardRead side read size bytes := by
  unfold State.readAnswered
  rw [reads]

/-! ## The header -/

theorem State.cardRead_header_bad (bad : parseHeader bytes = none) : s.cardRead side .header size bytes =
    s.mountEnded side { s.slot side with lastHeader := none, summary := none } .unformatted := by
  unfold State.cardRead
  rw [bad]
  exact s.mountUnformatted_eq side _

theorem State.cardRead_header {h : CardHeader} (good : parseHeader bytes = some h) : s.cardRead side .header size bytes =
    if (s.slot side).cardSectors / 8192 < h.extents then
      s.mountEnded side { s.slot side with lastHeader := some h, summary := none } .unformatted
    else s.setSlot side { s.slot side with lastHeader := some h, reading := some (.entries 1) } := by
  unfold State.cardRead
  rw [good]
  dsimp only
  rw [State.modifySlot_eq, State.slot_setSlot_same, State.modifySlot_eq, State.slot_setSlot_same, State.setSlot_setSlot,
    State.mountUnformatted_eq]
  rfl

/-! ## The catalogue sectors -/

/-- A sector that fails its checks, or holds an entry beyond the card's extents, ends the mount (log entry 27). -/
theorem State.cardRead_entries_bad {h : CardHeader} {sector : Nat} (header : (s.slot side).lastHeader = some h)
    (bad : parseSector sector h.extents bytes = none ∨
      ∃ es, parseSector sector h.extents bytes = some es ∧ ∃ e ∈ es, h.extents < e.start + e.extents) :
    s.cardRead side (.entries sector) size bytes = s.mountEnded side { s.slot side with summary := none } .unformatted := by
  rw [← State.mountUnformatted_eq, State.setSlot_slot]
  unfold State.cardRead
  rw [header]
  dsimp only
  rcases bad with bad | ⟨es, read, beyond⟩
  · rw [bad]
  · rw [read]
    exact if_pos (by simpa using beyond)

theorem State.cardRead_entries {h : CardHeader} {sector : Nat} {es : List CatEntry} (header : (s.slot side).lastHeader = some h)
    (read : parseSector sector h.extents bytes = some es) (within : ∀ e ∈ es, e.start + e.extents ≤ h.extents) :
    s.cardRead side (.entries sector) size bytes =
      if sector < 250 then
        s.setSlot side { s.slot side with mounted := (s.slot side).mounted ++ es, reading := some (.entries (sector + 1)) }
      else s.mountRead side h ((s.slot side).mounted ++ es) := by
  unfold State.cardRead
  rw [header]
  dsimp only
  rw [read]
  exact if_neg (by simpa using within)

/-! ## The end of a mount -/

/-- The summary that a mount has read (R135, R137). -/
def mountedSummary (h : CardHeader) (entries : List CatEntry) : Summary :=
  { header := h, entries := entries, nextFree := nextFreeOf entries }

variable {h : CardHeader} {entries : List CatEntry}

/-- An OPEN entry is recovered on a card that is not protected (R139, R140). -/
theorem State.mountRead_recovers {e : CatEntry} (clear : (s.slot side).protectOn = false)
    (opened : entries.find? (fun e => e.state == .opened) = some e) : s.mountRead side h entries =
      s.setSlot side { s.slot side with
        state := .recovering, summary := some (mountedSummary h entries), mounted := []
        recovery := some { clip := e.clip, frames := 0, blocks := 0, tailEnd := 0 }
        reading := some (.index e.start) } := by
  unfold State.mountRead Summary.nextOpen
  dsimp only
  rw [State.modifySlot_eq, State.slot_setSlot_same, if_pos (by rw [opened, clear]; rfl), State.modifySlot_eq, State.slot_setSlot_same,
    State.setSlot_setSlot, State.recoverNext_open (by rw [State.slot_setSlot_same]) opened, State.slot_setSlot_same,
    State.setSlot_setSlot]
  rfl

/-- A mount that recovers nothing ends at once. -/
theorem State.mountRead_ends (none : (s.slot side).protectOn = true ∨ entries.find? (fun e => e.state == .opened) = none) :
    s.mountRead side h entries =
      (s.setSlot side { s.slot side with summary := some (mountedSummary h entries), reading := .none, mounted := [] }).mountEnds
        side (if (s.slot side).protectOn then .writeProtected else roomState (mountedSummary h entries)) 0 := by
  unfold State.mountRead Summary.nextOpen
  dsimp only
  rw [State.modifySlot_eq, State.slot_setSlot_same, if_neg]
  · rfl
  · rcases none with set | none
    · simp [set]
    · simp [none]

theorem mountedSummary_isFull : (mountedSummary h entries).isFull = true ↔
    h.extents - nextFreeOf entries = 0 ∨ 999 ≤ entries.length := by
  rw [Summary.isFull, Bool.or_eq_true, beq_iff_eq, decide_eq_true_iff]
  rfl

theorem roomState_full (full : h.extents - nextFreeOf entries = 0 ∨ 999 ≤ entries.length) :
    roomState (mountedSummary h entries) = .full := if_pos (mountedSummary_isFull.mpr full)

theorem roomState_ready (free : 0 < h.extents - nextFreeOf entries) (room : entries.length < 999) :
    roomState (mountedSummary h entries) = .ready :=
  if_neg fun full => (mountedSummary_isFull.mp full).elim free.ne' room.not_ge

theorem State.mountRead_protected (set : (s.slot side).protectOn = true) : s.mountRead side h entries =
    (s.mountEnded side { s.slot side with summary := some (mountedSummary h entries) } .writeProtected).judgeNearFull side := by
  rw [State.mountRead_ends (.inl set), set, if_pos rfl, State.mountEnds_setSlot]
  rfl

theorem State.mountRead_room (clear : (s.slot side).protectOn = false) (closed : ∀ e ∈ entries, e.state ≠ .opened)
    {state : SlotState} (room : roomState (mountedSummary h entries) = state) : s.mountRead side h entries =
      (s.setSlot side { s.slot side with summary := some (mountedSummary h entries), reading := none, mounted := [] }).mountEnds
        side state 0 := by
  have none : entries.find? (fun e => e.state == .opened) = .none :=
    List.find?_eq_none.mpr fun e used opened => closed e used (beq_iff_eq.mp opened)
  rw [State.mountRead_ends (.inr none), clear, if_neg Bool.false_ne_true, room]

/-! ## The index blocks of a recovery (R140) -/

/-- The entry is RECOVERED with the counts of the blocks read, and its write is owed. -/
theorem State.rebuild_eq {sum : Summary} (card : (s.slot side).summary = some sum) (r : Recovery) : s.rebuild side r =
    (s.setSlot side { s.slot side with
      summary := some { sum with entries := sum.entries.map (fun x =>
        if x.clip == r.clip then
          { x with
            state := .recovered, frames := r.frames, extents := r.blocks + (if 3932160 < r.tailEnd then 1 else 0) }
        else x) }
      reading := none, recovery := none, owed := (s.slot side).owed ++ [.rebuilt r.clip] }).runWriter side := by
  unfold State.rebuild CardSlot.modifySummary
  rw [State.modifySlot_eq, card]
  rfl

theorem ReadIndex.belongs_iff (b : ReadIndex) (sum : Summary) (e : CatEntry) (extent : Nat) : b.belongs sum e extent = true ↔
    b.formatNumber = sum.header.formatNumber ∧ b.clip = e.clip ∧ b.start = e.start ∧ b.ordinal + e.start = extent := by
  simp [ReadIndex.belongs, and_assoc]

variable {sum : Summary} {r : Recovery} {e : CatEntry} {extent : Nat}

/-- A block that fails its checks, or that is none of the copy's, is the end of the recovery. -/
theorem State.indexRead_stops (card : (s.slot side).summary = some sum) (recovers : (s.slot side).recovery = some r)
    (found : sum.entry r.clip = some e) (foreign : ∀ b, parseIndex bytes = some b → ¬ b.belongs sum e extent = true) :
    s.indexRead side extent bytes = s.rebuild side r := by
  unfold State.indexRead
  dsimp only
  rw [card, recovers]
  dsimp only
  rw [found]
  cases parsed : parseIndex bytes with
  | none => rfl
  | some b => exact if_neg (foreign b parsed)

/-- A block of the copy adds its units, and the next extent is read while the card has one. -/
theorem State.indexRead_counts (card : (s.slot side).summary = some sum) (recovers : (s.slot side).recovery = some r)
    (found : sum.entry r.clip = some e) {b : ReadIndex} (parsed : parseIndex bytes = some b)
    (own : b.belongs sum e extent = true) :
    let r' := { r with frames := r.frames + b.count, blocks := r.blocks + 1, tailEnd := b.tailEnd }
    s.indexRead side extent bytes =
      if extent + 1 < sum.header.extents then
        s.setSlot side { s.slot side with recovery := some r', reading := some (.index (extent + 1)) }
      else s.rebuild side r' := by
  unfold State.indexRead
  dsimp only
  split
  · next sum' r' card' recovers' =>
    cases card.symm.trans card'
    cases recovers.symm.trans recovers'
    rw [found, parsed]
    exact if_pos own
  · next not => exact absurd recovers (not sum r card)

end

/-- Settles O46: each read by what its bytes are read as, and the two ends of a mount and of a recovery. -/
theorem cardMounts : Obligations.CardMounts := by
  unfold Obligations.CardMounts
  intro side size bytes s works c event ended
  have reads {read : CardRead} {u : State} (reading : c.reading = some read) (h : s.cardRead side read size bytes = u) :
      Becomes event s u :=
    becomes_act (f := (·.readAnswered side (.done size bytes))) works rfl ((State.readAnswered_done reading).trans h)
  refine ⟨fun reading => reads reading rfl, fun reading => ⟨fun bad => reads reading (State.cardRead_header_bad bad), fun h good => ?_⟩,
    fun sum r e extent reading card recovers found => ?_, fun h sector reading header => ⟨fun bad => ?_, fun es read within => ?_⟩⟩
  · have judged := State.cardRead_header (s := s) (side := side) (size := size) good
    exact ⟨fun beyond => reads reading (judged.trans (if_pos beyond)),
      fun within => reads reading (judged.trans (if_neg within.not_gt))⟩
  · intro belongs rebuilt
    have stops (r' : Recovery) : s.rebuild side r' = rebuilt r' := State.rebuild_eq card r'
    refine ⟨fun foreign => reads reading ?_, fun b parsed own => ?_⟩
    · refine (State.indexRead_stops card recovers found fun b parsed own => ?_).trans (stops r)
      exact foreign b parsed ((b.belongs_iff sum e extent).mp own)
    · have counts := State.indexRead_counts card recovers found parsed ((b.belongs_iff sum e extent).mpr own)
      exact ⟨fun more => reads reading (counts.trans (if_pos more)),
        fun last => reads reading ((counts.trans (if_neg last.not_gt)).trans (stops _))⟩
  · exact reads reading (State.cardRead_entries_bad header bad)
  · intro all next sum
    have judged := State.cardRead_entries (size := size) header read within
    have held : mountedSummary h all = sum := by rw [mountedSummary, nextFreeOf_eq]
    refine ⟨fun more => reads reading (judged.trans (if_pos more)), fun last => ?_⟩
    have ends {u : State} (h : s.mountRead side h all = u) : Becomes event s u :=
      reads reading ((judged.trans (if_neg last.not_gt)).trans h)
    refine ⟨fun e clear opened => ends ?_, fun set => ends ?_, fun clear closed => ⟨fun full => ends ?_, fun free room => ends ?_⟩⟩
    · rw [State.mountRead_recovers clear opened, held]
    · rw [State.mountRead_protected set, held]
      rfl
    · rw [State.mountRead_room clear closed (roomState_full (by rwa [nextFreeOf_eq])), State.mountEnds_setSlot, held]
      rfl
    · rw [State.mountRead_room clear closed (roomState_ready (by rwa [nextFreeOf_eq]) room), State.mountEnds_setSlot, held]
      rfl

end Sys2Proof.Machine

namespace Sys2Proof.Machine

/-! # The order of a card's writes (R141, R142) -/

/-! ## Issuing a command (R142) -/

/-- A command may be issued before those of `older`: what it depends on has left the queue, and it overlaps none of them. -/
def CardSlot.mayIssue (c : CardSlot) (older : List CardCmd) (x : CardCmd) : Prop :=
  (∀ d ∈ x.depends, ∀ y ∈ c.queue, y.id ≠ d) ∧
    ∀ y ∈ older, ¬ (y.first < x.first + x.sectors ∧ x.first < y.first + y.sectors)

theorem CardSlot.mayIssue_iff (c : CardSlot) (older : List CardCmd) (x : CardCmd) :
    (x.depends.all (fun d => !c.queued d) && older.all (fun y => !y.overlaps x)) = true ↔ c.mayIssue older x := by
  simp only [CardSlot.mayIssue, CardSlot.queued, CardCmd.overlaps, Bool.and_eq_true, List.all_eq_true, List.any_eq_true,
    Bool.not_eq_true', Bool.eq_false_iff, Ne, not_exists, beq_iff_eq, decide_eq_true_eq, not_and]

/-- The command at a place of a list goes before every other one that may be issued: its priority is higher, or the same and it
is the older one. -/
def CardSlot.Leads (c : CardSlot) (older l front : List CardCmd) (x : CardCmd) : Prop :=
  c.mayIssue (older ++ front) x ∧ ∀ front' y back', l = front' ++ y :: back' → c.mayIssue (older ++ front') y →
    y.kind.priority < x.kind.priority ∨ (y.kind.priority = x.kind.priority ∧ front.length ≤ front'.length)

section
variable {c : CardSlot}

/-- Only the first of some commands leads where no later one may be issued. -/
theorem CardSlot.Leads.of_first {older l : List CardCmd} {x : CardCmd} (may : c.mayIssue older x)
    (rest : ∀ front y back, l = front ++ y :: back → c.mayIssue (older ++ [x] ++ front) y → y.kind.priority ≤ x.kind.priority) :
    c.Leads older (x :: l) [] x := by
  refine ⟨by rwa [List.append_nil], fun front' y back' split mayY => ?_⟩
  cases front' with
  | nil =>
    cases split
    exact .inr ⟨rfl, le_rfl⟩
  | cons z front =>
    cases split
    have low := rest front y back' rfl (by simpa using mayY)
    exact low.lt_or_eq.imp_right fun same => ⟨same, Nat.zero_le _⟩

/-- A later command leads when the first may not be issued or has a lower priority. -/
theorem CardSlot.Leads.of_rest {older l front : List CardCmd} {x y : CardCmd} (leads : c.Leads (older ++ [x]) l front y)
    (first : c.mayIssue older x → x.kind.priority < y.kind.priority) : c.Leads older (x :: l) (x :: front) y := by
  refine ⟨by simpa using leads.1, fun front' z back' split mayZ => ?_⟩
  cases front' with
  | nil =>
    cases split
    exact .inl (first (by simpa using mayZ))
  | cons w front' =>
    cases split
    have after := leads.2 front' z back' rfl (by simpa using mayZ)
    exact after.imp_right fun ⟨same, before⟩ => ⟨same, Nat.succ_le_succ before⟩

/-- What the oldest command of the highest priority is, among those of `l` that may be issued behind `older`. -/
theorem CardSlot.bestCmd_issuable (c : CardSlot) : ∀ (l older : List CardCmd),
    (∀ x, bestCmd (c.issuable older l) = some x → ∃ front back, l = front ++ x :: back ∧ c.Leads older l front x) ∧
    (bestCmd (c.issuable older l) = none → ∀ front x back, l = front ++ x :: back → ¬ c.mayIssue (older ++ front) x)
  | [], older => by
    refine ⟨fun x best => ?_, fun _ front x back split => by simp at split⟩
    rw [CardSlot.issuable] at best
    cases best
  | x :: l, older => by
    obtain ⟨some', none'⟩ := CardSlot.bestCmd_issuable c l (older ++ [x])
    by_cases may : c.mayIssue older x
    · have issuable : c.issuable older (x :: l) = x :: c.issuable (older ++ [x]) l := if_pos ((c.mayIssue_iff older x).mpr may)
      rw [issuable, bestCmd]
      cases best : bestCmd (c.issuable (older ++ [x]) l) with
      | none =>
        refine ⟨fun z is => ?_, fun is => nomatch is⟩
        cases is
        exact ⟨[], l, rfl, .of_first may fun front y back split mayY => absurd mayY (none' best front y back split)⟩
      | some y =>
        obtain ⟨front, back, split, leads⟩ := some' y best
        dsimp only
        by_cases higher : x.kind.priority < y.kind.priority
        · rw [if_pos higher]
          refine ⟨fun z is => ?_, fun is => nomatch is⟩
          cases is
          exact ⟨x :: front, back, congrArg (x :: ·) split, leads.of_rest fun _ => higher⟩
        · rw [if_neg higher]
          refine ⟨fun z is => ?_, fun is => nomatch is⟩
          cases is
          refine ⟨[], l, rfl, .of_first may fun front' z back' split' mayZ => ?_⟩
          have after := leads.2 front' z back' split' mayZ
          omega
    · have issuable : c.issuable older (x :: l) = c.issuable (older ++ [x]) l :=
        if_neg (mt (c.mayIssue_iff older x).mp may)
      rw [issuable]
      refine ⟨fun y best => ?_, fun best front z back split => ?_⟩
      · obtain ⟨front, back, split, leads⟩ := some' y best
        exact ⟨x :: front, back, congrArg (x :: ·) split, leads.of_rest fun is => absurd is may⟩
      · cases front with
        | nil =>
          cases split
          rwa [List.append_nil]
        | cons w front =>
          cases split
          simpa using none' best front z back rfl

theorem CardSlot.issue_flying {id : Nat} (flies : c.inFlight = some id) : c.issue = c := if_pos (by rw [flies]; rfl)

/-- With nothing in flight, the best command that may be issued is put in flight, if there is one. -/
theorem CardSlot.issue_idle (idle : c.inFlight = none) :
    c.issue = { c with inFlight := (bestCmd (c.issuable [] c.queue)).map CardCmd.id } := by
  unfold CardSlot.issue
  rw [if_neg (by simp [idle])]
  cases bestCmd (c.issuable [] c.queue) with
  | none => exact (congrArg (fun flying => { c with inFlight := flying }) idle)
  | some x => rfl

end

/-! ## Filling a place (R141) -/

section
variable {c : CardSlot}

/-- A CATALOGUE command that writes the copy's entry CLOSED, while the copy's last INDEX command is queued (R141). -/
def CardSlot.closesAfter (c : CardSlot) (p : CatPurpose) (copy : WriterCopy) (id : Nat) : Prop :=
  c.copy = some copy ∧ copy.stage = .entryClosed ∧ p.clip.isSome = true ∧ p.sector = (copy.clip - 1) / 4 + 1 ∧
    copy.lastIndex = some id ∧ id ∈ c.queue.map CardCmd.id

theorem CardSlot.queued_iff (c : CardSlot) (id : Nat) : c.queued id = true ↔ id ∈ c.queue.map CardCmd.id := by
  simp [CardSlot.queued]

theorem CardSlot.catDepends_closing {p : CatPurpose} {copy : WriterCopy} {id : Nat} (closes : c.closesAfter p copy id) :
    c.catDepends p = [id] := by
  obtain ⟨held, stage, isSome, sector, last, queued⟩ := closes
  have own : (copy.stage == .entryClosed && entrySector copy.clip == p.sector && p.clip.isSome) = true := by
    simp [stage, isSome, sector, entrySector, Nat.add_comm]
  unfold CardSlot.catDepends
  rw [held]
  dsimp only
  rw [if_pos own, last]
  exact if_pos ((c.queued_iff id).mpr queued)

/-- Any other CATALOGUE command waits for none. -/
theorem CardSlot.catDepends_other {p : CatPurpose} (other : ∀ copy id, ¬ c.closesAfter p copy id) : c.catDepends p = [] := by
  unfold CardSlot.catDepends
  cases held : c.copy with
  | none => rfl
  | some copy =>
    dsimp only
    split
    · next own =>
      simp only [Bool.and_eq_true, beq_iff_eq] at own
      obtain ⟨⟨stage, sector⟩, isSome⟩ := own
      cases last : copy.lastIndex with
      | none => rfl
      | some id =>
        refine if_neg fun queued => other copy id ⟨held, stage, isSome, ?_, last, (c.queued_iff id).mp queued⟩
        rw [← sector, entrySector, Nat.add_comm]
    · rfl

/-- A queued ESSENCE command with bytes of a unit that the block lists is waited for. -/
theorem CardSlot.mem_indexDepends {block : IndexBlock} {x : CardCmd} (queued : x ∈ c.queue) {units : List Serial}
    {ends : List (Serial × Nat)} (kind : x.kind = .essence units ends) (lists : ∃ i ∈ block.entries, i.serial ∈ units) :
    x.id ∈ c.indexDepends block := by
  refine List.mem_map_of_mem (List.mem_filter.mpr ⟨queued, ?_⟩)
  rw [kind]
  simpa using lists

theorem CardSlot.push_length {kind : CardCmdKind} {first sectors : Nat} {depends : List Nat} {data : List Byte}
    (room : c.queue.length < 8) : (c.push kind first sectors depends data).queue.length ≤ 8 := by
  rw [CardSlot.push, List.length_append]
  exact room

/-- The ways in which a place is filled: with the first owed CATALOGUE command, and else with an owed INDEX command or a ready
chunk of the copy. -/
theorem CardSlot.fillPlace_cases {c' : CardSlot} (filled : c.fillPlace = some c') : c.queue.length < 8 ∧
    ((∃ p rest, c.owed = p :: rest ∧
        c' = { c with owed := rest }.push (.catalogue p) p.sector 1 (c.catDepends p) (c.image p)) ∨
      c.owed = [] ∧ ∃ copy, c.copy = some copy ∧
        ((∃ block, c' = { c with copy := some { copy with owedIndex := copy.owedIndex.drop 1, lastIndex := some c.nextId } }.push
            (.index block) (8192 * block.extent) 8 (c.indexDepends block) block.bytes) ∨
          ∃ chunk : Chunk, c' = { c with copy := some { copy with ready := none } }.push (.essence chunk.units chunk.ends)
            (chunkSector chunk.extent chunk.chunk) ((padTo 512 chunk.bytes).length / 512) [] (padTo 512 chunk.bytes))) := by
  unfold CardSlot.fillPlace at filled
  split at filled
  · cases filled
  · next place =>
    refine ⟨by simpa [CardSlot.hasPlace] using place, ?_⟩
    split at filled
    · next p rest owed =>
      cases filled
      exact .inl ⟨p, rest, owed, rfl⟩
    · next owed =>
      split at filled
      · cases filled
      · next copy held =>
        refine .inr ⟨owed, copy, held, ?_⟩
        split at filled
        · next block _ =>
          cases filled
          exact .inl ⟨block, rfl⟩
        · split at filled
          · next chunk _ =>
            cases filled
            exact .inr ⟨chunk, rfl⟩
          · cases filled

end

/-- Padded bytes are whole sectors (R141). -/
theorem padTo_whole (bytes : List Byte) : (padTo 512 bytes).length % 512 = 0 := by
  rw [padTo, List.length_append, List.length_replicate]
  omega

/-- Settles O43: the command that leads the queue is issued, and each way of filling a place pushes one command. -/
theorem writeOrder : Obligations.WriteOrder := by
  unfold Obligations.WriteOrder
  refine ⟨fun c => ?_, fun c c' filled => ?_⟩
  · intro priority may
    have priorityEq (x : CardCmd) : x.kind.priority = priority x := by
      cases kind : x.kind <;> simp only [priority, kind] <;> rfl
    obtain ⟨best, none'⟩ := c.bestCmd_issuable c.queue []
    refine ⟨fun id flies => CardSlot.issue_flying flies, fun idle => ?_⟩
    rw [CardSlot.issue_idle idle]
    refine ⟨fun id flies => ?_, fun stays front x back split => ?_, ?_⟩
    · obtain ⟨x, is, rfl⟩ := Option.map_eq_some_iff.mp flies
      obtain ⟨front, back, split, leads⟩ := best x is
      refine ⟨front, x, back, split, rfl, leads.1, fun front' y back' split' mayY => ?_⟩
      rw [← priorityEq, ← priorityEq]
      exact leads.2 front' y back' split' mayY
    · exact none' (Option.map_eq_none_iff.mp stays) front x back split
    · rw [← idle]
  · obtain ⟨room, ⟨p, rest, owed, rfl⟩ | ⟨owed, copy, held, ⟨block, rfl⟩ | ⟨chunk, rfl⟩⟩⟩ := CardSlot.fillPlace_cases filled
    · refine ⟨_, rfl, rfl, rfl, CardSlot.push_length room, rfl, rfl, fun p' rest' owed' => ?_, fun p' kind => ?_,
        fun _ _ kind => ?_, fun _ kind => ?_⟩
      · cases owed.symm.trans owed'
        exact ⟨rfl, rfl, rfl, rfl, rfl⟩
      · cases kind
        by_cases closes : ∃ copy id, c.closesAfter p copy id
        · obtain ⟨copy, id, held, stage, isSome, sector, last, queued⟩ := closes
          exact .inl ⟨copy, held, stage, isSome, sector, id, queued, last,
            CardSlot.catDepends_closing ⟨held, stage, isSome, sector, last, queued⟩⟩
        · have other (copy : WriterCopy) (id : Nat) : ¬ c.closesAfter p copy id := fun is => closes ⟨copy, id, is⟩
          exact .inr ⟨CardSlot.catDepends_other other, fun copy id held stage isSome sector last queued =>
            other copy id ⟨held, stage, isSome, sector, last, queued⟩⟩
      · cases kind
      · cases kind
    · refine ⟨_, rfl, rfl, rfl, CardSlot.push_length room, rfl, rfl, fun _ _ owed' => ?_, fun _ kind => ?_, fun _ _ kind => ?_,
        fun block' kind => ?_⟩
      · cases owed.symm.trans owed'
      · cases kind
      · cases kind
      · cases kind
        exact ⟨rfl, rfl, ⟨_, rfl, rfl⟩, fun x queued units ends kind lists => CardSlot.mem_indexDepends queued kind lists⟩
    · refine ⟨_, rfl, rfl, rfl, CardSlot.push_length room, rfl, rfl, fun _ _ owed' => ?_, fun _ kind => ?_,
        fun units ends _ => ⟨rfl, padTo_whole chunk.bytes, rfl⟩, fun _ kind => ?_⟩
      · cases owed.symm.trans owed'
      · cases kind
      · cases kind

end Sys2Proof.Machine

namespace Sys2Proof.Machine

/-! # Fields in a row of bytes (R194, R197) -/

/-- Of parts that stand one behind another, each is read behind the lengths of those before it. -/
theorem field_part {parts : List (List Byte)} (i : Nat) {part : List Byte} (here : parts[i]? = some part) {first count : Nat}
    (before : ((parts.take i).map List.length).sum = first) (size : part.length = count) :
    field parts.flatten first count = part := by
  obtain ⟨lt, is⟩ := List.getElem?_eq_some_iff.mp here
  have split : parts.flatten = (parts.take i).flatten ++ (part ++ (parts.drop (i + 1)).flatten) := by
    rw [← is, ← List.flatten_cons, ← List.drop_eq_getElem_cons lt, ← List.flatten_append, List.take_append_drop]
  rw [split, field, List.drop_left' (by rw [List.length_flatten, before]), List.take_left' size]

theorem sum_lengths {parts : List (List Byte)} {n : Nat} (sizes : ∀ part ∈ parts, part.length = n) :
    (parts.map List.length).sum = n * parts.length := by
  rw [List.map_congr_left sizes, List.map_const', List.sum_replicate, smul_eq_mul, Nat.mul_comm]

/-- Parts of one length are read at its multiples. -/
theorem field_row {parts : List (List Byte)} {n : Nat} (sizes : ∀ part ∈ parts, part.length = n) {i : Nat} {part : List Byte}
    (here : parts[i]? = some part) : field parts.flatten (n * i) n = part := by
  refine field_part i here ?_ (sizes part (List.mem_of_getElem? here))
  rw [sum_lengths fun part mem => sizes part (List.mem_of_mem_take mem), List.length_take,
    Nat.min_eq_left (List.getElem?_eq_some_iff.mp here).1.le]

theorem field_skip {front : List Byte} {n : Nat} (size : front.length = n) (bytes : List Byte) (first count : Nat) :
    field (front ++ bytes) (n + first) count = field bytes first count := by
  rw [field, ← List.drop_drop, List.drop_left' size, field]

theorem field_before {bytes : List Byte} {first count : Nat} (within : first + count ≤ bytes.length) (back : List Byte) :
    field (bytes ++ back) first count = field bytes first count := by
  rw [field, List.drop_append_of_le_length (by omega), List.take_append_of_le_length (by rw [List.length_drop]; omega), field]

/-- A field of a field. -/
theorem field_field (bytes : List Byte) (first inner : Nat) {n count : Nat} (within : inner + count ≤ n) :
    field (field bytes first n) inner count = field bytes (first + inner) count := by
  rw [field, field, field, List.drop_take, List.take_take, Nat.min_eq_left (by omega), List.drop_drop]

/-- A field that holds a number's bytes reads as the number. -/
theorem num_of_field {bytes : List Byte} {first n x : Nat} (holds : field bytes first n = beBytes n x) (fits : x < 256 ^ n) :
    num bytes first n = x := by
  rw [num, holds, ofBytes_beBytes, Nat.mod_eq_of_lt fits]

theorem getElem?_of_field {bytes : List Byte} {i : Nat} {x : Byte} (holds : field bytes i 1 = [x]) : bytes[i]? = some x := by
  have first := congrArg List.head? holds
  rwa [field, List.head?_take, if_neg (by decide), List.head?_drop] at first

theorem allZero_replicate (n : Nat) : allZero (List.replicate n 0) = true := by simp [allZero]

theorem allZero_iff {bytes : List Byte} : allZero bytes = true ↔ ∀ x ∈ bytes, x = 0 := by simp [allZero]

theorem num_zeros (first n : Nat) (bytes : List Byte) (zero : field bytes first n = List.replicate n 0) : num bytes first n = 0 := by
  have none : ∀ k, ofBytes (List.replicate k 0) = 0 := fun k => by
    induction k with
    | zero => rfl
    | succ k ih =>
      rw [List.replicate_succ, ofBytes, List.foldl_cons]
      exact ih
  rw [num, zero, none]

/-- The flags that a byte packs (R194). -/
theorem getLsbD_packFlags (x y z : Bool) :
    (BitVec.ofNat 8 (packFlags [x, y, z])).getLsbD 0 = x ∧ (BitVec.ofNat 8 (packFlags [x, y, z])).getLsbD 1 = y ∧
      (BitVec.ofNat 8 (packFlags [x, y, z])).getLsbD 2 = z := by
  cases x <;> cases y <;> cases z <;> decide

theorem testBit_packFlags (x y : Bool) :
    (packFlags [x, y]).testBit 0 = x ∧ (packFlags [x, y]).testBit 1 = y ∧ packFlags [x, y] < 4 := by
  cases x <;> cases y <;> decide

/-! ## Bytes with their CRC behind them -/

section
variable {parts : List (List Byte)} {n : Nat} (size : parts.flatten.length = n)
include size

theorem withCrc_length : (withCrc parts.flatten).length = n + 2 := by
  rw [withCrc, List.length_append, size, crcBytes_length]

/-- The CRC check (R198) holds of bytes that were written with their CRC. -/
theorem withCrc_crc : field (withCrc parts.flatten) n 2 = crcBytes ((withCrc parts.flatten).take n) := by
  rw [withCrc, List.take_left' size, field, List.drop_left' size, List.take_of_length_le (crcBytes_length _).le]

end

section
variable {parts : List (List Byte)} {sizes : List Nat} (each : parts.map List.length = sizes)
include each

/-- Of parts with their CRC behind them, each is read behind the sizes of those before it. -/
theorem withCrc_part (i : Nat) {part : List Byte} (here : parts[i]? = some part) {first count : Nat}
    (before : (sizes.take i).sum = first) (size : sizes[i]? = some count) :
    field (withCrc parts.flatten) first count = part := by
  have whole : withCrc parts.flatten = (parts ++ [crcBytes parts.flatten]).flatten := by
    rw [withCrc, List.flatten_append, List.flatten_singleton]
  have lt := (List.getElem?_eq_some_iff.mp here).1
  rw [whole]
  refine field_part i ?_ ?_ ?_
  · rw [List.getElem?_append_left lt, here]
  · rw [List.take_append_of_le_length lt.le, List.map_take, each, before]
  · rw [← each, List.getElem?_map, here] at size
    exact Option.some_inj.mp size

/-- A number among the parts. -/
theorem withCrc_num (i : Nat) {n x : Nat} (here : parts[i]? = some (beBytes n x)) {first : Nat}
    (before : (sizes.take i).sum = first) (size : sizes[i]? = some n) (fits : x < 256 ^ n) :
    num (withCrc parts.flatten) first n = x :=
  num_of_field (withCrc_part each i here before size) fits

end

/-! # The header (R135, R197, R198) -/

/-- The fields of a header sector before its CRC. -/
def CardHeader.parts (h : CardHeader) : List (List Byte) :=
  [[0x56, 0x43, 0x41, 0x54], u16 1, h.label, u16 h.extents, u32 h.formatNumber, List.replicate 482 0]

theorem CardHeader.bytes_eq (h : CardHeader) : h.bytes = withCrc h.parts.flatten := by
  unfold CardHeader.bytes CardHeader.parts
  simp only [List.flatten_cons, List.flatten_nil, List.append_nil, List.append_assoc]

theorem CardHeader.parts_sizes {h : CardHeader} (label : h.label.length = 16) :
    h.parts.map List.length = [4, 2, 16, 2, 4, 482] := by
  simp only [CardHeader.parts, List.map_cons, List.map_nil, label, List.length_replicate]
  rfl

theorem parseHeader_bytes {h : CardHeader} (label : h.label.length = 16) (chars : h.label.all isCardChar = true)
    (two : 2 ≤ h.extents) (extents : h.extents ≤ 65535) (format : h.formatNumber < 4294967296) :
    parseHeader h.bytes = some h := by
  have sizes := CardHeader.parts_sizes label
  have size : h.parts.flatten.length = 510 := by rw [List.length_flatten, sizes]; rfl
  have magicAt : field (withCrc h.parts.flatten) 0 4 = [0x56, 0x43, 0x41, 0x54] := withCrc_part sizes 0 rfl rfl rfl
  have versionAt : num (withCrc h.parts.flatten) 4 2 = 1 := withCrc_num sizes 1 rfl rfl rfl (by decide)
  have labelAt : field (withCrc h.parts.flatten) 6 16 = h.label := withCrc_part sizes 2 rfl rfl rfl
  have extentsAt : num (withCrc h.parts.flatten) 22 2 = h.extents := withCrc_num sizes 3 rfl rfl rfl (by omega)
  have formatAt : num (withCrc h.parts.flatten) 24 4 = h.formatNumber := withCrc_num sizes 4 rfl rfl rfl (by omega)
  have restAt : field (withCrc h.parts.flatten) 28 482 = List.replicate 482 0 := withCrc_part sizes 5 rfl rfl rfl
  unfold parseHeader
  rw [h.bytes_eq, withCrc_length size, magicAt, versionAt, labelAt, extentsAt, formatAt, restAt, withCrc_crc size, allZero_replicate]
  simp [chars, two]

/-! # A catalogue sector (R134, R135, R197, R198) -/

/-- What an entry of the writer holds: numbers that fit their fields, a start on the card, and a label not all zero in what it
continues (R135, R197). -/
structure CatEntry.Fits (e : CatEntry) (extents : Nat) : Prop where
  clip : 1 ≤ e.clip ∧ e.clip ≤ 999
  start : 1 ≤ e.start ∧ e.start < extents ∧ e.start < 65536
  extents : e.extents < 65536
  frames : e.frames < 4294967296
  hours : e.label.time.hours < 256
  minutes : e.label.time.minutes < 256
  seconds : e.label.time.seconds < 256
  timeFrames : e.label.time.frames < 256
  rateCode : e.rateCode < 256
  continues : ∀ r, e.continues = some r → r.label.length = 16 ∧ r.clip < 65536 ∧ ∃ b ∈ r.label, b ≠ 0

/-- The fields of a used entry before its CRC. -/
def CatEntry.parts (e : CatEntry) : List (List Byte) :=
  [u16 e.clip, u8 e.state.code, u8 (packFlags [e.continuation, e.retained, e.mirrored]), u16 e.start, u16 e.extents, u32 e.frames,
    u8 e.label.time.hours, u8 e.label.time.minutes, u8 e.label.time.seconds, u8 e.label.time.frames, u32 e.label.userBits.toNat,
    flagByte e.labelValid, u8 e.rateCode, flagByte e.dropFrame, [0], continuesBytes e.continues, List.replicate 84 0]

theorem CatEntry.bytes_eq (e : CatEntry) : e.bytes = withCrc e.parts.flatten := by
  unfold CatEntry.bytes CatEntry.parts Label.bytes Timecode.bytes
  simp only [List.flatten_cons, List.flatten_nil, List.append_nil, List.append_assoc]

theorem continuesBytes_length {c : Option CopyRef} (label : ∀ r, c = some r → r.label.length = 16) : (continuesBytes c).length = 18 := by
  cases c with
  | none => exact List.length_replicate
  | some r => rw [continuesBytes, List.length_append, u16_length, label r rfl]

theorem parseContinues_bytes {c : Option CopyRef}
    (good : ∀ r, c = some r → r.label.length = 16 ∧ r.clip < 65536 ∧ ∃ b ∈ r.label, b ≠ 0) :
    parseContinues (continuesBytes c) = c := by
  cases c with
  | none => exact if_pos (allZero_replicate 18)
  | some r =>
    obtain ⟨size, clip, b, mem, nonzero⟩ := good r rfl
    have clipAt : num (r.label ++ u16 r.clip) 16 2 = r.clip := by
      have read := num_field r.label [] 2 r.clip (by omega)
      rwa [List.append_nil, size] at read
    have used : ¬ allZero (r.label ++ u16 r.clip) = true := fun zero =>
      nonzero (allZero_iff.mp zero b (List.mem_append_left _ mem))
    unfold parseContinues continuesBytes
    rw [if_neg used, clipAt, List.take_left' size]

section
variable {e : CatEntry} {extents : Nat}

theorem CatEntry.parts_sizes (fits : e.Fits extents) :
    e.parts.map List.length = [2, 1, 1, 2, 2, 4, 1, 1, 1, 1, 4, 1, 1, 1, 1, 18, 84] := by
  have continues : (continuesBytes e.continues).length = 18 := continuesBytes_length fun r is => (fits.continues r is).1
  simp only [CatEntry.parts, List.map_cons, List.map_nil, continues, List.length_replicate]
  rfl

theorem CatEntry.parts_length (fits : e.Fits extents) : e.parts.flatten.length = 126 := by
  rw [List.length_flatten, CatEntry.parts_sizes fits]
  rfl

theorem CatEntry.bytes_length (fits : e.Fits extents) : e.bytes.length = 128 := by
  rw [e.bytes_eq, withCrc_length (CatEntry.parts_length fits)]

theorem entryStateOfCode_code (state : EntryState) : entryStateOfCode state.code = some state := by cases state <;> rfl

/-- A used entry's state code is not zero, so its place is not a FREE one. -/
theorem CatEntry.bytes_used (fits : e.Fits extents) : ¬ allZero e.bytes = true := by
  have stateAt : field e.bytes 2 1 = u8 e.state.code := by
    rw [e.bytes_eq]
    exact withCrc_part (CatEntry.parts_sizes fits) 1 rfl rfl rfl
  intro zero
  have byte := allZero_iff.mp zero _ (List.mem_of_getElem? (getElem?_of_field stateAt))
  revert byte
  cases e.state <;> decide

theorem flag_fits (b : Bool) : (if b then 1 else 0) < 256 ^ 1 := by cases b <;> decide

theorem flag_ne_zero (b : Bool) : ((if b then 1 else 0) != 0) = b := by cases b <;> rfl

/-- An entry passes the checks of its place (R198). -/
theorem parsePlace_bytes (fits : e.Fits extents) : parsePlace e.clip extents e.bytes = some (some e) := by
  have sizes := CatEntry.parts_sizes fits
  have clipAt : num (withCrc e.parts.flatten) 0 2 = e.clip := withCrc_num sizes 0 rfl rfl rfl (by have := fits.clip; omega)
  have stateAt : num (withCrc e.parts.flatten) 2 1 = e.state.code :=
    withCrc_num sizes 1 rfl rfl rfl (by cases e.state <;> decide)
  have flagsAt : (withCrc e.parts.flatten)[3]? = some (BitVec.ofNat 8 (packFlags [e.continuation, e.retained, e.mirrored])) :=
    getElem?_of_field ((withCrc_part sizes 2 rfl rfl rfl).trans (by simp [u8, beBytes]))
  have startAt : num (withCrc e.parts.flatten) 4 2 = e.start := withCrc_num sizes 3 rfl rfl rfl fits.start.2.2
  have extentsAt : num (withCrc e.parts.flatten) 6 2 = e.extents := withCrc_num sizes 4 rfl rfl rfl fits.extents
  have framesAt : num (withCrc e.parts.flatten) 8 4 = e.frames := withCrc_num sizes 5 rfl rfl rfl fits.frames
  have timeAt : timecodeAt (withCrc e.parts.flatten) 12 = e.label.time := by
    have hoursAt : num (withCrc e.parts.flatten) 12 1 = e.label.time.hours := withCrc_num sizes 6 rfl rfl rfl fits.hours
    have minutesAt : num (withCrc e.parts.flatten) 13 1 = e.label.time.minutes := withCrc_num sizes 7 rfl rfl rfl fits.minutes
    have secondsAt : num (withCrc e.parts.flatten) 14 1 = e.label.time.seconds := withCrc_num sizes 8 rfl rfl rfl fits.seconds
    have framesAt : num (withCrc e.parts.flatten) 15 1 = e.label.time.frames := withCrc_num sizes 9 rfl rfl rfl fits.timeFrames
    rw [timecodeAt, hoursAt, minutesAt, secondsAt, framesAt]
  have bitsAt : num (withCrc e.parts.flatten) 16 4 = e.label.userBits.toNat :=
    withCrc_num sizes 10 rfl rfl rfl e.label.userBits.isLt
  have validAt : num (withCrc e.parts.flatten) 20 1 = if e.labelValid then 1 else 0 :=
    withCrc_num sizes 11 rfl rfl rfl (flag_fits _)
  have rateAt : num (withCrc e.parts.flatten) 21 1 = e.rateCode := withCrc_num sizes 12 rfl rfl rfl fits.rateCode
  have dropAt : num (withCrc e.parts.flatten) 22 1 = if e.dropFrame then 1 else 0 :=
    withCrc_num sizes 13 rfl rfl rfl (flag_fits _)
  have gapAt : field (withCrc e.parts.flatten) 23 1 = [0] := withCrc_part sizes 14 rfl rfl rfl
  have continuesAt : field (withCrc e.parts.flatten) 24 18 = continuesBytes e.continues := withCrc_part sizes 15 rfl rfl rfl
  have restAt : field (withCrc e.parts.flatten) 42 84 = List.replicate 84 0 := withCrc_part sizes 16 rfl rfl rfl
  obtain ⟨continuation, retained, mirrored⟩ := getLsbD_packFlags e.continuation e.retained e.mirrored
  have checks : (e.clip == e.clip && decide (1 ≤ e.start) && decide (e.start < extents) && allZero [0] &&
      allZero (List.replicate 84 0) && crcBytes ((withCrc e.parts.flatten).take 126) ==
        crcBytes ((withCrc e.parts.flatten).take 126)) = true := by
    rw [allZero_replicate]
    simp [fits.start.1, fits.start.2.1, allZero]
  unfold parsePlace
  rw [if_neg (CatEntry.bytes_used fits), e.bytes_eq, stateAt, entryStateOfCode_code]
  dsimp only
  rw [clipAt, startAt, gapAt, restAt, withCrc_crc (CatEntry.parts_length fits), if_pos checks, flagsAt, Option.getD_some, continuation,
    retained, mirrored, extentsAt, framesAt, timeAt, bitsAt, validAt, rateAt, dropAt, continuesAt, flag_ne_zero, flag_ne_zero,
    parseContinues_bytes fits.continues, BitVec.ofNat_toNat, BitVec.setWidth_eq]

end

/-! ## The four places of a sector -/

/-- Places that each pass their check give the used entries in their order. -/
theorem foldr_places {judge : Nat → Option (Option CatEntry)} {entry : Nat → Option CatEntry} : ∀ places : List Nat,
    (∀ i ∈ places, judge i = some (entry i)) →
    places.foldr (fun i acc => match judge i, acc with
      | some (some e), some es => some (e :: es)
      | some none, some es => some es
      | _, _ => none) (some []) = some (places.filterMap entry)
  | [], _ => rfl
  | i :: places, good => by
    obtain ⟨here, later⟩ := List.forall_mem_cons.mp good
    rw [List.foldr_cons, foldr_places places later, here]
    cases is : entry i with
    | none => rw [List.filterMap_cons_none is]
    | some e => rw [List.filterMap_cons_some is]

section
variable {sum : Summary} {extents : Nat} (fits : ∀ e ∈ sum.entries, e.Fits extents)
include fits

theorem Summary.placeBytes_length (clip : Nat) : (sum.placeBytes clip).length = 128 := by
  unfold Summary.placeBytes
  cases found : sum.entry clip with
  | none => exact List.length_replicate
  | some e => exact CatEntry.bytes_length (fits e (List.mem_of_find?_eq_some found))

/-- Each place of a catalogue sector passes its check with the entry that it holds; the place behind clip 999's stays zero. -/
theorem Summary.placeBytes_judged (clip : Nat) :
    (if clip = 1000 then (if allZero (sum.placeBytes clip) then some none else none)
      else parsePlace clip extents (sum.placeBytes clip)) = some (sum.entry clip) := by
  unfold Summary.placeBytes
  cases found : sum.entry clip with
  | none =>
    dsimp only
    rw [if_pos (allZero_replicate 128), parsePlace, if_pos (allZero_replicate 128), ite_self]
  | some e =>
    have good := fits e (List.mem_of_find?_eq_some found)
    have own : e.clip = clip := by simpa using List.find?_some found
    subst own
    rw [if_neg (by have := good.clip; omega)]
    exact parsePlace_bytes good

theorem parseSector_bytes {sector : Nat} (first' : 1 ≤ sector) : parseSector sector extents (sum.sectorBytes sector) =
    some ([4 * sector - 3, 4 * sector - 2, 4 * sector - 1, 4 * sector].filterMap sum.entry) := by
  have whole : sum.sectorBytes sector =
      ((List.range 4).map (fun i => sum.placeBytes (4 * (sector - 1) + i + 1))).flatten := if_neg (by omega)
  have each : ∀ part ∈ (List.range 4).map (fun i => sum.placeBytes (4 * (sector - 1) + i + 1)), part.length = 128 := by
    intro part mem
    obtain ⟨i, _, rfl⟩ := List.mem_map.mp mem
    exact Summary.placeBytes_length fits _
  have size : (sum.sectorBytes sector).length = 512 := by
    rw [whole, List.length_flatten, sum_lengths each]
    rfl
  have placeAt (i : Nat) (within : i ∈ List.range 4) :
      field (sum.sectorBytes sector) (128 * i) 128 = sum.placeBytes (4 * (sector - 1) + i + 1) := by
    rw [whole]
    exact field_row each (by rw [List.getElem?_map, List.getElem?_range (List.mem_range.mp within)]; rfl)
  have clips : [4 * sector - 3, 4 * sector - 2, 4 * sector - 1, 4 * sector] =
      (List.range 4).map (fun i => 4 * (sector - 1) + i + 1) := by
    rw [show 4 * sector - 3 = 4 * (sector - 1) + 0 + 1 by omega, show 4 * sector - 2 = 4 * (sector - 1) + 1 + 1 by omega,
      show 4 * sector - 1 = 4 * (sector - 1) + 2 + 1 by omega, show 4 * sector = 4 * (sector - 1) + 3 + 1 by omega]
    rfl
  rw [clips, List.filterMap_map]
  unfold parseSector
  rw [if_neg (by rw [size]; decide)]
  refine foldr_places _ fun i within => ?_
  rw [placeAt i within]
  exact Summary.placeBytes_judged fits _

end

/-! # An index block (R136, R197, R198) -/

/-- An entry of an index block stands in 16 bytes, field by field. -/
theorem IndexEntry.bytes_fields {x : IndexEntry} (offset : x.offset < 4294967296) (size : x.size < 4294967296) :
    x.bytes.length = 16 ∧ num x.bytes 0 4 = x.offset ∧ num x.bytes 4 4 = x.serial.toNat ∧ num x.bytes 8 4 = x.size ∧
      num x.bytes 12 1 = packFlags [x.key, x.gap] ∧ num x.bytes 13 3 = 0 := by
  have whole : x.bytes =
      [u32 x.offset, serialBytes x.serial, u32 x.size, u8 (packFlags [x.key, x.gap]), [0, 0, 0]].flatten := by
    simp only [IndexEntry.bytes, List.flatten_cons, List.flatten_nil, List.append_nil, List.append_assoc]
  have flags : packFlags [x.key, x.gap] < 256 ^ 1 := by have := (testBit_packFlags x.key x.gap).2.2; omega
  rw [whole]
  exact ⟨rfl, num_of_field (field_part 0 rfl rfl rfl) offset, num_of_field (field_part 1 rfl rfl rfl) x.serial.isLt,
    num_of_field (field_part 2 rfl rfl rfl) size, num_of_field (field_part 3 rfl rfl rfl) flags,
    num_zeros 13 3 _ (field_part 4 rfl rfl rfl)⟩

theorem num_field_inner (bytes : List Byte) (first inner : Nat) {n count : Nat} (within : inner + count ≤ n) :
    num (field bytes first n) inner count = num bytes (first + inner) count :=
  congrArg ofBytes (field_field bytes first inner within)

/-- Offsets that rise and lie in the essence area pass their check. -/
theorem offsetsRise_of_pairwise : ∀ {offsets : List Nat}, offsets.Pairwise (· < ·) → (∀ x ∈ offsets, x < 3932160) →
    offsetsRise offsets = true
  | [], _, _ => rfl
  | [x], _, within => decide_eq_true (within x (List.mem_singleton_self x))
  | x :: y :: rest, rise, within => by
    obtain ⟨first', later⟩ := List.pairwise_cons.mp rise
    obtain ⟨here, there⟩ := List.forall_mem_cons.mp within
    have inside : x < essenceBytes := here
    rw [offsetsRise, decide_eq_true (first' y (List.mem_cons_self ..)), decide_eq_true inside, offsetsRise_of_pairwise later there]
    rfl

/-- What stands before the CRC of an index block. -/
def IndexBlock.front (b : IndexBlock) : List Byte :=
  [0x49, 0x58] ++ u16 b.entries.length ++ u32 b.formatNumber ++ u16 b.clip ++ u16 b.start ++ u16 (b.extent - b.start)

/-- What stands behind it: the entries, and zero bytes up to the block's end. -/
def IndexBlock.back (b : IndexBlock) : List Byte :=
  (b.entries.map IndexEntry.bytes).flatten ++ List.replicate (4080 - 16 * b.entries.length) 0

/-- Its CRC is that of the block with the CRC's own bytes zero. -/
def IndexBlock.crc (b : IndexBlock) : List Byte := crcBytes (b.front ++ [0, 0] ++ b.back)

theorem IndexBlock.front_length (b : IndexBlock) : b.front.length = 14 := rfl

theorem IndexBlock.head_length (b : IndexBlock) : (b.front ++ b.crc).length = 16 := rfl

section
variable {b : IndexBlock} (fits : ∀ x ∈ b.entries, x.offset < 4294967296 ∧ x.size < 4294967296)
include fits

theorem IndexBlock.entry_sizes : ∀ part ∈ b.entries.map IndexEntry.bytes, part.length = 16 := fun part mem => by
  obtain ⟨x, listed, rfl⟩ := List.mem_map.mp mem
  exact (IndexEntry.bytes_fields (fits x listed).1 (fits x listed).2).1

theorem IndexBlock.listed_length : (b.entries.map IndexEntry.bytes).flatten.length = 16 * b.entries.length := by
  rw [List.length_flatten, sum_lengths (IndexBlock.entry_sizes fits), List.length_map]

theorem IndexBlock.bytes_eq : b.bytes = b.front ++ b.crc ++ b.back := by
  unfold IndexBlock.bytes
  dsimp only
  rw [IndexBlock.listed_length fits]
  rfl

/-- Each listed entry stands in its 16 bytes. -/
theorem IndexBlock.entryAt {i : Nat} {x : IndexEntry} (here : b.entries[i]? = some x) : field b.bytes (16 + 16 * i) 16 = x.bytes := by
  have lt := (List.getElem?_eq_some_iff.mp here).1
  rw [IndexBlock.bytes_eq fits, field_skip b.head_length, IndexBlock.back,
    field_before (by rw [IndexBlock.listed_length fits]; omega)]
  exact field_row (IndexBlock.entry_sizes fits) (by rw [List.getElem?_map, here]; rfl)

theorem IndexBlock.bytes_length (few : b.entries.length ≤ 255) : b.bytes.length = 4096 := by
  rw [IndexBlock.bytes_eq fits, List.length_append, IndexBlock.head_length, IndexBlock.back, List.length_append,
    IndexBlock.listed_length fits, List.length_replicate]
  omega

/-- The fields of a listed entry. -/
theorem IndexBlock.entry_fields {i : Nat} {x : IndexEntry} (here : b.entries[i]? = some x) :
    let at' := 16 + 16 * i
    num b.bytes at' 4 = x.offset ∧ num b.bytes (at' + 4) 4 = x.serial.toNat ∧ num b.bytes (at' + 8) 4 = x.size ∧
      num b.bytes (at' + 12) 1 = packFlags [x.key, x.gap] ∧ num b.bytes (at' + 13) 3 = 0 := by
  obtain ⟨offset, size⟩ := fits x (List.mem_of_getElem? here)
  obtain ⟨-, fields⟩ := IndexEntry.bytes_fields offset size
  rw [← IndexBlock.entryAt fits here, num_field_inner _ _ 0 (by decide), num_field_inner _ _ 4 (by decide),
    num_field_inner _ _ 8 (by decide), num_field_inner _ _ 12 (by decide), num_field_inner _ _ 13 (by decide)] at fields
  exact fields

/-- The fields before the CRC, the CRC, and the zero bytes behind the entries. -/
theorem IndexBlock.head_fields (few : b.entries.length ≤ 255) (format : b.formatNumber < 4294967296) (clip : b.clip < 65536)
    (start : b.start < 65536) (extent : b.extent < 65536) :
    field b.bytes 0 2 = [0x49, 0x58] ∧ num b.bytes 2 2 = b.entries.length ∧ num b.bytes 4 4 = b.formatNumber ∧
      num b.bytes 8 2 = b.clip ∧ num b.bytes 10 2 = b.start ∧ num b.bytes 12 2 = b.extent - b.start ∧
      field b.bytes 14 2 = crcBytes (b.bytes.take 14 ++ [0, 0] ++ b.bytes.drop 16) ∧
      allZero (b.bytes.drop (16 + 16 * b.entries.length)) = true := by
  have whole : b.bytes = [[0x49, 0x58], u16 b.entries.length, u32 b.formatNumber, u16 b.clip, u16 b.start,
      u16 (b.extent - b.start), b.crc, b.back].flatten := by
    rw [IndexBlock.bytes_eq fits, IndexBlock.front]
    simp only [List.flatten_cons, List.flatten_nil, List.append_nil, List.append_assoc]
  have crcAt : field b.bytes 14 2 = b.crc := by
    rw [whole]
    exact field_part 6 rfl rfl rfl
  have zeros : b.bytes.drop (16 + 16 * b.entries.length) = List.replicate (4080 - 16 * b.entries.length) 0 := by
    rw [IndexBlock.bytes_eq fits, ← List.drop_drop, List.drop_left' b.head_length, IndexBlock.back,
      List.drop_left' (IndexBlock.listed_length fits)]
  refine ⟨?_, ?_, ?_, ?_, ?_, ?_, ?_, by rw [zeros, allZero_replicate]⟩
  · rw [whole]
    exact field_part 0 rfl rfl rfl
  · rw [whole]
    exact num_of_field (field_part 1 rfl rfl rfl) (by omega)
  · rw [whole]
    exact num_of_field (field_part 2 rfl rfl rfl) format
  · rw [whole]
    exact num_of_field (field_part 3 rfl rfl rfl) clip
  · rw [whole]
    exact num_of_field (field_part 4 rfl rfl rfl) start
  · rw [whole]
    exact num_of_field (field_part 5 rfl rfl rfl) (by omega)
  · rw [crcAt, IndexBlock.bytes_eq fits, List.drop_left' b.head_length, List.append_assoc b.front, List.take_left' b.front_length]
    rfl

/-- An index block whose offsets rise within the essence area passes its checks. -/
theorem parseIndex_bytes {front : List IndexEntry} {tail : IndexEntry} (entries : b.entries = front ++ [tail])
    (few : front.length < 255) (format : b.formatNumber < 4294967296) (clip : b.clip < 65536) (start : b.start < 65536)
    (extent : b.extent < 65536) (rise : b.entries.Pairwise (fun x y => x.offset < y.offset))
    (within : ∀ x ∈ b.entries, x.offset < 3932160) :
    parseIndex b.bytes = some
      { count := front.length + 1, formatNumber := b.formatNumber, clip := b.clip, start := b.start,
        ordinal := b.extent - b.start, tailEnd := tail.offset + tail.size } := by
  have count : b.entries.length = front.length + 1 := by rw [entries, List.length_append, List.length_singleton]
  obtain ⟨magicAt, countAt, formatAt, clipAt, startAt, ordinalAt, crcAt, zeros⟩ :=
    IndexBlock.head_fields fits (by omega) format clip start extent
  have offsets : (List.range b.entries.length).map (fun i => num b.bytes (16 + 16 * i) 4) = b.entries.map IndexEntry.offset := by
    refine List.ext_getElem (by simp) fun i _ h => ?_
    rw [List.getElem_map, List.getElem_range, List.getElem_map]
    exact (IndexBlock.entry_fields fits (List.getElem?_eq_getElem (by simpa using h))).1
  have rises : offsetsRise (b.entries.map IndexEntry.offset) = true := by
    refine offsetsRise_of_pairwise (List.pairwise_map.mpr rise) fun n mem => ?_
    obtain ⟨x, listed, rfl⟩ := List.mem_map.mp mem
    exact within x listed
  obtain ⟨tailOffset, -, tailSize, -⟩ :=
    IndexBlock.entry_fields fits (i := front.length) (x := tail) (by rw [entries, List.getElem?_concat_length])
  have tailAt : 16 * b.entries.length = 16 + 16 * front.length := by omega
  unfold parseIndex
  dsimp only
  rw [countAt, offsets, rises, zeros, magicAt, ← crcAt, formatAt, clipAt, startAt, ordinalAt, tailAt, tailOffset, tailSize,
    IndexBlock.bytes_length fits (by omega), if_pos]
  · rw [count]
  · simp only [count, beq_self_eq_true, Bool.and_true, Bool.true_and, Bool.and_eq_true, decide_eq_true_eq]
    omega

end

/-- Settles O41: a header, a catalogue sector and an index block, each read field by field where it was written. -/
theorem cardRoundTrip : Obligations.CardRoundTrip := by
  unfold Obligations.CardRoundTrip
  refine ⟨fun h label chars two extents format => parseHeader_bytes label chars two extents format,
    fun sum sector first' last extents entries => parseSector_bytes (fun e used => ?_) first',
    fun b front tail listed few format clip start order extent rise within => ?_⟩
  · obtain ⟨clipLeast, clipMost, startLeast, startMost, count, frames, hours, minutes, seconds, timeFrames, rateCode, continues⟩ :=
      entries e used
    exact ⟨⟨clipLeast, clipMost⟩, ⟨startLeast, startMost, by omega⟩, count, frames, hours, minutes, seconds, timeFrames, rateCode,
      continues⟩
  · have fits (x : IndexEntry) (mem : x ∈ b.entries) : x.offset < 4294967296 ∧ x.size < 4294967296 :=
      (within x mem).imp_left fun offset => by omega
    have count : b.entries.length = front.length + 1 := by rw [listed, List.length_append, List.length_singleton]
    refine ⟨parseIndex_bytes fits listed few format clip start extent rise fun x mem => (within x mem).1,
      IndexBlock.bytes_length fits (by omega), fun i x here => ?_⟩
    obtain ⟨offset, serial, size, flags, rest⟩ := IndexBlock.entry_fields fits here
    dsimp only
    rw [flags]
    exact ⟨offset, serial, size, (testBit_packFlags _ _).1, (testBit_packFlags _ _).2.1, (testBit_packFlags _ _).2.2, rest⟩

end Sys2Proof.Machine

namespace Sys2Proof.Machine

/-! # The viewfinder's requests (R159 to R162, R170) -/

/-! ## Their fields -/

/-- What three one-byte fields at the head of a payload are read as. -/
theorem num_threeFields {a b c : Nat} (fitsA : a ≤ 255) (fitsB : b ≤ 255) (fitsC : c ≤ 255) (back : List Byte) :
    let p := u8 a ++ u8 b ++ u8 c ++ back
    num p 0 1 = a ∧ num p 1 1 = b ∧ num p 2 1 = c :=
  ⟨num_u8 fitsA [] (u8 b ++ (u8 c ++ back)), num_u8 fitsB (u8 a) (u8 c ++ back), num_u8 fitsC (u8 a ++ u8 b) back⟩

/-- A number that is a flag is written as the flag (R194). -/
theorem flagByte_beq_one {x : Nat} (flag : x ≤ 1) : flagByte (x == 1) = u8 x := by
  obtain rfl | rfl : x = 0 ∨ x = 1 := by omega
  · rfl
  · rfl

theorem all_isCardChar_iff (text : List Byte) :
    text.all isCardChar = true ↔ ∀ b ∈ text, 0x20 ≤ b.toNat ∧ b.toNat ≤ 0x7E := by
  simp [isCardChar]

/-! ## Item slots -/

theorem State.item_of_getElem? {s : State} {i : Nat} {slot : ItemSlot} (h : s.vog.slots[i]? = some slot) : s.item i = slot := by
  rw [State.item, h]
  rfl

/-- Slots that return to their reset values one after the other change the slots alone. -/
theorem State.resetItems_eq (which : List Nat) (s : State) :
    s.resetItems which =
      { s with vog := { s.vog with slots := which.foldl (fun slots i => slots.set i (.afterReset i)) s.vog.slots } } := by
  induction which generalizing s with
  | nil => rfl
  | cons i which ih => exact ih (s.setItem i (.afterReset i))

/-- Setting every place behind `front` in turn leaves `front` and the new elements. -/
theorem foldl_set_range' {α : Type} (f : Nat → α) (front : List α) : ∀ old : List α,
    (List.range' front.length old.length).foldl (fun l i => l.set i (f i)) (front ++ old) =
      front ++ (List.range' front.length old.length).map f
  | [] => rfl
  | x :: old => by
    have rest := foldl_set_range' f (front ++ [f front.length]) old
    simpa [List.range'_succ] using rest

theorem foldl_set_hostSlots {α : Type} (f : Nat → α) {slots : List α} (length : slots.length = 32) :
    (List.range' 16 16).foldl (fun l i => l.set i (f i)) slots = slots.take 16 ++ (List.range' 16 16).map f := by
  have cut := foldl_set_range' f (slots.take 16) (slots.drop 16)
  simpa [length] using cut

/-! ## VF_ITEM_SET (R160) -/

theorem reqVfItemSet_eq {i on p : Nat} (known : i ≤ 31) (flag : on ≤ 1) (level : p ≤ 7) (s : State) :
    reqVfItemSet (u8 i ++ u8 on ++ u8 p) s =
      if s.pwc.inRun = false then refuse s .badState
      else answerOk (s.setItem i { s.item i with enabled := on == 1, priority := p }) (u8 on ++ u8 p) := by
  obtain ⟨slotRead, onRead, levelRead⟩ := num_threeFields (a := i) (b := on) (c := p) (by omega) (by omega) (by omega) []
  rw [List.append_nil] at slotRead onRead levelRead
  rw [reqVfItemSet, rangeAt_of_num slotRead (Nat.zero_le i) known, flagAt_small onRead flag,
    rangeAt_of_num levelRead (Nat.zero_le p) level]
  dsimp only
  rw [flagByte_beq_one flag]
  cases s.pwc.inRun <;> rfl

theorem reqVfItemSet_bad {i on p : Nat} (fitsI : i ≤ 255) (fitsOn : on ≤ 255) (fitsP : p ≤ 255)
    (bad : 31 < i ∨ 1 < on ∨ 7 < p) (s : State) : reqVfItemSet (u8 i ++ u8 on ++ u8 p) s = refuse s .badValue := by
  obtain ⟨slotRead, onRead, levelRead⟩ := num_threeFields fitsI fitsOn fitsP []
  rw [List.append_nil] at slotRead onRead levelRead
  unfold reqVfItemSet
  split
  · next known flag level =>
    have := rangeAt_within slotRead known
    have := flagAt_within onRead flag
    have := rangeAt_within levelRead level
    omega
  · rfl

/-! ## VF_ITEM_CLEAR (R161) -/

theorem reqVfItemClear_eq {i : Nat} (fits : i ≤ 255) (s : State) :
    let which := if i = 255 then List.range' 16 16 else [i]
    reqVfItemClear (u8 i) s =
      if 31 < i ∧ i ≠ 255 then refuse s .badValue
      else if s.pwc.inRun = false then refuse s .badState
      else answerOk { s with vog := { s.vog with
          slots := which.foldl (fun slots i => slots.set i (.afterReset i)) s.vog.slots } } (u8 which.length) := by
  have read : num (u8 i) 0 1 = i := num_u8 fits [] []
  unfold reqVfItemClear
  simp only [read, State.resetItems_eq, show (List.range 16).map (· + 16) = List.range' 16 16 from rfl, Bool.and_eq_true,
    decide_eq_true_eq, bne_iff_ne, Bool.not_eq_true']

/-! ## VF_TEXT (R159) -/

/-- The ranges of R159. -/
abbrev goodText (i row column : Nat) (text : List Byte) : Prop :=
  16 ≤ i ∧ i ≤ 31 ∧ row ≤ 15 ∧ column ≤ 47 ∧ text.length ≤ 24 ∧ column + text.length ≤ 48 ∧
    ∀ b ∈ text, 0x20 ≤ b.toNat ∧ b.toNat ≤ 0x7E

section
variable {i row column : Nat} {text : List Byte}

theorem reqVfText_good (good : goodText i row column text) (s : State) :
    reqVfText (u8 i ++ u8 row ++ u8 column ++ text) s =
      if s.pwc.inRun = false then refuse s .badState
      else answerOk (s.setItem i { s.item i with row := row, column := column, text := text })
        (u8 i ++ u8 row ++ u8 column ++ u8 text.length ++ flagByte (s.item i).enabled ++ u8 (s.item i).priority) := by
  obtain ⟨slotLeast, slotMost, rowMost, columnMost, short, fits, chars⟩ := good
  obtain ⟨slotRead, rowRead, columnRead⟩ := num_threeFields (a := i) (b := row) (c := column) (by omega) (by omega) (by omega) text
  unfold reqVfText
  rw [rangeAt_of_num slotRead slotLeast slotMost, rangeAt_of_num rowRead (Nat.zero_le row) rowMost,
    rangeAt_of_num columnRead (Nat.zero_le column) columnMost]
  have written : (u8 i ++ u8 row ++ u8 column ++ text).drop 3 = text := rfl
  have taken : ¬ (!text.all isCardChar || decide (24 < text.length) || decide (48 < column + text.length)) = true := by
    simp only [(all_isCardChar_iff text).mpr chars, Bool.not_true, Bool.false_or, Bool.or_eq_true, decide_eq_true_eq]
    omega
  simp only [written, if_neg taken]
  cases s.pwc.inRun <;> rfl

theorem reqVfText_bad (fitsI : i ≤ 255) (fitsRow : row ≤ 255) (fitsColumn : column ≤ 255) (bad : ¬ goodText i row column text)
    (s : State) : reqVfText (u8 i ++ u8 row ++ u8 column ++ text) s = refuse s .badValue := by
  obtain ⟨slotRead, rowRead, columnRead⟩ := num_threeFields fitsI fitsRow fitsColumn text
  unfold reqVfText
  dsimp only
  split
  · next x y z slotKnown rowKnown columnKnown =>
    obtain ⟨slotLeast, slotMost⟩ := rangeAt_within slotRead slotKnown
    obtain ⟨-, rowMost⟩ := rangeAt_within rowRead rowKnown
    obtain ⟨-, columnMost⟩ := rangeAt_within columnRead columnKnown
    have columnIs : z = column := by
      rw [rangeAt_of_num columnRead (Nat.zero_le column) columnMost] at columnKnown
      exact (Option.some.inj columnKnown).symm
    refine if_pos ?_
    by_contra taken
    have written : (u8 i ++ u8 row ++ u8 column ++ text).drop 3 = text := rfl
    rw [written, columnIs] at taken
    simp only [Bool.or_eq_true, Bool.not_eq_true', decide_eq_true_eq, not_or, Bool.not_eq_false] at taken
    obtain ⟨⟨chars, short⟩, fits⟩ := taken
    exact bad ⟨slotLeast, slotMost, rowMost, columnMost, by omega, by omega, (all_isCardChar_iff text).mp chars⟩
  · rfl

end

/-! ## VF_CONFIG (R162) -/

theorem zebraOk_iff (z : Nat) : zebraOk z = true ↔ z = 0 ∨ (50 ≤ z ∧ z ≤ 109) := by simp [zebraOk]

theorem reqVfConfig_good {zebra peaking marker : Nat} (level : zebra = 0 ∨ (50 ≤ zebra ∧ zebra ≤ 109)) (most : peaking ≤ 7)
    (flag : marker ≤ 1) (s : State) :
    reqVfConfig (u8 zebra ++ u8 peaking ++ u8 marker) s =
      if s.pwc.inRun = false then refuse s .badState
      else answerOk { s with vog := { s.vog with zebra := zebra, peaking := peaking, marker := marker == 1 } }
        (u8 zebra ++ u8 peaking ++ u8 marker) := by
  obtain ⟨zebraRead, peakingRead, markerRead⟩ :=
    num_threeFields (a := zebra) (b := peaking) (c := marker) (by omega) (by omega) (by omega) []
  rw [List.append_nil] at zebraRead peakingRead markerRead
  unfold reqVfConfig
  rw [rangeAt_of_num peakingRead (Nat.zero_le peaking) most, flagAt_small markerRead flag]
  dsimp only
  rw [zebraRead, (zebraOk_iff zebra).mpr level, flagByte_beq_one flag]
  cases s.pwc.inRun <;> rfl

theorem reqVfConfig_bad {zebra peaking marker : Nat} (fitsZebra : zebra ≤ 255) (fitsPeaking : peaking ≤ 255)
    (fitsMarker : marker ≤ 255) (bad : ¬ ((zebra = 0 ∨ (50 ≤ zebra ∧ zebra ≤ 109)) ∧ peaking ≤ 7 ∧ marker ≤ 1)) (s : State) :
    reqVfConfig (u8 zebra ++ u8 peaking ++ u8 marker) s = refuse s .badValue := by
  obtain ⟨zebraRead, peakingRead, markerRead⟩ := num_threeFields fitsZebra fitsPeaking fitsMarker []
  rw [List.append_nil] at zebraRead peakingRead markerRead
  unfold reqVfConfig
  dsimp only
  split
  · next peakingKnown markerKnown =>
    rw [zebraRead]
    refine if_pos ?_
    by_contra taken
    rw [Bool.not_eq_true', Bool.not_eq_false, zebraOk_iff] at taken
    exact bad ⟨taken, (rangeAt_within peakingRead peakingKnown).2, flagAt_within markerRead markerKnown⟩
  · rfl

/-! ## The four requests -/

/-- Settles O50: each request's fields are read as they were written, values are judged before the run state, and a taken
request sets what it names. -/
theorem viewfinderRequests : Obligations.ViewfinderRequests := by
  unfold Obligations.ViewfinderRequests
  refine ⟨fun tag s ready on => ?_, fun tag s ready on => ?_⟩
  · intro put fresh
    have enabled : offUnless s.pwc.enables.vog = none := offUnless_on on
    refine ⟨fun i on p fitsI fitsOn fitsP => ⟨fun known flag level run slot here => ?_, fun bad => ?_, fun known run => ?_,
      fun above other => ?_⟩, fun run length => ?_⟩
    · refine answers_ok ready rfl ⟨le_rfl, le_rfl⟩ enabled ((reqVfItemSet_eq known flag level s).trans ?_) rfl
      rw [if_neg (by simp [run]), State.item_of_getElem? here]
      rfl
    · exact answers_refused ready rfl ⟨le_rfl, le_rfl⟩ enabled (reqVfItemSet_bad fitsI fitsOn fitsP bad s)
    · refine answers_ok ready rfl ⟨le_rfl, le_rfl⟩ enabled ((reqVfItemClear_eq fitsI s).trans ?_) rfl
      rw [if_neg (by omega), if_neg (by simp [run]), if_neg (by omega), List.length_singleton, show u8 1 = [1] by decide]
      rfl
    · exact answers_refused ready rfl ⟨le_rfl, le_rfl⟩ enabled ((reqVfItemClear_eq fitsI s).trans (if_pos ⟨above, other⟩))
    · refine answers_ok ready rfl ⟨le_rfl, le_rfl⟩ enabled ((reqVfItemClear_eq (i := 255) le_rfl s).trans ?_) rfl
      rw [if_neg (by simp), if_neg (by simp [run]), if_pos rfl, foldl_set_hostSlots _ length]
      rfl
  · intro put standby
    have enabled : offUnless s.pwc.enables.vog = none := offUnless_on on
    refine ⟨fun i row column text fitsI fitsRow fitsColumn short => ?_, fun zebra peaking marker fitsZebra fitsPeaking fitsMarker => ?_,
      fun stands => ?_, fun stands i on p known flag level => ⟨?_, ?_⟩⟩
    · intro c good
      have size : 3 ≤ (u8 i ++ u8 row ++ u8 column ++ text).length ∧ (u8 i ++ u8 row ++ u8 column ++ text).length ≤ 1024 := by
        simp only [List.length_append, u8_length]
        omega
      refine ⟨fun taken run slot here => ?_, fun taken stands => ?_, fun bad => ?_⟩
      · refine answers_ok ready rfl size enabled ((reqVfText_good taken s).trans ?_) rfl
        rw [if_neg (by simp [run]), State.item_of_getElem? here]
        rfl
      · exact answers_refused ready rfl size enabled ((reqVfText_good taken s).trans (if_pos stands))
      · exact answers_refused ready rfl size enabled (reqVfText_bad fitsI fitsRow fitsColumn bad s)
    · intro c good
      refine ⟨fun ⟨level, most, flag⟩ run => ?_, fun ⟨level, most, flag⟩ stands => ?_, fun bad => ?_⟩
      · exact answers_ok ready rfl ⟨le_rfl, le_rfl⟩ enabled
          ((reqVfConfig_good level most flag s).trans (if_neg (by simp [run]))) rfl
      · exact answers_refused ready rfl ⟨le_rfl, le_rfl⟩ enabled ((reqVfConfig_good level most flag s).trans (if_pos stands))
      · exact answers_refused ready rfl ⟨le_rfl, le_rfl⟩ enabled (reqVfConfig_bad fitsZebra fitsPeaking fitsMarker bad s)
    · refine answers_refused ready rfl ⟨le_rfl, le_rfl⟩ enabled ((reqVfItemClear_eq (i := 255) le_rfl s).trans ?_)
      rw [if_neg (by simp), if_pos stands]
    · exact answers_refused ready rfl ⟨le_rfl, le_rfl⟩ enabled ((reqVfItemSet_eq known flag level s).trans (if_pos stands))
    · refine answers_refused ready rfl ⟨le_rfl, le_rfl⟩ enabled ((reqVfItemClear_eq (by omega) s).trans ?_)
      rw [if_neg (by omega), if_pos stands]

end Sys2Proof.Machine

namespace Sys2Proof.Machine

/-! # What the blocks tell LNK (R178)

A block reaches LNK by occurrences alone: the message queues and the sent flags are LNK's. `State.Told r s` says that of a
state `s` that operations have made of `r`: LNK's record is `r`'s after some occurrences. One lemma per operation carries it
on, in the order of the model's definitions; what an operation changes besides is no part of the relation, so `h` itself
serves for the state before and after such a change. -/

/-- An occurrence makes `k` of `l` (R178). -/
def Lnk.Hears (l k : Lnk) : Prop := ∃ n src detail, k = l.occur n src detail

/-- LNK's record in `s` is that in `r` after some occurrences. -/
def State.Told (r s : State) : Prop := Relation.ReflTransGen Lnk.Hears r.lnk s.lnk

namespace State.Told

variable {r s t : State}

theorem refl (s : State) : Told s s := Relation.ReflTransGen.refl

/-- An operation that leaves LNK alone. -/
theorem of_lnk (h : Told r s) (same : t.lnk = s.lnk) : Told r t := by
  rw [Told, same]
  exact h

theorem setFtb {ftb : Ftb} (h : Told r s) : Told r { s with ftb := ftb } := h

theorem ite {c : Prop} [Decidable c] (h : Told r s) (k : Told r t) : Told r (if c then s else t) := by
  split
  · exact h
  · exact k

theorem iteFst {c : Prop} [Decidable c] {x y : State × Answer} (h : Told r x.1) (k : Told r y.1) :
    Told r (if c then x else y).1 := by
  split
  · exact h
  · exact k

theorem foldl {α : Type} {f : State → α → State} {xs : List α} (step : ∀ {s : State} {x : α}, Told r s → Told r (f s x))
    (h : Told r s) : Told r (xs.foldl f s) := by
  induction xs generalizing s with
  | nil => exact h
  | cons x xs ih => exact ih (step h)

theorem notify {src : Source} {detail : List (Option Byte)} (h : Told r s) : Told r (s.notify src detail) :=
  h.tail ⟨s.ftb.serial, src, detail, rfl⟩

theorem report {src : Source} {detail : List Byte} (h : Told r s) : Told r (s.report src detail) := .notify h

/-! ### The Buffer Manager -/

theorem abandon {e : Entry} {reason : AbandonReason} (h : Told r s) : Told r (s.abandon e reason) := by
  unfold State.abandon
  exact .ite (.report h) h

theorem placeUnit {u : RecUnit} (h : Told r s) : Told r (s.placeUnit u) := by
  unfold State.placeUnit
  split <;> exact h

theorem join {e : Entry} {picture : PictureData} (h : Told r s) : Told r (s.join e picture) := by
  unfold State.join
  split
  · exact .placeUnit h
  · split
    · exact .placeUnit h
    · exact .abandon h

theorem checkComplete {serial : Serial} (h : Told r s) : Told r (s.checkComplete serial) := by
  unfold State.checkComplete
  split
  · exact h
  · split
    · exact .ite (.join h) h
    · exact h
    · exact h

/-! ### The card writers -/

theorem reportFull {side : Side} (h : Told r s) : Told r (s.reportFull side) := by
  unfold State.reportFull
  split
  · exact h
  · exact .report h

theorem judgeFull {side : Side} (h : Told r s) : Told r (s.judgeFull side) := by
  unfold State.judgeFull
  split
  · exact h
  · exact .ite (.reportFull h) h

theorem judgeNearFull {side : Side} (h : Told r s) : Told r (s.judgeNearFull side) := by
  unfold State.judgeNearFull
  dsimp only
  split
  · exact h
  · exact .ite h (.ite h (.report h))

theorem openExtent {side : Side} (h : Told r s) : Told r (s.openExtent side) := by
  unfold State.openExtent
  dsimp only
  split
  · exact .judgeNearFull (.judgeFull h)
  · exact h

theorem runWriter {side : Side} (h : Told r s) : Told r (s.runWriter side) :=
  State.runWriter_keeps (P := fun u => Told r u) (fun _ _ told _ => told) (fun _ told => .openExtent told) h

theorem nameLast {side : Side} {last : LastUnit} (h : Told r s) : Told r (s.nameLast side last) := by
  unfold State.nameLast
  exact .runWriter h

theorem takeUnit {side : Side} {u : RecUnit} (h : Told r s) : Told r (s.takeUnit side u) := by
  have ready : Told r (s.readyExtent side) := by
    unfold State.readyExtent
    split
    · exact .openExtent h
    · exact .ite (.openExtent h) h
  unfold State.takeUnit
  exact .runWriter ready

theorem mountEnds {side : Side} {state : SlotState} {recovered : Nat} (h : Told r s) :
    Told r (s.mountEnds side state recovered) := by
  unfold State.mountEnds
  exact .judgeNearFull (.ite (.reportFull (.report h)) (.report h))

theorem recoverNext {side : Side} (h : Told r s) : Told r (s.recoverNext side) := by
  unfold State.recoverNext
  dsimp only
  split
  · exact h
  · split
    · exact h
    · exact .mountEnds h

theorem mountRead {side : Side} {header : CardHeader} {entries : List CatEntry} (h : Told r s) :
    Told r (s.mountRead side header entries) := by
  unfold State.mountRead
  exact .ite (.recoverNext h) (.mountEnds h)

theorem rebuild {side : Side} {x : Recovery} (h : Told r s) : Told r (s.rebuild side x) := by
  unfold State.rebuild
  exact .runWriter h

theorem indexRead {side : Side} {extent : Nat} {bytes : List Byte} (h : Told r s) :
    Told r (s.indexRead side extent bytes) := by
  unfold State.indexRead
  dsimp only
  split
  · split
    · exact .ite (.ite h (.rebuild h)) (.rebuild h)
    · exact .rebuild h
  · exact h

theorem mountUnformatted {side : Side} (h : Told r s) : Told r (s.mountUnformatted side) := by
  unfold State.mountUnformatted
  exact .mountEnds h

theorem cardRead {side : Side} {read : CardRead} {size : Nat} {bytes : List Byte} (h : Told r s) :
    Told r (s.cardRead side read size bytes) := by
  unfold State.cardRead
  split
  · exact h
  · split
    · exact .mountUnformatted h
    · exact .ite (.mountUnformatted h) h
  · split
    · exact .mountUnformatted h
    · split
      · exact .mountUnformatted h
      · exact .ite (.mountUnformatted h) (.ite h (.mountRead h))
  · exact .indexRead h

/-! ### The Recorder -/

theorem reportRec {reason : RecReason} {status slot : Nat} (h : Told r s) : Told r (s.reportRec reason status slot) :=
  .notify h

theorem openFor {side : Side} {flags : CopyFlags} {continues : Option CopyRef} (h : Told r s) :
    Told r (s.openFor side flags continues) := by
  have opened : Told r (s.openCopy side flags continues).1 := by
    unfold State.openCopy
    dsimp only
    split
    · exact h
    · exact .runWriter (.judgeFull h)
  exact opened

theorem openCopies (h : Told r s) : Told r s.openCopies := by
  unfold State.openCopies
  dsimp only
  split
  · exact .openFor h
  · exact .openFor h
  · exact .openFor (.openFor h)

theorem chooseHead {floor : Serial} (h : Told r s) : Told r (s.chooseHead floor) := by
  unfold State.chooseHead
  split
  · exact h
  · split <;> exact h

theorem takeStart {serial : Serial} (h : Told r s) : Told r (s.takeStart serial) := by
  have opened : Told r (s.beginClip .normal .recording (some serial)).openCopies := .openCopies h
  unfold State.takeStart
  exact .reportRec (.setFtb (.ite (.chooseHead opened) opened))

theorem start {source : StartSource} {serial : Serial} (h : Told r s) : Told r (s.start source serial).1 := by
  unfold State.start
  dsimp only
  split
  · exact h
  · split
    · exact h
    · exact h
    · exact h
    · split
      · exact h
      · exact (takeStart h :)

theorem startReported {source : StartSource} {serial : Serial} (h : Told r s) : Told r (s.startReported source serial) := by
  rw [State.startReported_eq]
  exact .ite (.start h) (.reportRec (.start h))

theorem endClip {reason : EndReason} (h : Told r s) : Told r (s.endClip reason) := by
  unfold State.endClip
  extract_lets count _ _ standing told
  have reported : Told r told := reportRec (s := standing) h
  exact .ite (.startReported reported) reported

theorem closeCopy {side : Side} {last : LastUnit} (h : Told r s) : Told r (s.closeCopy side last) := by
  unfold State.closeCopy
  exact .nameLast h

theorem tellLast {side : Side} (h : Told r s) : Told r (s.tellLast side) := by
  unfold State.tellLast
  split
  · exact h
  · exact .ite (.closeCopy h) h

theorem watchClip (h : Told r s) : Told r s.watchClip := by
  have told : Told r ((s.tellLast .a).tellLast .b) := .tellLast (.tellLast h)
  unfold State.watchClip
  split
  · split
    · exact h
    · dsimp only
      split
      · exact .ite (.endClip told) told
      · exact told
  · exact .ite (.endClip h) h
  · exact h

theorem review (h : Told r s) : Told r s.review := by
  unfold State.review
  exact .watchClip h

theorem stop {serial : Serial} (h : Told r s) : Told r (s.stop serial) := by
  unfold State.stop
  split
  · exact .watchClip (.reportRec h)
  · exact h
  · exact h
  · exact h

theorem relaySwitch {side : Side} {u : Serial} (h : Told r s) : Told r (s.relaySwitch side u) := by
  unfold State.relaySwitch
  split
  · exact h
  · extract_lets left closed opened moved counted
    have kept : Told r opened := openFor (closeCopy h : Told r closed)
    exact report (s := counted) kept

theorem renameLast {side : Side} {u : Serial} (h : Told r s) : Told r (s.renameLast side u) := by
  unfold State.renameLast
  split
  · exact .ite (.nameLast h) h
  · exact h

theorem cardFullEnd {side : Side} {u : Serial} (h : Told r s) : Told r (s.cardFullEnd side u) := by
  unfold State.cardFullEnd
  split
  · exact h
  · extract_lets before closed fixed renamed _ closing
    have fixed : Told r fixed := (closeCopy h : Told r closed)
    have renamed : Told r renamed := .renameLast fixed
    exact reportRec (s := closing) (.ite renamed renamed)

theorem dropMirror {side : Side} {u : Serial} (h : Told r s) : Told r (s.dropMirror side u) := by
  have closed : Told r (s.closeCopy side (s.slot side).lastBefore) := .closeCopy h
  unfold State.dropMirror
  exact .reportRec closed

theorem endOfCard {side : Side} {u : Serial} (h : Told r s) : Told r (s.endOfCard side u) := by
  unfold State.endOfCard
  split
  · exact h
  · refine .review (.ite (.cardFullEnd h) ?_)
    split
    · exact .cardFullEnd h
    · exact .ite (.relaySwitch h) (.cardFullEnd h)
    · exact .ite (.dropMirror h) (.cardFullEnd h)

theorem slotLost {side : Side} (h : Told r s) : Told r (s.slotLost side) := by
  unfold State.slotLost
  split
  · exact h
  · split
    · exact h
    · extract_lets lost loose
      have loosed : Told r loose := h
      split
      · exact .review (.reportRec loosed)
      · exact .review (.reportRec (.ite loosed loosed))
      · exact .endClip loosed

/-! ### Audio -/

theorem takeHandOver {n : Serial} {side : Side} {x : HandOver} (h : Told r s) : Told r (s.takeHandOver n side x) := by
  unfold State.takeHandOver
  split
  · exact h
  · split
    · exact h
    · split
      · exact .checkComplete h
      · dsimp only
        split
        · exact .checkComplete h
        · exact .abandon h

theorem reportSlip {n : Serial} {side : Side} {x : HandOver} (h : Told r s) : Told r (s.reportSlip n side x) := by
  unfold State.reportSlip
  split
  · exact h
  · exact .ite (.report h) h

theorem pairFrame {n : Serial} {side : Side} (h : Told r s) : Told r (s.pairFrame n side) := by
  unfold State.pairFrame
  exact .takeHandOver (.reportSlip h)

theorem audFrame {f : FrameStart} (h : Told r s) : Told r (s.audFrame f) := by
  unfold State.audFrame
  exact .ite (.review (.pairFrame (.pairFrame h))) h

theorem audStep (h : Told r s) : Told r s.audStep := by
  unfold State.audStep
  split
  · exact h
  · exact .audFrame h

theorem handOverOff (h : Told r s) : Told r s.handOverOff := by
  unfold State.handOverOff
  exact .review (.takeHandOver (.takeHandOver h))

theorem reportOver {pair : Side} {w : Which} {first : Bool} (h : Told r s) : Told r (s.reportOver pair w first) := by
  unfold State.reportOver
  exact .ite (.report h) h

theorem sampleFrame {pair : Side} {x y : Int} (h : Told r s) : Told r (s.sampleFrame pair x y) := by
  unfold State.sampleFrame
  exact .ite h (.reportOver (.reportOver h))

/-! ### Frame timing -/

theorem deliver {action : TriggerAction} {serial : Serial} (h : Told r s) : Told r (s.deliver action serial).1 := by
  unfold State.deliver
  split
  · exact .start h
  · exact .stop h
  · exact h

theorem tryTrigger {e : HistoryEntry} (h : Told r s) : Told r (s.tryTrigger e) := by
  unfold State.tryTrigger
  split
  · exact h
  · exact .ite (.report (.deliver (.setFtb h))) h

theorem frameStart {substituted : Bool} (h : Told r s) : Told r (s.frameStart substituted) := by
  unfold State.frameStart
  extract_lets begun start tried
  have fired : Told r tried := .tryTrigger (.of_lnk h rfl)
  exact .ite fired fired

theorem edge (h : Told r s) : Told r s.edge := by
  unfold State.edge
  split
  · exact (frameStart h :)
  · exact .ite h (.frameStart h)
  · exact .ite h (frameStart h :)
  · exact h

theorem timerFires (h : Told r s) : Told r s.timerFires := by
  have started : Told r (s.frameStart true) := .frameStart h
  have lost : Told r s.frameLoss := by
    unfold State.frameLoss
    exact .report started
  unfold State.timerFires
  split
  · exact lost
  · exact lost
  · exact started
  · exact started

theorem fireIfDue (h : Told r s) : Told r s.fireIfDue := by
  unfold State.fireIfDue
  exact .ite (.timerFires h) h

/-! ### Lens control -/

theorem endMove {axis : Axis} {status : MoveStatus} (h : Told r s) : Told r (s.endMove axis status) := by
  unfold State.endMove
  split
  · exact h
  · exact .notify h

theorem endMoves {status : MoveStatus} (h : Told r s) : Told r (s.endMoves status) := by
  unfold State.endMoves
  exact .endMove (.endMove (.endMove h))

theorem lensLost (h : Told r s) : Told r s.lensLost := by
  unfold State.lensLost
  exact endMoves (.report h)

theorem missReport (h : Told r s) : Told r s.missReport := by
  unfold State.missReport
  exact .ite (.lensLost h) h

theorem windowExpires (h : Told r s) : Told r s.windowExpires := by
  unfold State.windowExpires
  exact .ite (.missReport h) h

theorem judgeOverride {replaced : LensReport} {axis : Axis} (h : Told r s) : Told r (s.judgeOverride replaced axis) := by
  unfold State.judgeOverride
  split
  · exact report (endMove h :)
  · exact h
  · exact h
  · exact h

theorem judgeArrival {axis : Axis} (h : Told r s) : Told r (s.judgeArrival axis) := by
  unfold State.judgeArrival
  split
  · exact h
  · exact .ite (endMove h :) h

theorem goodReport {w : ReportWindow} {x : LensReport} (h : Told r s) : Told r (s.goodReport w x) := by
  unfold State.goodReport
  exact .judgeArrival (.judgeArrival (.judgeArrival (.judgeOverride (.judgeOverride (.judgeOverride h)))))

theorem lensReport {bytes : List Byte} (h : Told r s) : Told r (s.lensReport bytes) := by
  unfold State.lensReport
  split
  · exact h
  · split
    · exact .goodReport h
    · exact .missReport h

theorem driveFrame {d : Drive} (h : Told r s) : Told r (s.driveFrame d) := by
  unfold State.driveFrame
  dsimp only
  split
  · exact h
  · split
    · exact h
    · exact h
    · exact .ite (.endMove h) h

theorem irisFrame {n : Serial} (h : Told r s) : Told r (s.irisFrame n) := by
  unfold State.irisFrame
  split
  · exact h
  · split
    · exact h
    · split
      · exact h
      · exact .ite (.endMove h) h

theorem lncFrame {f : FrameStart} (h : Told r s) : Told r (s.lncFrame f) := by
  unfold State.lncFrame
  exact .ite (irisFrame (.driveFrame (.driveFrame (.windowExpires h))) :) h

theorem lncStep (h : Told r s) : Told r s.lncStep := by
  unfold State.lncStep
  split
  · exact h
  · exact .lncFrame h

theorem moveDrive {d : Drive} {target duration : Nat} {origin : Origin} (h : Told r s) :
    Told r (s.moveDrive d target duration origin) := by
  unfold State.moveDrive
  exact (endMove h :)

theorem stopDrive {d : Drive} (h : Told r s) : Told r (s.stopDrive d) := by
  unfold State.stopDrive
  exact .ite h (endMove h :)

theorem moveIris {target duration : Nat} {origin : Origin} (h : Told r s) : Told r (s.moveIris target duration origin) := by
  unfold State.moveIris
  exact (endMove h :)

/-! ### Image stabilisation -/

theorem badSample {status : Option Byte} (h : Told r s) : Told r (s.badSample status) := by
  unfold State.badSample
  exact .ite (.notify h) h

theorem gyroDue (h : Told r s) : Told r s.gyroDue := by
  have sampled : Told r (if s.stb.reading then s.badSample none else s) := .ite (.badSample h) h
  unfold State.gyroDue
  exact .ite sampled h

theorem gyroAnswered {yaw pitch : Int} {status : Byte} (h : Told r s) : Told r (s.gyroAnswered yaw pitch status) := by
  unfold State.gyroAnswered
  exact .ite (.ite h (.badSample h)) h

theorem tileSet {x : TileSet} (h : Told r s) : Told r (s.tileSet x) := by
  unfold State.tileSet State.noteMean
  exact .ite h (.ite (.ite h h) h)

theorem reportEdge {before after : StabAxis} {leak : Int} {axis : Nat} {serial : Serial} (h : Told r s) :
    Told r (s.reportEdge before after leak axis serial) := by
  unfold State.reportEdge
  exact .ite (.report h) h

theorem moveCrop {leak : Int} {serial : Serial} (h : Told r s) : Told r (s.moveCrop leak serial) := by
  unfold State.moveCrop
  exact .reportEdge (.reportEdge h)

theorem stabMoves {serial : Serial} (h : Told r s) : Told r (s.stabMoves serial) := by
  unfold State.stabMoves
  split
  · exact h
  · exact h
  · exact h
  · exact (moveCrop h :)
  · exact (moveCrop h :)

theorem stbFrame {f : FrameStart} (h : Told r s) : Told r (s.stbFrame f) := by
  unfold State.stbFrame
  split
  · exact h
  · split
    · exact h
    · extract_lets lens moved
      have kept : Told r moved := .stabMoves h
      exact kept

theorem stbStep (h : Told r s) : Told r s.stbStep := by
  unfold State.stbStep
  split
  · exact h
  · exact .stbFrame h

/-! ### The buffer memory -/

theorem ageOldest (h : Told r s) : Told r s.ageOldest := by
  unfold State.ageOldest
  split
  · exact h
  · exact .ite (.abandon h) h

theorem bfmFrame {f : FrameStart} (h : Told r s) : Told r (s.bfmFrame f) := by
  have aged : Told r (s.modifyBfm (fun b => { b with taken := f.serial })).ageOldest := .ageOldest h
  unfold State.bfmFrame
  exact .ite (.review aged) h

theorem bfmStep (h : Told r s) : Told r s.bfmStep := by
  unfold State.bfmStep
  split
  · exact h
  · exact .bfmFrame h

theorem beginPicture {e : Entry} {length : Nat} {key : Bool} (h : Told r s) : Told r (s.beginPicture e length key) := by
  unfold State.beginPicture
  split
  · exact (abandon h :)
  · dsimp only
    split
    · exact abandon (s := { s with bfm := (s.bfm.allocate (pagesOf length)).2 }) h
    · exact h

theorem essenceHeader {serial : Serial} {length : Nat} {key : Bool} (h : Told r s) :
    Told r (s.essenceHeader serial length key) := by
  unfold State.essenceHeader
  split
  · exact h
  · exact h
  · dsimp only
    split
    · exact h
    · split
      · exact h
      · exact .ite h (.review (.beginPicture (.foldl .abandon h)))

theorem fillPicture {serial : Serial} {placed remaining : Nat} {bytes : List Byte} (h : Told r s) :
    Told r (s.fillPicture serial placed remaining bytes) := by
  unfold State.fillPicture
  extract_lets data filled
  have kept : Told r filled := h
  exact .ite kept (.review (.checkComplete kept))

theorem essenceData {bytes : List Byte} (h : Told r s) : Told r (s.essenceData bytes) := by
  unfold State.essenceData
  split
  · exact h
  · exact .fillPicture h
  · exact h

theorem takeRetain {w : Nat} {window : HoldWindow} {head : Serial} (h : Told r s) : Told r (s.takeRetain w window head) := by
  unfold State.takeRetain
  extract_lets primary opened b kept retained clipped reported
  have opened : Told r opened := .openFor h
  exact closeCopy (s := reported) (reportRec (s := clipped) opened)

/-! ### The card writers' commands -/

theorem formatEnds {side : Side} (h : Told r s) : Told r (s.formatEnds side) := by
  unfold State.formatEnds
  exact .judgeNearFull (.report h)

theorem completed {side : Side} {kind : CardCmdKind} (h : Told r s) : Told r (s.completed side kind) := by
  unfold State.completed
  split
  · exact .foldl (fun k => k) h
  · exact h
  · exact h
  · exact .recoverNext h
  · exact .formatEnds h
  · exact h
  · exact h
  · exact h
  · exact h

theorem cardFails {side : Side} {kind : Nat} {sector : Option Nat} {cause : FailCause} (h : Told r s) :
    Told r (s.cardFails side kind sector cause) := by
  unfold State.cardFails
  exact .notify (.slotLost h)

theorem commandAnswered {side : Side} {status : CardStatus} (h : Told r s) : Told r (s.commandAnswered side status) := by
  unfold State.commandAnswered
  split
  · exact h
  · exact .cardFails h
  · exact .review (.runWriter (.completed h))

theorem readAnswered {side : Side} {answer : ReadAnswer} (h : Told r s) : Told r (s.readAnswered side answer) := by
  unfold State.readAnswered
  split
  · exact h
  · exact .cardFails h
  · exact .cardRead h

theorem cardTimesOut {side : Side} (h : Told r s) : Told r (s.cardTimesOut side) := by
  unfold State.cardTimesOut
  split
  · exact .cardFails h
  · exact .cardFails h
  · exact h

theorem takeNext {side : Side} (h : Told r s) : Told r (s.takeNext side) := by
  unfold State.takeNext
  split
  · exact h
  · split
    · exact h
    · exact .ite (.review (takeUnit h :)) (.endOfCard h)

theorem reportChange {side : Side} {change : Nat} (h : Told r s) : Told r (s.reportChange side change) := .report h

theorem mountOrDefer {side : Side} (h : Told r s) : Told r (s.mountOrDefer side) := by
  unfold State.mountOrDefer
  exact .ite h h

theorem detectChanged {side : Side} {present : Bool} (h : Told r s) : Told r (s.detectChanged side present) := by
  unfold State.detectChanged
  exact .ite h (.ite h (.ite (.ite (.reportChange (.mountOrDefer h)) h) (.reportChange (.slotLost h))))

theorem protectChanged {side : Side} {on : Bool} (h : Told r s) : Told r (s.protectChanged side on) := by
  unfold State.protectChanged
  exact .ite h (.ite (.ite (.reportChange h) h) (.ite (.reportChange (.mountOrDefer h)) h))

/-! ### Recorder, viewfinder and power -/

theorem rcdStep (h : Told r s) : Told r s.rcdStep := by
  unfold State.rcdStep
  split <;> exact h

theorem vogStep (h : Told r s) : Told r s.vogStep := by
  unfold State.vogStep
  split
  · exact h
  · unfold State.vogFrame
    exact .ite h h

theorem resetItems {which : List Nat} (h : Told r s) : Told r (s.resetItems which) := by
  unfold State.resetItems
  exact .foldl (fun k => k) h

theorem haltLens (h : Told r s) : Told r s.haltLens :=
  show Told r (s.endMoves .halted) from .endMoves h

theorem reportPower (h : Told r s) : Told r s.reportPower := .report h

theorem enterStandby (h : Told r s) : Told r s.enterStandby := by
  unfold State.enterStandby
  extract_lets stopped halted
  have kept : Told r halted := haltLens (s := State.setTimebase _ _) h
  exact .reportPower kept

theorem returnToRun {cause : RunCause} (h : Told r s) : Told r (s.returnToRun cause) := by
  unfold State.returnToRun
  exact reportPower h

theorem press (h : Told r s) : Told r s.press := by
  unfold State.press
  split
  · exact .returnToRun h
  · split
    · exact .startReported h
    · exact .stop h
    · exact h
    · exact h

theorem switchLnc {on : Bool} (h : Told r s) : Told r (s.switchLnc on) := by
  unfold State.switchLnc
  exact .ite h h

theorem switchStb {on : Bool} (h : Told r s) : Told r (s.switchStb on) := by
  unfold State.switchStb
  exact .ite h h

theorem switchAud {on : Bool} (h : Told r s) : Told r (s.switchAud on) := by
  have handed : Told r (if !on && s.pwc.inRun then s.handOverOff else s) := .ite (.handOverOff h) h
  unfold State.switchAud
  exact .ite h handed

theorem switchVog {on : Bool} (h : Told r s) : Told r (s.switchVog on) := by
  unfold State.switchVog
  exact .ite h h

theorem switchSlot {side : Side} {on : Bool} (h : Told r s) : Told r (s.switchSlot side on) := by
  unfold State.switchSlot
  exact .ite h (.ite (.ite (.mountOrDefer h) h) h)

/-! ### What a block does with a request (R176 step 4) -/

theorem reqFrameConfig {p : List Byte} (h : Told r s) : Told r (reqFrameConfig p s).1 := by
  unfold Machine.reqFrameConfig
  split
  · exact .iteFst h (.iteFst h (.fireIfDue (.of_lnk h rfl)))
  · exact h

theorem reqTcPreset {p : List Byte} (h : Told r s) : Told r (reqTcPreset p s).1 := by
  unfold Machine.reqTcPreset
  exact .iteFst h h

theorem reqTcMode {p : List Byte} (h : Told r s) : Told r (reqTcMode p s).1 := by
  unfold Machine.reqTcMode
  split
  · exact h
  · exact .iteFst h h

theorem reqTcTrigger {p : List Byte} (h : Told r s) : Told r (reqTcTrigger p s).1 := by
  unfold Machine.reqTcTrigger
  refine .iteFst h (.iteFst h ?_)
  dsimp only
  split
  · exact h
  · exact .iteFst h h

theorem reqIntervalConfig {p : List Byte} (h : Told r s) : Told r (reqIntervalConfig p s).1 := by
  unfold Machine.reqIntervalConfig
  split
  · exact h
  · exact .iteFst h h

theorem reqTimeQuery {p : List Byte} (h : Told r s) : Told r (reqTimeQuery p s).1 := by
  unfold Machine.reqTimeQuery
  split
  · exact h
  · exact .ite h h

theorem takeRate {d : Drive} {p : List Byte} (h : Told r s) : Told r (s.takeRate d p).1 := by
  unfold State.takeRate
  split
  · exact h
  · exact .iteFst h (endMove h :)

theorem reqLensGoto {p : List Byte} (h : Told r s) : Told r (reqLensGoto p s).1 := by
  unfold Machine.reqLensGoto
  dsimp only
  split
  · refine .iteFst h (.iteFst h ?_)
    exact .ite (.moveDrive (.ite (.moveDrive h) h)) (.ite (.moveDrive h) h)
  · exact h

theorem reqLensStop {p : List Byte} (h : Told r s) : Told r (reqLensStop p s).1 := by
  unfold Machine.reqLensStop
  exact endMove (.stopDrive (.stopDrive h))

theorem reqPresetStore {p : List Byte} (h : Told r s) : Told r (reqPresetStore p s).1 := by
  unfold Machine.reqPresetStore
  split
  · exact .iteFst h h
  · split <;> exact h
  · exact h

theorem recallPreset {i : Nat} {x : Preset} {t : Nat} (h : Told r s) : Told r (s.recall i x t).1 := by
  unfold State.recall
  dsimp only
  split
  · exact moveIris (.moveDrive (.moveDrive h))
  · exact moveDrive (.moveDrive h)

theorem reqPresetRecall {p : List Byte} (h : Told r s) : Told r (reqPresetRecall p s).1 := by
  unfold Machine.reqPresetRecall
  split
  · split
    · exact h
    · exact .iteFst h (.recallPreset h)
  · exact h

theorem takeIris {f : Iris → Iris} (h : Told r s) : Told r (s.takeIris f).1 := by
  unfold State.takeIris
  exact .iteFst h (endMove h :)

theorem reqIrisAuto {p : List Byte} (h : Told r s) : Told r (reqIrisAuto p s).1 := by
  unfold Machine.reqIrisAuto
  split
  · exact h
  · exact .takeIris h

theorem reqZoomCurveLoad {p : List Byte} (h : Told r s) : Told r (reqZoomCurveLoad p s).1 := by
  unfold Machine.reqZoomCurveLoad
  exact .iteFst h h

theorem reqLensConfig {p : List Byte} (h : Told r s) : Told r (reqLensConfig p s).1 := by
  unfold Machine.reqLensConfig
  split <;> exact h

theorem reqLensQuery {p : List Byte} (h : Told r s) : Told r (reqLensQuery p s).1 := by
  unfold Machine.reqLensQuery
  split
  · exact h
  · exact .ite h h

theorem reqStabConfig {p : List Byte} (h : Told r s) : Told r (reqStabConfig p s).1 := by
  unfold Machine.reqStabConfig
  split
  · exact h
  · exact .iteFst h h

theorem reqStabMode {p : List Byte} (h : Told r s) : Told r (reqStabMode p s).1 := by
  unfold Machine.reqStabMode
  split
  · exact h
  · exact .iteFst h h

theorem reqStabRecentre {p : List Byte} (h : Told r s) : Told r (reqStabRecentre p s).1 := by
  unfold Machine.reqStabRecentre
  exact .iteFst h h

theorem reqStabQuery {p : List Byte} (h : Told r s) : Told r (reqStabQuery p s).1 := by
  unfold Machine.reqStabQuery
  split
  · exact h
  · exact .ite h h

theorem reqAudioRoute {p : List Byte} (h : Told r s) : Told r (reqAudioRoute p s).1 := by
  unfold Machine.reqAudioRoute
  split
  · exact .iteFst h h
  · exact h

theorem reqAudioGain {p : List Byte} (h : Told r s) : Told r (reqAudioGain p s).1 := by
  unfold Machine.reqAudioGain
  split
  · exact .iteFst h h
  · exact h

theorem reqAudioLimiter {p : List Byte} (h : Told r s) : Told r (reqAudioLimiter p s).1 := by
  unfold Machine.reqAudioLimiter
  split
  · exact .iteFst h h
  · exact h

theorem reqAudioQuery {p : List Byte} (h : Told r s) : Told r (reqAudioQuery p s).1 := by
  unfold Machine.reqAudioQuery
  split
  · exact h
  · exact .ite h h

theorem reqAuxAttach {p : List Byte} (h : Told r s) : Told r (reqAuxAttach p s).1 := by
  unfold Machine.reqAuxAttach
  exact .iteFst h (.iteFst h h)

theorem reqMarkFrame {p : List Byte} (h : Told r s) : Told r (reqMarkFrame p s).1 := by
  unfold Machine.reqMarkFrame
  dsimp only
  split
  · exact h
  · exact h
  · split <;> exact h

theorem reqPrerecConfig {p : List Byte} (h : Told r s) : Told r (reqPrerecConfig p s).1 := by
  unfold Machine.reqPrerecConfig
  split
  · exact h
  · exact .iteFst h h

theorem reqHoldSet {p : List Byte} (h : Told r s) : Told r (reqHoldSet p s).1 := by
  unfold Machine.reqHoldSet
  refine .iteFst h ?_
  split
  · exact h
  · exact .iteFst h h

theorem reqHoldClear {p : List Byte} (h : Told r s) : Told r (reqHoldClear p s).1 := by
  unfold Machine.reqHoldClear
  split
  · exact h
  · exact .iteFst h (.iteFst h h)

theorem reqHoldRetain {p : List Byte} (h : Told r s) : Told r (reqHoldRetain p s).1 := by
  unfold Machine.reqHoldRetain
  split
  · exact h
  · split
    · refine .iteFst h ?_
      split
      · exact (takeRetain h :)
      · exact h
      · exact h
    · exact h

theorem reqBufferQuery {p : List Byte} (h : Told r s) : Told r (reqBufferQuery p s).1 := by
  unfold Machine.reqBufferQuery
  split
  · exact h
  · exact .ite h h

theorem reqSlotMode {p : List Byte} (h : Told r s) : Told r (reqSlotMode p s).1 := by
  unfold Machine.reqSlotMode
  split
  · exact .iteFst h h
  · exact h

theorem reqRecStart {p : List Byte} (h : Told r s) : Told r (reqRecStart p s).1 := by
  have started : Told r (s.start .host s.rcd.noted).1 := .start h
  unfold Machine.reqRecStart
  exact .iteFst started started

theorem reqRecStop {p : List Byte} (h : Told r s) : Told r (reqRecStop p s).1 :=
  show Told r (s.stop s.rcd.noted) from .stop h

theorem reqRecQuery {p : List Byte} (h : Told r s) : Told r (reqRecQuery p s).1 := by
  unfold Machine.reqRecQuery
  split
  · exact h
  · exact .ite h h

theorem reqCardFormat {p : List Byte} (h : Told r s) : Told r (reqCardFormat p s).1 := by
  unfold Machine.reqCardFormat
  split
  · exact h
  · refine .iteFst h ?_
    split
    · exact h
    · exact .runWriter h

theorem reqCardEject {p : List Byte} (h : Told r s) : Told r (reqCardEject p s).1 := by
  unfold Machine.reqCardEject
  split
  · exact h
  · refine .iteFst h ?_
    split <;> exact h

theorem reqCardConfig {p : List Byte} (h : Told r s) : Told r (reqCardConfig p s).1 := by
  unfold Machine.reqCardConfig
  split
  · exact .judgeNearFull h
  · exact h

theorem reqCardQuery {p : List Byte} (h : Told r s) : Told r (reqCardQuery p s).1 := by
  unfold Machine.reqCardQuery
  split
  · exact .ite h h
  · exact h

theorem reqVfItemSet {p : List Byte} (h : Told r s) : Told r (reqVfItemSet p s).1 := by
  unfold Machine.reqVfItemSet
  split
  · exact .iteFst h h
  · exact h

theorem reqVfItemClear {p : List Byte} (h : Told r s) : Told r (reqVfItemClear p s).1 := by
  unfold Machine.reqVfItemClear
  exact .iteFst h (.iteFst h (.resetItems h))

theorem reqVfText {p : List Byte} (h : Told r s) : Told r (reqVfText p s).1 := by
  unfold Machine.reqVfText
  dsimp only
  split
  · exact .iteFst h (.iteFst h h)
  · exact h

theorem reqVfConfig {p : List Byte} (h : Told r s) : Told r (reqVfConfig p s).1 := by
  unfold Machine.reqVfConfig
  dsimp only
  split
  · exact .iteFst h (.iteFst h h)
  · exact h

theorem reqPowerStandby {p : List Byte} (h : Told r s) : Told r (reqPowerStandby p s).1 := by
  unfold Machine.reqPowerStandby
  exact .iteFst h (.iteFst h (.enterStandby h))

theorem reqPowerRun {p : List Byte} (h : Told r s) : Told r (reqPowerRun p s).1 := by
  unfold Machine.reqPowerRun
  exact .ite h (.returnToRun h)

theorem reqBlockEnable {p : List Byte} (h : Told r s) : Told r (reqBlockEnable p s).1 := by
  unfold Machine.reqBlockEnable
  split
  · exact h
  · exact .iteFst h (.switchAud (.switchVog (.switchStb (.switchLnc (.switchSlot (.switchSlot h))))))

end State.Told

end Sys2Proof.Machine

namespace Sys2Proof.Machine

/-! # The notice messages follow the table (R177 to R179)

The laws of the notice table under `Sys2Proof/Laws` speak of a table of twenty sources. What a command leaves is said of
every state, so here they are said of tables of any length: a source outside the table is at its reset values. -/

/-! ## A source of a table of any length -/

/-- A change of one source is that source's, if the table holds it, and leaves every other. -/
theorem Lnk.source_modifySource_cases (lnk : Lnk) (src : Source) (f : SourceState → SourceState) (x : Source) :
    (lnk.modifySource src f).source x = lnk.source x ∨
      (x = src ∧ (lnk.modifySource src f).source x = f (lnk.source x)) := by
  simp only [Lnk.source, Lnk.modifySource, getElem?_modifyAt]
  split
  · next here =>
    cases held : lnk.table[x.number]? with
    | none => exact .inl rfl
    | some st => exact .inr ⟨Source.number_inj here, rfl⟩
  · exact .inl rfl

theorem Lnk.source_modifySource_self {lnk : Lnk} {src : Source} (listed : src.number < lnk.table.length)
    (f : SourceState → SourceState) : (lnk.modifySource src f).source src = f (lnk.source src) := by
  simp [Lnk.source, Lnk.modifySource, getElem?_modifyAt, List.getElem?_eq_getElem listed]

/-- A source outside the table is neither pending nor sent: it is at its reset values. -/
theorem Lnk.unlisted {lnk : Lnk} {src : Source} (out : ¬ src.number < lnk.table.length) :
    (lnk.source src).pending = false ∧ (lnk.source src).sent = false := by
  rw [Lnk.source, List.getElem?_eq_none (by omega), Option.getD_none]
  cases src <;> exact ⟨rfl, rfl⟩

theorem Lnk.listed_of_pending {lnk : Lnk} {src : Source} (pending : (lnk.source src).pending = true) :
    src.number < lnk.table.length := by
  by_contra out
  rw [(Lnk.unlisted out).1] at pending
  cases pending

theorem Lnk.listed_of_sent {lnk : Lnk} {src : Source} (sent : (lnk.source src).sent = true) :
    src.number < lnk.table.length := by
  by_contra out
  rw [(Lnk.unlisted out).2] at sent
  cases sent

theorem Lnk.source_eq_of_table {l k : Lnk} (h : k.table = l.table) (src : Source) : k.source src = l.source src := by
  rw [Lnk.source, Lnk.source, h]

/-! ## What holds the messages of sent sources -/

/-- `k` is as silent as `l`: its messages are those of `l`, and it raises no sent flag. -/
structure Lnk.Silent (l k : Lnk) : Prop where
  waiting : k.waiting = l.waiting
  sending : k.sending = l.sending
  sent : ∀ src, (k.source src).sent = true → (l.source src).sent = true

theorem Lnk.Silent.refl (l : Lnk) : l.Silent l := ⟨rfl, rfl, fun _ => id⟩

theorem Lnk.Silent.trans {l k m : Lnk} (h : l.Silent k) (h' : k.Silent m) : l.Silent m :=
  ⟨h'.waiting.trans h.waiting, h'.sending.trans h.sending, fun src => h.sent src ∘ h'.sent src⟩

theorem Lnk.silent_modifySource (lnk : Lnk) (src : Source) {f : SourceState → SourceState}
    (keeps : ∀ st, (f st).sent = true → st.sent = true) : lnk.Silent (lnk.modifySource src f) := by
  refine ⟨rfl, rfl, fun x sent => ?_⟩
  rcases lnk.source_modifySource_cases src f x with same | ⟨-, changed⟩
  · rwa [same] at sent
  · rw [changed] at sent
    exact keeps _ sent

/-- An occurrence sends nothing by itself (R178). -/
theorem Lnk.silent_occur (lnk : Lnk) (n : Serial) (src : Source) (detail : List (Option Byte)) :
    lnk.Silent (lnk.occur n src detail) := by
  unfold Lnk.occur
  dsimp only
  split
  · exact .refl lnk
  · split
    · exact lnk.silent_modifySource src fun _ => id
    · obtain ⟨-, -, sent⟩ := lnk.silent_modifySource src (f := fun st =>
        { st with pending := true, count := 1, sent := false, record := some ⟨(fillDetail lnk.drawn detail).1, n⟩ }) nofun
      exact ⟨rfl, rfl, sent⟩

theorem Lnk.silent_hears {l k : Lnk} (h : Relation.ReflTransGen Lnk.Hears l k) : l.Silent k := by
  induction h with
  | refl => exact .refl _
  | tail _ heard silent =>
    obtain ⟨n, src, detail, rfl⟩ := heard
    exact silent.trans (Lnk.silent_occur _ n src detail)

theorem State.Told.silent {r s : State} (h : r.Told s) : r.lnk.Silent s.lnk := Lnk.silent_hears h

/-- Of each sent flag that stands in `k`: where it was clear in `l`, or the queue of `l` held its message, the queue of `k` holds
it. -/
def Lnk.HoldsSent (l k : Lnk) : Prop :=
  ∀ src, (k.source src).sent = true → (l.source src).sent = false ∨ l.holds src → k.holds src

theorem Lnk.HoldsSent.refl (l : Lnk) : l.HoldsSent l := fun src sent held => by
  rcases held with clear | held
  · rw [sent] at clear
    cases clear
  · exact held

theorem Lnk.HoldsSent.trans {l k m : Lnk} (h : l.HoldsSent k) (h' : k.HoldsSent m) : l.HoldsSent m := fun src sent held => by
  refine h' src sent ?_
  cases flag : (k.source src).sent with
  | false => exact .inl rfl
  | true => exact .inr (h src flag held)

/-- No flag is raised, and no message of a sent source leaves. -/
theorem Lnk.HoldsSent.of_sent {l k : Lnk} (sent : ∀ src, (k.source src).sent = true → (l.source src).sent = true)
    (stays : ∀ src, (k.source src).sent = true → l.holds src → k.holds src) : l.HoldsSent k := fun src flag held => by
  rcases held with clear | held
  · rw [sent src flag] at clear
    cases clear
  · exact stays src flag held

theorem Lnk.Silent.holdsSent {l k : Lnk} (h : l.Silent k) : l.HoldsSent k := .of_sent h.sent fun src _ held => by
  rwa [Lnk.holds, h.waiting, h.sending]

/-- A reply that joins the queue leaves the notice messages (R175). -/
theorem Lnk.holdsSent_pushReply (lnk : Lnk) (r : Request) (ans : Answer) : lnk.HoldsSent (lnk.pushReply r ans) :=
  .of_sent (fun _ => id) fun _ _ held => held.imp_left (List.mem_append_left _)

/-! ## Withdrawing -/

theorem Lnk.sent_of_foldl_clearSent : ∀ (srcs : List Source) (lnk : Lnk) (x : Source),
    ((srcs.foldl (fun l src => l.modifySource src (fun st => { st with sent := false })) lnk).source x).sent = true →
      x ∉ srcs ∧ (lnk.source x).sent = true
  | [], _, _, sent => ⟨List.not_mem_nil, sent⟩
  | y :: ys, lnk, x, sent => by
    obtain ⟨out, kept⟩ := Lnk.sent_of_foldl_clearSent ys _ x sent
    rcases lnk.source_modifySource_cases y (fun st => { st with sent := false }) x with same | ⟨-, changed⟩
    · rw [same] at kept
      refine ⟨fun mem => ?_, kept⟩
      rcases List.mem_cons.mp mem with rfl | mem
      · have listed := Lnk.listed_of_sent kept
        rw [← same, Lnk.source_modifySource_self listed] at kept
        cases kept
      · exact out mem
    · rw [changed] at kept
      cases kept

/-- A sent flag that withdrawing leaves was set before, and its source's message, if one waits, stands (R179). -/
theorem Lnk.sent_of_withdraw {lnk : Lnk} {src : Source} (sent : (lnk.withdraw.source src).sent = true) :
    (lnk.source src).sent = true ∧ (OutMsg.notice src ∈ lnk.waiting → lnk.qualifies src = true) := by
  obtain ⟨out, before⟩ := Lnk.sent_of_foldl_clearSent _ lnk src sent
  refine ⟨before, fun waits => ?_⟩
  by_contra gone
  exact out (List.mem_filter.mpr ⟨mem_allSources src, by simp [waits, gone]⟩)

theorem Lnk.holdsSent_withdraw (lnk : Lnk) : lnk.HoldsSent lnk.withdraw :=
  .of_sent (fun _ sent => (Lnk.sent_of_withdraw sent).1) fun src sent held => by
    rw [Lnk.holds, Lnk.waiting_withdraw, Lnk.sending_withdraw]
    exact held.imp_left fun waits => List.mem_filter.mpr ⟨waits, (Lnk.sent_of_withdraw sent).2 waits⟩

/-! ## Queueing -/

/-- A source that qualifies unsent and finds a place is queued; any other is not. -/
theorem Lnk.queueNotice_queued (lnk : Lnk) (src : Source) :
    (lnk.unsentNow src = true ∧ lnk.hasNoticePlace = true ∧ Queued lnk (lnk.queueNotice src) [src]) ∨
      ((lnk.unsentNow src = true → lnk.hasNoticePlace = false) ∧ lnk.queueNotice src = lnk) := by
  unfold Lnk.queueNotice
  split
  · next joins =>
    rw [Bool.and_eq_true] at joins
    obtain ⟨unsent, place⟩ := joins
    have qualifies : lnk.qualifies src = true := by
      rw [Lnk.unsentNow, Bool.and_eq_true] at unsent
      exact unsent.1
    have listed := Lnk.listed_of_pending ((lnk.qualifies_iff_calls src).mp qualifies).1
    refine .inl ⟨unsent, place, by simp, rfl, by simp, rfl, rfl, fun x => ?_⟩
    by_cases same : x = src
    · subst same
      rw [if_pos (List.mem_singleton.mpr rfl)]
      exact Lnk.source_modifySource_self listed _
    · rw [if_neg (by simpa using same)]
      exact (lnk.source_modifySource_cases src _ x).resolve_right fun h => same h.1
  · next stays =>
    exact .inr ⟨fun unsent => by simpa [unsent] using stays, rfl⟩

/-- What of `P` each single queueing keeps, queueing keeps. -/
theorem Lnk.queueNotices_keeps {P : Lnk → Prop} (step : ∀ l src, P l → P (l.queueNotice src)) {lnk : Lnk} (h : P lnk) :
    P lnk.queueNotices := by
  unfold Lnk.queueNotices
  exact List.foldlRecOn _ _ h fun l kept src _ => step l src kept

theorem Queued.holdsSent {l k : Lnk} {joined : List Source} (h : Queued l k joined) : l.HoldsSent k := fun src sent held => by
  rw [Lnk.holds, h.waiting, h.sending]
  by_cases joins : src ∈ joined
  · exact .inl (List.mem_append_right _ (List.mem_map_of_mem joins))
  · rw [h.source, if_neg joins] at sent
    rcases held with clear | held
    · rw [sent] at clear
      cases clear
    · exact held.imp_left (List.mem_append_left _)

theorem Lnk.holdsSent_queueNotices (lnk : Lnk) : lnk.HoldsSent lnk.queueNotices := by
  refine Lnk.queueNotices_keeps (P := fun k => lnk.HoldsSent k) (fun k src held => ?_) (.refl lnk)
  rcases k.queueNotice_queued src with ⟨-, -, queued⟩ | ⟨-, same⟩
  · exact held.trans queued.holdsSent
  · rw [same]
    exact held

/-- Queueing makes no place free. -/
theorem Queued.full {l k : Lnk} {x : Source} (h : Queued l k [x]) (full : l.hasNoticePlace = false) : k.hasNoticePlace = false := by
  obtain ⟨places, noticePlaces⟩ := Lnk.places_joined (m := .notice x) h.waiting h.sending
  simp only [Lnk.hasNoticePlace, Bool.and_eq_false_iff, decide_eq_false_iff_not, OutMsg.isNotice, if_true] at full noticePlaces ⊢
  omega

/-- A source has been passed over in `k`: if it still qualifies unsent, no place is free. -/
def Lnk.PassedOver (src : Source) (k : Lnk) : Prop := k.unsentNow src = true → k.hasNoticePlace = false

theorem Lnk.passedOver_queueNotice {src : Source} {k : Lnk} (x : Source) (h : k.PassedOver src) :
    (k.queueNotice x).PassedOver src := by
  rcases k.queueNotice_queued x with ⟨-, -, queued⟩ | ⟨-, same⟩
  · intro unsent
    have out : src ∉ [x] := fun mem => by
      simp [Lnk.unsentNow, queued.source src, mem] at unsent
    exact queued.full (h (queued.unsentNow out ▸ unsent))
  · rwa [same]

/-- A source whose turn it was is queued or passed over. -/
theorem Lnk.passedOver_own (k : Lnk) (src : Source) : (k.queueNotice src).PassedOver src := by
  rcases k.queueNotice_queued src with ⟨-, -, queued⟩ | ⟨full, same⟩
  · intro unsent
    simp [Lnk.unsentNow, queued.source src] at unsent
  · rwa [same]

theorem Lnk.passedOver_foldl {src : Source} : ∀ (srcs : List Source) (k : Lnk), src ∈ srcs ∨ k.PassedOver src →
    (srcs.foldl Lnk.queueNotice k).PassedOver src
  | [], _, h => h.resolve_left List.not_mem_nil
  | x :: xs, k, h => by
    refine Lnk.passedOver_foldl xs _ ?_
    rcases h with mem | passed
    · rcases List.mem_cons.mp mem with rfl | mem
      · exact .inr (k.passedOver_own src)
      · exact .inl mem
    · exact .inr (Lnk.passedOver_queueNotice x passed)

/-- Queueing gives every source its turn (R179). -/
theorem Lnk.passedOver_queueNotices (lnk : Lnk) (src : Source) : lnk.queueNotices.PassedOver src := by
  refine Lnk.passedOver_foldl _ lnk ?_
  by_cases unsent : lnk.unsentNow src = true
  · exact .inl ((lnk.inOrder_perm _).mem_iff.mpr (List.mem_filter.mpr ⟨mem_allSources src, unsent⟩))
  · exact .inr fun h => absurd h unsent

/-! ## Beginning a message -/

theorem Lnk.table_transmit (lnk : Lnk) : lnk.transmit.table = lnk.table ∧ lnk.transmit.mask = lnk.mask := by
  rcases lnk.transmit_cases with ⟨-, same⟩ | ⟨-, -, same⟩ | ⟨-, x, -, -, -, table, mask⟩
  · exact ⟨congrArg Lnk.table same, congrArg Lnk.mask same⟩
  · exact ⟨congrArg Lnk.table same, congrArg Lnk.mask same⟩
  · exact ⟨table, mask⟩

/-- A message that begins keeps its place. -/
theorem Lnk.holdsSent_transmit (lnk : Lnk) : lnk.HoldsSent lnk.transmit := by
  have source := Lnk.source_eq_of_table lnk.table_transmit.1
  refine .of_sent (fun src sent => source src ▸ sent) fun src _ held => ?_
  rcases lnk.transmit_cases with ⟨-, same⟩ | ⟨-, -, same⟩ | ⟨idle, x, -, sending, waiting, -, -⟩
  · rwa [same]
  · rwa [same]
  · rw [Lnk.holds, sending, waiting]
    rcases held with waits | sends
    · by_cases begins : x.msg = .notice src
      · exact .inr (congrArg some begins)
      · exact .inl ((List.mem_erase_of_ne (Ne.symm begins)).mpr waits)
    · rw [idle] at sends
      cases sends

theorem Lnk.mem_of_mem_transmit {lnk : Lnk} {m : OutMsg} (h : m ∈ lnk.transmit.waiting) : m ∈ lnk.waiting := by
  rcases lnk.transmit_cases with ⟨-, same⟩ | ⟨-, -, same⟩ | ⟨-, x, -, -, waiting, -, -⟩
  · rwa [same] at h
  · rwa [same] at h
  · rw [waiting] at h
    exact List.mem_of_mem_erase h

/-- The arbiter's choice, and the frame it begins, are the same of records that differ in sent flags alone. -/
theorem SameBut.transmit {l k : Lnk} (h : SameBut l k) (waiting : k.waiting = l.waiting) (sending : k.sending = l.sending)
    (drawn : k.drawn = l.drawn) : k.transmit.waiting = l.transmit.waiting ∧ k.transmit.sending = l.transmit.sending := by
  have next : k.nextNotice = l.nextNotice := by rw [Lnk.nextNotice, waiting, h.inOrder, Lnk.nextNotice]
  have payload (src : Source) : (k.source src).noticePayload = (l.source src).noticePayload := by
    have same := h.source src
    simp only [SourceState.mk.injEq] at same
    obtain ⟨-, level, -, -, count, record, -⟩ := same
    simp only [SourceState.noticePayload, SourceState.firstSerial, level, count, record]
  unfold Lnk.transmit
  rw [sending, next, Lnk.oldestReply, waiting, ← Lnk.oldestReply]
  split
  · exact ⟨waiting, sending⟩
  · split
    · exact ⟨rfl, rfl⟩
    · split
      · next src _ => exact ⟨rfl, by rw [payload src, drawn]⟩
      · exact ⟨waiting, sending⟩

/-! ## LNK follows the table -/

theorem SameBut.tallied {l k : Lnk} (h : SameBut l k) (src : Source) : k.tallied src = l.tallied src := by
  have same := h.source src
  simp only [SourceState.mk.injEq] at same
  obtain ⟨enabled, -, routes, pending, -⟩ := same
  simp only [Lnk.tallied, enabled, routes, pending]

theorem Lnk.holdsSent_follow (lnk : Lnk) : lnk.HoldsSent lnk.follow :=
  ((lnk.holdsSent_withdraw.trans (Lnk.holdsSent_queueNotices _)).trans (Lnk.holdsSent_transmit _)).trans
    (k := lnk.withdraw.queueNotices.transmit) (Lnk.Silent.holdsSent ⟨rfl, rfl, fun _ => id⟩)

/-- A sent flag that follows a table without one has its message in the queue. -/
theorem Lnk.holds_of_follow {lnk : Lnk} (clear : ∀ src, (lnk.source src).sent = false) {src : Source}
    (sent : (lnk.follow.source src).sent = true) : lnk.follow.holds src :=
  lnk.holdsSent_follow src sent (.inl (clear src))

/-- Each waiting notice message is that of a source that qualifies (R179). -/
theorem Lnk.calls_of_waiting_follow {lnk : Lnk} {src : Source} (waits : OutMsg.notice src ∈ lnk.follow.waiting) :
    lnk.follow.calls src := by
  rw [← Lnk.qualifies_iff_calls, (SameBut.of_unsent lnk.unsent_follow).qualifies]
  have same : SameBut lnk lnk.withdraw := .of_unsent lnk.unsent_withdraw
  have queued : SameBut lnk lnk.withdraw.queueNotices ∧
      (OutMsg.notice src ∈ lnk.withdraw.queueNotices.waiting → lnk.qualifies src = true) := by
    refine Lnk.queueNotices_keeps (P := fun k => SameBut lnk k ∧ (OutMsg.notice src ∈ k.waiting → lnk.qualifies src = true))
      (fun k x ⟨same, stands⟩ => ?_) ⟨same, fun mem => (List.mem_filter.mp mem).2⟩
    refine ⟨same.trans (.of_unsent (k.unsent_queueNotice x)), fun mem => ?_⟩
    rcases k.queueNotice_queued x with ⟨unsent, -, queued⟩ | ⟨-, kept⟩
    · rw [queued.waiting, List.mem_append] at mem
      rcases mem with mem | mem
      · exact stands mem
      · obtain rfl : src = x := by simpa using mem
        rw [Lnk.unsentNow, Bool.and_eq_true] at unsent
        rw [← same.qualifies]
        exact unsent.1
    · rw [kept] at mem
      exact stands mem
  exact queued.2 (Lnk.mem_of_mem_transmit waits)

theorem Lnk.hasNoticePlace_eq_false {lnk : Lnk} :
    lnk.hasNoticePlace = false ↔ 16 ≤ lnk.places ∨ 12 ≤ lnk.noticePlaces := by
  simp [Lnk.hasNoticePlace]
  omega

theorem Lnk.places_follow (lnk : Lnk) :
    lnk.follow.places = lnk.withdraw.queueNotices.places ∧ lnk.follow.noticePlaces = lnk.withdraw.queueNotices.noticePlaces :=
  lnk.withdraw.queueNotices.places_transmit

theorem Lnk.source_follow (lnk : Lnk) (src : Source) : lnk.follow.source src = lnk.withdraw.queueNotices.source src :=
  Lnk.source_eq_of_table (k := lnk.follow) lnk.withdraw.queueNotices.table_transmit.1 src

/-- A qualifying source whose sent flag is clear finds no place (R179). -/
theorem Lnk.full_of_follow {lnk : Lnk} {src : Source} (calls : lnk.follow.calls src)
    (clear : (lnk.follow.source src).sent = false) : 16 ≤ lnk.follow.places ∨ 12 ≤ lnk.follow.noticePlaces := by
  obtain ⟨places, noticePlaces⟩ := lnk.places_follow
  rw [places, noticePlaces, ← Lnk.hasNoticePlace_eq_false]
  refine lnk.withdraw.passedOver_queueNotices src ?_
  have mask : lnk.follow.mask = lnk.withdraw.queueNotices.mask := lnk.withdraw.queueNotices.table_transmit.2
  rw [← Lnk.qualifies_iff_calls, Lnk.qualifies, lnk.source_follow, mask] at calls
  rw [lnk.source_follow] at clear
  rw [Lnk.unsentNow, Lnk.qualifies, clear]
  simpa using calls

/-- While a message waits, one is being sent (R177). -/
theorem Lnk.sends_of_follow {lnk : Lnk} (waits : lnk.follow.waiting ≠ []) : lnk.follow.sending.isSome = true := by
  change lnk.withdraw.queueNotices.transmit.sending.isSome = true
  change lnk.withdraw.queueNotices.transmit.waiting ≠ [] at waits
  rcases lnk.withdraw.queueNotices.transmit_cases with ⟨busy, same⟩ | ⟨-, none, same⟩ | ⟨-, x, -, sending, -⟩
  · rwa [same]
  · rw [same] at waits
    exact absurd none waits
  · rw [sending]
    rfl

end Sys2Proof.Machine

namespace Sys2Proof.Machine

/-! # Sent flags and messages over a command (R177 to R179) -/

/-! ## The requests that LNK owns -/

theorem SourceState.sent_of_clear {st : SourceState} (sent : st.clear.sent = true) : st.sent = true := by
  unfold SourceState.clear at sent
  split at sent
  · cases sent
  · exact sent

theorem Lnk.silent_clearAll (srcs : List Source) (lnk : Lnk) : lnk.Silent (lnk.clearAll srcs) := by
  induction srcs generalizing lnk with
  | nil => exact .refl lnk
  | cons src srcs ih => exact (lnk.silent_modifySource src fun _ => SourceState.sent_of_clear).trans (ih _)

theorem silent_reqNoticeConfig (p : List Byte) (s : State) : s.lnk.Silent (reqNoticeConfig p s).1.lnk := by
  unfold reqNoticeConfig
  split
  · exact s.lnk.silent_modifySource _ fun _ => id
  · exact .refl _

theorem silent_reqNoticeMask (p : List Byte) (s : State) : s.lnk.Silent (reqNoticeMask p s).1.lnk := by
  unfold reqNoticeMask
  split
  · exact .refl _
  · exact ⟨rfl, rfl, fun _ => id⟩

theorem silent_reqNoticeClear (p : List Byte) (s : State) : s.lnk.Silent (reqNoticeClear p s).1.lnk := by
  unfold reqNoticeClear
  dsimp only
  split
  · exact .refl _
  · exact Lnk.silent_clearAll _ s.lnk

theorem silent_reqNoticeQuery (p : List Byte) (s : State) : s.lnk.Silent (reqNoticeQuery p s).1.lnk := by
  unfold reqNoticeQuery
  split
  · exact .refl _
  · next clear _ =>
    cases clear
    · exact .refl _
    · exact ⟨rfl, rfl, fun _ => id⟩

/-- A block that takes a request leaves the queue and raises no sent flag (R176 step 4). -/
theorem silent_takeRequest (req : Req) (p : List Byte) (s : State) : s.lnk.Silent (takeRequest req p s).1.lnk := by
  have here := State.Told.refl s
  cases req with
  | frameConfig => exact here.reqFrameConfig.silent
  | tcPreset => exact here.reqTcPreset.silent
  | tcMode => exact here.reqTcMode.silent
  | tcUserbits => exact .refl _
  | tcTrigger => exact here.reqTcTrigger.silent
  | intervalConfig => exact here.reqIntervalConfig.silent
  | timeQuery => exact here.reqTimeQuery.silent
  | zoomRate => exact (here.takeRate (d := .zoom)).silent
  | focusRate => exact (here.takeRate (d := .focus)).silent
  | lensGoto => exact here.reqLensGoto.silent
  | lensStop => exact (here.reqLensStop (p := p)).silent
  | presetStore => exact here.reqPresetStore.silent
  | presetRecall => exact here.reqPresetRecall.silent
  | irisSet => exact State.Told.silent here.takeIris
  | irisAuto => exact here.reqIrisAuto.silent
  | zoomCurveLoad => exact here.reqZoomCurveLoad.silent
  | lensConfig => exact here.reqLensConfig.silent
  | lensQuery => exact here.reqLensQuery.silent
  | stabConfig => exact here.reqStabConfig.silent
  | stabMode => exact here.reqStabMode.silent
  | stabRecentre => exact (here.reqStabRecentre (p := p)).silent
  | stabQuery => exact here.reqStabQuery.silent
  | audioRoute => exact here.reqAudioRoute.silent
  | audioGain => exact here.reqAudioGain.silent
  | audioLimiter => exact here.reqAudioLimiter.silent
  | audioQuery => exact here.reqAudioQuery.silent
  | auxAttach => exact here.reqAuxAttach.silent
  | markFrame => exact here.reqMarkFrame.silent
  | prerecConfig => exact here.reqPrerecConfig.silent
  | holdSet => exact here.reqHoldSet.silent
  | holdClear => exact here.reqHoldClear.silent
  | holdRetain => exact here.reqHoldRetain.silent
  | bufferQuery => exact here.reqBufferQuery.silent
  | slotMode => exact here.reqSlotMode.silent
  | recStart => exact (here.reqRecStart (p := p)).silent
  | recStop => exact (here.reqRecStop (p := p)).silent
  | recQuery => exact here.reqRecQuery.silent
  | cardFormat => exact here.reqCardFormat.silent
  | cardEject => exact here.reqCardEject.silent
  | catalogueRead => exact (reqCatalogueRead_fst p s).symm ▸ .refl _
  | cardConfig => exact here.reqCardConfig.silent
  | cardQuery => exact here.reqCardQuery.silent
  | vfItemSet => exact here.reqVfItemSet.silent
  | vfItemClear => exact here.reqVfItemClear.silent
  | vfText => exact here.reqVfText.silent
  | vfConfig => exact here.reqVfConfig.silent
  | noticeConfig => exact silent_reqNoticeConfig p s
  | noticeMask => exact silent_reqNoticeMask p s
  | noticeClear => exact silent_reqNoticeClear p s
  | noticeQuery => exact silent_reqNoticeQuery p s
  | powerStandby => exact (here.reqPowerStandby (p := p)).silent
  | powerRun => exact (here.reqPowerRun (p := p)).silent
  | blockEnable => exact here.reqBlockEnable.silent
  | partReset => exact ⟨rfl, rfl, fun _ => id⟩

theorem silent_judgeRequest (s : State) (x : Request) : s.lnk.Silent (s.judgeRequest x).1.lnk := by
  unfold State.judgeRequest
  split
  · exact .refl _
  · unfold State.judgeRow
    split
    · exact .refl _
    · split
      · exact .refl _
      · exact silent_takeRequest _ _ s

/-! ## LNK's own work

`State.Accounts r s`: of each sent flag in `s`, a message stands in the queue, where it was clear in `r` or its message stood in
the queue there. LNK's operations carry it on, in the order of the model's definitions. -/

/-- `Lnk.HoldsSent` of two states. -/
def State.Accounts (r s : State) : Prop := r.lnk.HoldsSent s.lnk

namespace State.Accounts

variable {r s t : State}

theorem refl (s : State) : Accounts s s := Lnk.HoldsSent.refl s.lnk

theorem silent (h : Accounts r s) (k : s.lnk.Silent t.lnk) : Accounts r t := Lnk.HoldsSent.trans h k.holdsSent

theorem told (h : Accounts r s) (k : s.Told t) : Accounts r t := h.silent k.silent

/-- LNK's other fields change. -/
theorem modifyLnk {f : Lnk → Lnk} (h : Accounts r s) (waiting : (f s.lnk).waiting = s.lnk.waiting)
    (sending : (f s.lnk).sending = s.lnk.sending) (table : (f s.lnk).table = s.lnk.table) : Accounts r (s.modifyLnk f) :=
  h.silent ⟨waiting, sending, fun src sent => Lnk.source_eq_of_table table src ▸ sent⟩

theorem settle (h : Accounts r s) : Accounts r s.settle := by
  rw [Accounts, State.settle_lnk]
  exact Lnk.HoldsSent.trans h s.lnk.holdsSent_follow

theorem elapseBy {fuel cycles : Nat} (h : Accounts r s) : Accounts r (State.elapseBy fuel cycles s) := by
  induction fuel generalizing cycles s with
  | zero => exact h
  | succ fuel ih =>
    unfold State.elapseBy
    split
    · exact h
    · have passed : Accounts r (s.pass s.ftb.toDue) := h
      exact ih (passed.told (.timerFires (.refl _))).settle

theorem serve {x : Request} (h : Accounts r s) : Accounts r (s.serve x) := by
  have judged : Accounts r (s.judgeRequest x).1 := h.silent (silent_judgeRequest s x)
  unfold State.serve
  exact settle (s := State.modifyLnk _ _) (Lnk.HoldsSent.trans judged (Lnk.holdsSent_pushReply _ x _))

theorem dispatch {fuel : Nat} (h : Accounts r s) : Accounts r (State.dispatch fuel s) := by
  induction fuel generalizing s with
  | zero => exact h
  | succ fuel ih =>
    unfold State.dispatch
    split
    · exact h
    · split
      · exact ih (serve (h.modifyLnk rfl rfl rfl))
      · exact h

theorem dropFrame {cause : DropCause} (h : Accounts r s) : Accounts r (s.dropFrame cause) := by
  unfold State.dropFrame
  exact settle (told (h.modifyLnk rfl rfl rfl) (.report (.refl _)))

theorem offer {x : Request} (h : Accounts r s) : Accounts r (s.offer x) := by
  unfold State.offer
  split
  · exact dispatch (h.modifyLnk rfl rfl rfl)
  · exact h.dropFrame

theorem keep {b : Byte} (h : Accounts r s) : Accounts r (s.modifyLnk (fun lnk => lnk.keep b)) := by
  have same : (s.lnk.keep b).waiting = s.lnk.waiting ∧ (s.lnk.keep b).sending = s.lnk.sending ∧ (s.lnk.keep b).table = s.lnk.table := by
    unfold Lnk.keep
    split <;> exact ⟨rfl, rfl, rfl⟩
  exact h.modifyLnk same.1 same.2.1 same.2.2

theorem hunt (h : Accounts r s) : Accounts r s.hunt := h.modifyLnk rfl rfl rfl

theorem takeBytes {fuel : Nat} {bytes : List Byte} (h : Accounts r s) : Accounts r (State.takeBytes fuel bytes s) := by
  induction fuel generalizing bytes s with
  | zero => exact h
  | succ fuel ih =>
    cases bytes with
    | nil => exact h
    | cons b rest =>
      unfold State.takeBytes
      extract_lets kept
      have kept : Accounts r kept := h.keep
      split
      · exact ih kept
      · exact ih kept.hunt.dropFrame
      · exact ih kept.hunt.dropFrame
      · exact ih kept.hunt.offer

theorem dropKept {cause : DropCause} (h : Accounts r s) : Accounts r (s.dropKept cause) := by
  unfold State.dropKept
  exact takeBytes h.hunt.dropFrame

theorem framingError (h : Accounts r s) : Accounts r s.framingError := by
  unfold State.framingError
  split
  · exact h.modifyLnk rfl rfl rfl
  · exact h.dropKept

theorem gapExpires (h : Accounts r s) : Accounts r s.gapExpires := by
  unfold State.gapExpires
  split
  · exact h
  · exact h.dropKept

end State.Accounts

/-! ## Resets and messages sent

The end of a message empties the line, so of `State.Accounts` only what waits is carried over it. -/

/-- Of each sent flag that stands in `k`: where it was clear in `l`, or its message waited there, the queue of `k` holds it. -/
def Lnk.HoldsWaiting (l k : Lnk) : Prop :=
  ∀ src, (k.source src).sent = true → (l.source src).sent = false ∨ OutMsg.notice src ∈ l.waiting → k.holds src

theorem Lnk.HoldsSent.holdsWaiting {l k : Lnk} (h : l.HoldsSent k) : l.HoldsWaiting k :=
  fun src sent held => h src sent (held.imp_right .inl)

theorem Lnk.HoldsWaiting.trans {l k m : Lnk} (h : l.HoldsWaiting k) (h' : k.HoldsSent m) : l.HoldsWaiting m :=
  fun src sent held => by
    refine h' src sent ?_
    cases flag : (k.source src).sent with
    | false => exact .inl rfl
    | true => exact .inr (h src flag held)

theorem Lnk.source_held (drawn : Nat) (src : Source) : (Lnk.held drawn).source src = src.afterReset := by
  cases src <;> rfl

theorem Source.afterReset_quiet (src : Source) : src.afterReset.pending = false ∧ src.afterReset.sent = false := by
  cases src <;> exact ⟨rfl, rfl⟩

theorem Lnk.sent_held (drawn : Nat) (src : Source) : ((Lnk.held drawn).source src).sent = false := by
  rw [Lnk.source_held]
  exact src.afterReset_quiet.2

/-- Of sources with no sent flag, every message is in the queue. -/
theorem Lnk.holdsSent_of_clear {l k : Lnk} (clear : ∀ src, (k.source src).sent = false) : l.HoldsSent k := fun src sent => by
  rw [clear src] at sent
  cases sent

theorem Lnk.holdsSent_held (l : Lnk) (drawn : Nat) : l.HoldsSent (Lnk.held drawn) := Lnk.holdsSent_of_clear (Lnk.sent_held drawn)

theorem State.holdsWaiting_messageSent (s : State) : s.lnk.HoldsWaiting s.messageSent.lnk := by
  unfold State.messageSent
  split
  · exact (Lnk.HoldsSent.refl _).holdsWaiting
  · dsimp only
    split
    · exact (Lnk.holdsSent_held _ _).holdsWaiting
    · have sent : s.lnk.HoldsWaiting { s.lnk with sending := none } := fun src flag held => by
        rcases held with clear | waits
        · exact absurd (flag.symm.trans clear) nofun
        · exact .inl waits
      have begun := sent.trans (Lnk.holdsSent_transmit _)
      exact begun.trans (State.Accounts.dispatch (.refl (State.modifyLnk _ Lnk.transmit)))

/-- At the end of a reset PART_STARTED alone is pending, and it is routed to the host alone (R185). -/
theorem Lnk.started_readers (drawn : Nat) (cause : ResetCause) (baud : Nat) (detectA detectB : Bool) :
    let lnk := Lnk.started drawn cause baud detectA detectB
    (∃ u : Lnk, lnk = u.follow ∧ ∀ src, (u.source src).sent = false) ∧ (∀ src, lnk.alerts src = false) ∧
      ∀ src, lnk.tallied src = false := by
  let detail := (u8 cause.code ++ u8 baud ++ flagByte detectA ++ flagByte detectB).map some
  let u := ({ Lnk.held drawn with baud := baud } : Lnk).occur 0 .partStarted detail
  have silent : ({ Lnk.held drawn with baud := baud } : Lnk).Silent u := Lnk.silent_occur _ _ _ _
  have same : SameBut u u.follow := .of_unsent u.unsent_follow
  refine ⟨⟨u, rfl, fun src => ?_⟩, fun src => ?_, fun src => ?_⟩
  · rw [Bool.eq_false_iff]
    intro sent
    have clear := Lnk.sent_held drawn src
    exact absurd ((silent.sent src sent).symm.trans clear) nofun
  · refine (same.alerts src).trans ?_
    cases src <;> rfl
  · refine (same.tallied src).trans ?_
    cases src <;> rfl

/-! ## What a command leaves -/

/-- The command acts: it is no end of a reset while the part works, a power-on reset, or the end of a reset in progress (R191). -/
def Acts (c : Instr) (s : State) : Prop :=
  (s.works ∧ ∀ p q a b, c ≠ .resetEnd p q a b) ∨ c = .powerOnReset ∨ (¬ s.works ∧ ∃ p q a b, c = .resetEnd p q a b)

/-- What a command can leave: the state as it was, when it does not act; a settled state; or a reset's (R191). -/
inductive Leaves (c : Instr) (s : State) : State → Prop
  | same (rests : ¬ Acts c s) : Leaves c s s
  | settled (u : State) (holds : s.lnk.HoldsWaiting u.lnk) : Leaves c s u.settle
  | held : Leaves c s (s.hold .powerOn)
  | started (cause : ResetCause) (baud : Nat) (detectA detectB : Bool) : Leaves c s (s.endReset cause baud detectA detectB)

theorem leaves_act {c : Instr} {s t : State} (effect : State → State) (acts : exec c s = s.act effect)
    (noReset : c ≠ .powerOnReset ∧ ∀ p q a b, c ≠ .resetEnd p q a b) (holds : s.lnk.HoldsWaiting (effect s).lnk)
    (h : exec c s = .next t) : Leaves c s t := by
  rw [acts, State.act] at h
  split at h <;> obtain rfl := Host.Outcome.next.inj h
  · next resetting =>
    refine .same ?_
    rintro (⟨works, -⟩ | powerOn | ⟨-, p, q, a, b, ends⟩)
    · rw [State.inReset, works] at resetting
      cases resetting
    · exact noReset.1 powerOn
    · exact noReset.2 p q a b ends
  · exact .settled _ holds

theorem leaves_accounts {c : Instr} {s t : State} (effect : State → State) (acts : exec c s = s.act effect)
    (noReset : c ≠ .powerOnReset ∧ ∀ p q a b, c ≠ .resetEnd p q a b) (accounts : s.Accounts (effect s))
    (h : exec c s = .next t) : Leaves c s t := leaves_act effect acts noReset accounts.holdsWaiting h

theorem leaves_told {c : Instr} {s t : State} (effect : State → State) (acts : exec c s = s.act effect)
    (noReset : c ≠ .powerOnReset ∧ ∀ p q a b, c ≠ .resetEnd p q a b) (told : s.Told s → s.Told (effect s))
    (h : exec c s = .next t) : Leaves c s t :=
  leaves_accounts effect acts noReset ((State.Accounts.refl s).told (told (.refl s))) h

theorem leaves_resetEnd {strap1 strap0 detectA detectB : Bool} {s t : State}
    (h : exec (.resetEnd strap1 strap0 detectA detectB) s = .next t) :
    Leaves (.resetEnd strap1 strap0 detectA detectB) s t := by
  change execResetEnd strap1 strap0 detectA detectB s = .next t at h
  unfold execResetEnd at h
  split at h <;> obtain rfl := Host.Outcome.next.inj h
  · next works =>
    refine .same ?_
    rintro (⟨-, other⟩ | powerOn | ⟨resets, -⟩)
    · exact other _ _ _ _ rfl
    · cases powerOn
    · exact resets works
  · exact .started ..

/-- Every command leaves one of these. The commands without a case of their own are the requests, which all reach the part
through the inbound queue (R175). -/
theorem exec_leaves {c : Instr} {s t : State} (h : exec c s = .next t) : Leaves c s t := by
  have here := State.Accounts.refl s
  cases c with
  | frameStartEdge cycles =>
    exact leaves_accounts (fun s => (s.elapse cycles).edge) rfl ⟨nofun, nofun⟩
      ((here.elapseBy (cycles := cycles)).told (.edge (.refl _))) h
  | substitutionTimer => exact leaves_told State.fireIfDue rfl ⟨nofun, nofun⟩ .fireIfDue h
  | lncFrameStart => exact leaves_told State.lncStep rfl ⟨nofun, nofun⟩ .lncStep h
  | lensReport bytes => exact leaves_told (·.lensReport bytes) rfl ⟨nofun, nofun⟩ .lensReport h
  | reportWindowExpiry => exact leaves_told State.windowExpires rfl ⟨nofun, nofun⟩ .windowExpires h
  | gyroReadDue => exact leaves_told State.gyroDue rfl ⟨nofun, nofun⟩ .gyroDue h
  | gyroAnswer yaw pitch status =>
    exact leaves_told (·.gyroAnswered yaw.toInt pitch.toInt status) rfl ⟨nofun, nofun⟩ .gyroAnswered h
  | tileSetComplete serial pixels => exact leaves_told (·.tileSet ⟨serial, pixels⟩) rfl ⟨nofun, nofun⟩ .tileSet h
  | correlationComplete => exact leaves_told (·.modifyStb Stb.correlated) rfl ⟨nofun, nofun⟩ id h
  | stbFrameStart => exact leaves_told State.stbStep rfl ⟨nofun, nofun⟩ .stbStep h
  | sampleFrame pair first second =>
    exact leaves_told (·.sampleFrame pair first.toInt second.toInt) rfl ⟨nofun, nofun⟩ .sampleFrame h
  | audFrameStart => exact leaves_told State.audStep rfl ⟨nofun, nofun⟩ .audStep h
  | bfmFrameStart => exact leaves_told State.bfmStep rfl ⟨nofun, nofun⟩ .bfmStep h
  | essenceHeader serial lengthLessOne key =>
    exact leaves_told (·.essenceHeader serial (lengthLessOne.toNat + 1) key) rfl ⟨nofun, nofun⟩ .essenceHeader h
  | essenceData bytes => exact leaves_told (·.essenceData bytes) rfl ⟨nofun, nofun⟩ .essenceData h
  | rcdFrameStart => exact leaves_told State.rcdStep rfl ⟨nofun, nofun⟩ .rcdStep h
  | vogFrameStart => exact leaves_told State.vogStep rfl ⟨nofun, nofun⟩ .vogStep h
  | overlaySent => exact leaves_told (fun s => { s with vog := s.vog.recordSent }) rfl ⟨nofun, nofun⟩ id h
  | recLinePress => exact leaves_told State.press rfl ⟨nofun, nofun⟩ .press h
  | unitTake slot => exact leaves_told (·.takeNext slot) rfl ⟨nofun, nofun⟩ .takeNext h
  | commandComplete slot status =>
    exact leaves_told (·.commandAnswered slot status) rfl ⟨nofun, nofun⟩ .commandAnswered h
  | cardReadComplete slot answer => exact leaves_told (·.readAnswered slot answer) rfl ⟨nofun, nofun⟩ .readAnswered h
  | cardTimeout slot => exact leaves_told (·.cardTimesOut slot) rfl ⟨nofun, nofun⟩ .cardTimesOut h
  | cardDetectChange slot present => exact leaves_told (·.detectChanged slot present) rfl ⟨nofun, nofun⟩ .detectChanged h
  | protectChange slot on => exact leaves_told (·.protectChanged slot on) rfl ⟨nofun, nofun⟩ .protectChanged h
  | byteArrival byte => exact leaves_accounts (·.receiveBytes [byte]) rfl ⟨nofun, nofun⟩ here.takeBytes h
  | lineFramingError => exact leaves_accounts State.framingError rfl ⟨nofun, nofun⟩ here.framingError h
  | gapTimeout => exact leaves_accounts State.gapExpires rfl ⟨nofun, nofun⟩ here.gapExpires h
  | messageSent => exact leaves_act State.messageSent rfl ⟨nofun, nofun⟩ s.holdsWaiting_messageSent h
  | powerOnReset =>
    obtain rfl := Host.Outcome.next.inj h
    exact .held
  | resetEnd strap1 strap0 detectA detectB => exact leaves_resetEnd h
  | _ => exact leaves_accounts (fun s => s.offer _) rfl ⟨nofun, nofun⟩ here.offer h

end Sys2Proof.Machine

namespace Sys2Proof.Machine

/-! # The readers of the notice table (R166, R167, R169, R179) -/

/-! ## LNK: what following the table does (R179) -/

section
variable {l k : Lnk}

theorem SameBut.firstSerial (h : SameBut l k) (src : Source) : (k.source src).firstSerial = (l.source src).firstSerial := by
  have same := h.source src
  simp only [SourceState.mk.injEq] at same
  obtain ⟨-, -, -, -, -, record, -⟩ := same
  simp only [SourceState.firstSerial, record]

theorem SameBut.level (h : SameBut l k) (src : Source) : (k.source src).level = (l.source src).level := by
  have same := h.source src
  simp only [SourceState.mk.injEq] at same
  exact same.2.1

/-- The keys of R166 and R177 do not read the sent flags. -/
theorem SameBut.lists (h : SameBut l k) {p q : Source → Prop} (same : ∀ src, q src ↔ p src) {srcs : List Source}
    (lists : k.Lists p srcs) : l.Lists q srcs := by
  obtain ⟨nodup, mem, ordered⟩ := lists
  refine ⟨nodup, fun src => (mem src).trans (same src).symm, fun base ages => ?_⟩
  have age (src : Source) : k.age base src = l.age base src := by rw [Lnk.age, h.firstSerial, Lnk.age]
  refine (ordered base fun x holds => age x ▸ ages x ((same x).mpr holds)).imp fun {x y} before => ?_
  simpa only [Lnk.precedes, age, h.level] using before

end

/-- The message waits on after withdrawing: a reply, or that of a source that qualifies. -/
theorem Lnk.stands_eq (lnk : Lnk) : lnk.stands = fun m => match m with
    | .reply _ _ _ => true
    | .notice src => decide (lnk.calls src) := by
  funext m
  cases m with
  | reply _ _ _ => rfl
  | notice src => exact Bool.eq_iff_iff.mpr ((lnk.qualifies_iff_calls src).trans decide_eq_true_iff.symm)

/-- After withdrawing, a source is to be queued where it qualifies and its sent flag was clear. -/
theorem Lnk.unsentNow_withdraw {lnk : Lnk} (table : lnk.table.length = 20) (src : Source) :
    lnk.withdraw.unsentNow src = true ↔ lnk.calls src ∧ (lnk.source src).sent = false := by
  rw [Lnk.unsentNow, Bool.and_eq_true, (Lnk.withdraw_same table).qualifies, Lnk.qualifies_iff_calls]
  refine and_congr_right fun calls => ?_
  rw [Lnk.source_withdraw table, if_neg fun gone => gone.2 calls, Bool.not_eq_true']

theorem Queued.sameBut {l k : Lnk} {joined : List Source} (h : Queued l k joined) : SameBut l k :=
  ⟨h.table, h.mask, fun src => by rw [h.source]; split <;> rfl⟩

/-- What following the table does to the table and the queue (R179). -/
theorem Lnk.follow_queues {lnk : Lnk} (table : lnk.table.length = 20) :
    ∃ joined left,
      lnk.Lists (fun src => lnk.calls src ∧ (lnk.source src).sent = false) (joined ++ left) ∧
      (left ≠ [] → 16 ≤ lnk.follow.places ∨ 12 ≤ lnk.follow.noticePlaces) ∧
      (∀ src, lnk.follow.source src = { lnk.source src with
        sent := if src ∈ joined then true
          else if OutMsg.notice src ∈ lnk.waiting ∧ ¬ lnk.calls src then false
          else (lnk.source src).sent }) ∧
      let queue : Lnk := { lnk with waiting := lnk.waiting.filter lnk.stands ++ joined.map OutMsg.notice }
      lnk.follow.waiting = queue.transmit.waiting ∧ lnk.follow.sending = queue.transmit.sending := by
  have same := Lnk.withdraw_same table
  obtain ⟨joined, left, lists, queued, full⟩ := Lnk.queueNotices_queues (same.table.trans table)
  refine ⟨joined, left, same.lists (fun src => (Lnk.unsentNow_withdraw table src).symm) lists, fun rest => ?_, fun src => ?_, ?_⟩
  · obtain ⟨places, noticePlaces⟩ := lnk.places_follow
    rw [places, noticePlaces]
    exact Lnk.hasNoticePlace_eq_false.mp (full rest)
  · rw [lnk.source_follow, queued.source, Lnk.source_withdraw table]
    split_ifs <;> rfl
  · have alike := same.trans queued.sameBut
    exact SameBut.transmit (k := lnk.withdraw.queueNotices) ⟨alike.table, alike.mask, alike.source⟩ queued.waiting
      (queued.sending.trans lnk.sending_withdraw) (queued.drawn.trans lnk.drawn_withdraw)

/-! ## VOG: the alert line (R166, R167) -/

/-- The rotation is the front of the alert list (R166). -/
theorem Lnk.rotation_lists (lnk : Lnk) : ∃ others, lnk.Lists lnk.alarms (lnk.rotation ++ others) ∧ lnk.rotation.length ≤ 8 ∧
    (others ≠ [] → lnk.rotation.length = 8) := by
  let alerts := lnk.inOrder (allSources.filter lnk.alerts)
  have lists : lnk.Lists lnk.alarms alerts :=
    SameBut.lists ⟨rfl, rfl, fun _ => rfl⟩ (fun src => (lnk.alerts_iff_alarms src).symm) (lnk.inOrder_lists lnk.alerts)
  refine ⟨alerts.drop 8, (List.take_append_drop 8 alerts).symm ▸ lists, List.length_take_le 8 alerts, fun more => ?_⟩
  rw [ne_eq, List.drop_eq_nil_iff] at more
  exact List.length_take_of_le (not_le.mp more).le

/-- What R167 says of an alert line that `before` was and `after` is, once `rotation` is the table's. -/
def Vog.FollowsTo (before after : Vog) (rotation : List Source) : Prop :=
  after.rotation = rotation ∧
  (before.shown = none → after.shown = none ∧ after.dwell = before.dwell) ∧
  ∀ x, before.shown = some x →
    (x ∈ rotation → after.shown = some x ∧ after.dwell = before.dwell) ∧
    (x ∉ rotation → after.dwell = 0 ∧
      ∀ front back, before.rotation = front ++ x :: back → x ∉ front →
        let stays := back.filter (fun y => rotation.contains y)
        (∀ y rest, stays = y :: rest → after.shown = some y) ∧ (stays = [] → after.shown = rotation.head?))

theorem following_eq {x : Source} {front back : List Source} (first : x ∉ front) : following x (front ++ x :: back) = back := by
  have skipped : (front ++ x :: back).dropWhile (fun y => y != x) = x :: back := by
    have others : ∀ y ∈ front, (y != x) = true := fun y mem => bne_iff_ne.mpr (ne_of_mem_of_not_mem mem first)
    rw [List.dropWhile_append_of_pos others]
    exact List.dropWhile_cons_of_neg (by simp)
  rw [following, skipped, List.drop_one, List.tail_cons]

/-- The alert that comes after one that has left: the first behind it that stays, or else the first of the rotation. -/
theorem chooseAlert_eq (before after : List Source) (gone : Source) :
    chooseAlert before after gone = (((following gone before).filter (fun y => after.contains y)).head?).or after.head? := by
  rw [chooseAlert, List.head?_filter]
  split
  · next found => rw [found, Option.some_or]
  · next found => rw [found, Option.none_or]

theorem Vog.follow_gone {vog : Vog} {rotation : List Source} {x : Source} (shown : vog.shown = some x) (out : x ∉ rotation) :
    vog.follow rotation = { vog with shown := chooseAlert vog.rotation rotation x, dwell := 0, rotation := rotation } := by
  unfold Vog.follow
  rw [shown]
  exact if_neg (by simpa using out)

/-- An alert line that is given a rotation does what R167 says. -/
theorem Vog.followsTo_follow (vog : Vog) (rotation : List Source) : vog.FollowsTo (vog.follow rotation) rotation := by
  by_cases held : ∀ x, vog.shown = some x → x ∈ rotation
  · rw [Vog.follow_held held]
    exact ⟨rfl, fun none => ⟨none, rfl⟩, fun x shown => ⟨fun _ => ⟨shown, rfl⟩, fun out => absurd (held x shown) out⟩⟩
  · push Not at held
    obtain ⟨x, shown, out⟩ := held
    rw [Vog.follow_gone shown out]
    refine ⟨rfl, fun none => absurd (shown.symm.trans none) nofun, fun y shown' => ?_⟩
    obtain rfl : x = y := Option.some.inj (shown.symm.trans shown')
    refine ⟨fun mem => absurd mem out, fun _ => ⟨rfl, fun front back parts first => ?_⟩⟩
    dsimp only
    rw [chooseAlert_eq, parts, following_eq first]
    exact ⟨fun y rest stays => by rw [stays]; rfl, fun stays => by rw [stays]; rfl⟩

/-- An alert line that has been given a rotation shows none but a source of it. -/
theorem Vog.shown_follow {vog : Vog} {rotation : List Source} {x : Source} (h : (vog.follow rotation).shown = some x) :
    x ∈ rotation := by
  by_cases held : ∀ x, vog.shown = some x → x ∈ rotation
  · rw [Vog.follow_held held] at h
    exact held x h
  · push Not at held
    obtain ⟨gone, shown, out⟩ := held
    rw [Vog.follow_gone shown out, chooseAlert_eq] at h
    rcases Option.or_eq_some_iff.mp h with stays | ⟨-, first⟩
    · have mem := List.mem_of_head? stays
      simpa using (List.mem_filter.mp mem).2
    · exact List.mem_of_head? first

/-! ## VOG: the lamp, and what settling leaves (R167, R169) -/

theorem State.settle_vogRuns (s : State) : s.settle.vogRuns = s.vogRuns := by
  unfold State.settle
  dsimp only
  split <;> rfl

/-- Settling gives the alert line the table's rotation while VOG works, and judges the lamp. -/
theorem State.settle_vog_eq (s : State) :
    s.settle.vog = { (if s.vogRuns then s.vog.follow s.lnk.rotation else s.vog) with tally := s.settle.tallyDue } := by
  unfold State.settle
  dsimp only
  rw [Lnk.rotation_follow]
  split
  · next runs =>
    rw [if_pos (show s.vogRuns = true from runs)]
    rfl
  · next rests =>
    rw [if_neg (show ¬ s.vogRuns = true from rests)]
    rfl

/-- TALLY is as its conditions stand, and while VOG works its alert line stands in the table's rotation. -/
structure State.Shows (t : State) : Prop where
  tally : t.vog.tally = t.tallyDue
  rotation : t.vogRuns = true → t.vog.rotation = t.lnk.rotation
  shown : t.vogRuns = true → ∀ src, t.vog.shown = some src → src ∈ t.lnk.rotation

theorem State.shows_settle (s : State) : s.settle.Shows := by
  refine ⟨by rw [s.settle_vog_eq], fun runs => ?_, fun runs src shown => ?_⟩
  · rw [State.settle_vogRuns] at runs
    rw [s.settle_vog_eq, s.settle_lnk, Lnk.rotation_follow, if_pos runs]
    exact (s.vog.followsTo_follow s.lnk.rotation).1
  · rw [State.settle_vogRuns] at runs
    rw [s.settle_vog_eq, if_pos runs] at shown
    rw [s.settle_lnk, Lnk.rotation_follow]
    exact Vog.shown_follow shown

/-- The lamp of a part at its reset values, whose table calls no reader (R169). -/
theorem State.shows_afterReset {t : State} (vog : t.vog = .afterReset) (rcd : t.rcd = .afterReset)
    (alerts : ∀ src, t.lnk.alerts src = false) (tallied : ∀ src, t.lnk.tallied src = false) : t.Shows := by
  have rotation : t.lnk.rotation = [] := by
    have none : allSources.filter t.lnk.alerts = [] := List.filter_eq_nil_iff.mpr fun src _ => by simp [alerts src]
    rw [Lnk.rotation, none]
    rfl
  have dark : t.tallyDue = .dark := by
    have none : allSources.any t.lnk.tallied = false := List.any_eq_false.mpr fun src _ => by simp [tallied src]
    rw [State.tallyDue, none, rcd]
    split <;> rfl
  refine ⟨?_, fun _ => ?_, fun _ src shown => ?_⟩
  · rw [vog, dark]
    rfl
  · rw [vog, rotation]
    rfl
  · rw [vog] at shown
    cases shown

/-- The lamp by its conditions (R169). -/
theorem State.Shows.lamp {t : State} (h : t.Shows) :
    let calls := fun (src : Source) =>
      (t.lnk.source src).pending = true ∧ (t.lnk.source src).enabled = true ∧ (t.lnk.source src).routes.tally = true
    (¬ t.vogRuns = true → t.vog.tally = .dark) ∧
      (t.vogRuns = true → (∃ src, calls src) → t.vog.tally = .blinking) ∧
      (t.vogRuns = true → (¬ ∃ src, calls src) →
        (t.rcd.state = .recording ∨ t.rcd.state = .closing → t.vog.tally = .lit) ∧
        (t.rcd.state = .standing ∨ t.rcd.state = .retaining → t.vog.tally = .dark)) := by
  intro calls
  have called : allSources.any t.lnk.tallied = true ↔ ∃ src, calls src := by
    rw [List.any_eq_true]
    exact exists_congr fun src => by simp [mem_allSources, Lnk.tallied, calls, and_assoc]
  rw [h.tally, State.tallyDue]
  refine ⟨fun rests => ?_, fun runs call => ?_, fun runs silent => ?_⟩
  · simp [rests]
  · simp [runs, called.mpr call]
  · rw [← called, Bool.not_eq_true] at silent
    rw [runs, silent]
    refine ⟨fun clip => ?_, fun idle => ?_⟩
    · rcases clip with state | state <;> rw [state] <;> rfl
    · rcases idle with state | state <;> rw [state] <;> rfl

/-! ## What a command leaves -/

section
variable {c : Instr} {s t : State}

/-- A table that calls nothing leaves an LNK with nothing waiting and ATTN released as it is. -/
theorem Lnk.follow_of_silent {lnk : Lnk} (quiet : ∀ src, lnk.qualifies src = false) (waiting : lnk.waiting = [])
    (attn : lnk.attn = false) : lnk.follow = lnk := by
  have withdrawn : lnk.withdraw = lnk := by
    have gone : allSources.filter (fun src => lnk.waiting.contains (.notice src) && !lnk.qualifies src) = [] :=
      List.filter_eq_nil_iff.mpr fun src _ => by simp [waiting]
    rw [Lnk.withdraw, gone, waiting]
    exact congrArg (fun w => { lnk with waiting := w }) waiting.symm
  have queued : lnk.queueNotices = lnk := by
    have unsent : allSources.filter lnk.unsentNow = [] :=
      List.filter_eq_nil_iff.mpr fun src _ => by simp [Lnk.unsentNow, quiet src]
    rw [Lnk.queueNotices, unsent]
    rfl
  have idle : lnk.transmit = lnk := by
    rcases lnk.transmit_cases with ⟨-, same⟩ | ⟨-, -, same⟩ | ⟨-, x, mem, -⟩
    · exact same
    · exact same
    · rw [waiting] at mem
      cases mem
  have released : lnk.attnDue = false := List.any_eq_false.mpr fun src _ => by simp [quiet src]
  rw [Lnk.follow, withdrawn, queued, idle, released, ← attn]

theorem Lnk.follow_held (drawn : Nat) : (Lnk.held drawn).follow = Lnk.held drawn := by
  refine Lnk.follow_of_silent (fun src => ?_) rfl rfl
  rw [Lnk.qualifies, Lnk.source_held, src.afterReset_quiet.1]
  rfl

/-- A command that acts leaves an LNK that has followed its table. -/
theorem Leaves.followed (h : Leaves c s t) (acts : Acts c s) : ∃ lnk : Lnk, t.lnk = lnk.follow := by
  cases h with
  | same rests => exact absurd acts rests
  | settled u _ => exact ⟨u.lnk, u.settle_lnk⟩
  | held => exact ⟨Lnk.held s.lnk.drawn, (Lnk.follow_held _).symm⟩
  | started cause baud detectA detectB =>
    obtain ⟨⟨u, followed, -⟩, -⟩ := Lnk.started_readers s.lnk.drawn cause baud detectA detectB
    exact ⟨u, followed⟩

/-- A command leaves the message of a source whose sent flag it sets, or whose message waited, in the queue (R179). -/
theorem Leaves.holdsWaiting (h : Leaves c s t) : s.lnk.HoldsWaiting t.lnk := by
  cases h with
  | same _ => exact (Lnk.HoldsSent.refl _).holdsWaiting
  | settled u holds => exact u.settle_lnk ▸ holds.trans u.lnk.holdsSent_follow
  | held => exact (Lnk.holdsSent_held _ _).holdsWaiting
  | started cause baud detectA detectB =>
    obtain ⟨⟨u, followed, clear⟩, -⟩ := Lnk.started_readers s.lnk.drawn cause baud detectA detectB
    have lnk : (s.endReset cause baud detectA detectB).lnk = u.follow := followed
    rw [lnk]
    exact fun src sent _ => Lnk.holds_of_follow clear sent

/-- A command that acts leaves the lamp and the alert line as the table has them (R167, R169). -/
theorem Leaves.shows (h : Leaves c s t) (acts : Acts c s) : t.Shows := by
  cases h with
  | same rests => exact absurd acts rests
  | settled u _ => exact u.shows_settle
  | held =>
    have quiet (src : Source) : ((Lnk.held s.lnk.drawn).source src).pending = false := by
      rw [Lnk.source_held]
      exact src.afterReset_quiet.1
    exact State.shows_afterReset rfl rfl (fun src => by rw [Lnk.alerts]; simp [State.hold, quiet src])
      (fun src => by rw [Lnk.tallied]; simp [State.hold, quiet src])
  | started cause baud detectA detectB =>
    obtain ⟨-, alerts, tallied⟩ := Lnk.started_readers s.lnk.drawn cause baud detectA detectB
    exact State.shows_afterReset rfl rfl alerts tallied

end

/-! ## The requests of the table (R181 to R183) -/

/-- A request of the table leaves VOG and PWC to their own. -/
theorem judgeRequest_notice {req : Req} (notice : req = .noticeConfig ∨ req = .noticeMask ∨ req = .noticeClear) (tag : Byte)
    (payload : List Byte) (s : State) :
    (s.judgeRequest ⟨req.code, tag, payload⟩).1.vog = s.vog ∧ (s.judgeRequest ⟨req.code, tag, payload⟩).1.pwc = s.pwc := by
  have taken : (takeRequest req payload s).1.vog = s.vog ∧ (takeRequest req payload s).1.pwc = s.pwc := by
    rcases notice with rfl | rfl | rfl
    · rw [takeRequest, reqNoticeConfig]
      split <;> exact ⟨rfl, rfl⟩
    · rw [takeRequest, reqNoticeMask]
      split <;> exact ⟨rfl, rfl⟩
    · rw [takeRequest, reqNoticeClear]
      dsimp only
      split <;> exact ⟨rfl, rfl⟩
  have row : (rowOfReq req).req = req := by cases req <;> rfl
  unfold State.judgeRequest State.judgeRow
  rw [reqOfCode_code]
  dsimp only
  split
  · exact ⟨rfl, rfl⟩
  · split
    · exact ⟨rfl, rfl⟩
    · rwa [row]

/-- An alert line that stands in the rotation is not moved by settling again. -/
theorem Vog.FollowsTo.settle {vog : Vog} {s : State} (h : vog.FollowsTo s.vog s.lnk.rotation)
    (held : ∀ x, s.vog.shown = some x → x ∈ s.lnk.rotation) : vog.FollowsTo s.settle.vog s.settle.lnk.rotation := by
  have kept : s.settle.vog.shown = s.vog.shown ∧ s.settle.vog.dwell = s.vog.dwell ∧ s.settle.vog.rotation = s.lnk.rotation := by
    rw [s.settle_vog_eq, Vog.follow_held held]
    split
    · exact ⟨rfl, rfl, rfl⟩
    · exact ⟨rfl, rfl, h.1⟩
  obtain ⟨shown, dwell, rotation⟩ := kept
  obtain ⟨-, rests, shows⟩ := h
  rw [s.settle_lnk, Lnk.rotation_follow]
  rw [← shown, ← dwell] at rests shows
  exact ⟨rotation, rests, shows⟩

/-- Settling moves the alert line of a working VOG once, as R167 says. -/
theorem State.followsTo_settled {u : State} (runs : u.vogRuns = true) :
    u.vog.FollowsTo u.settle.settle.vog u.settle.settle.lnk.rotation := by
  have moved : u.vog.FollowsTo u.settle.vog u.settle.lnk.rotation := by
    rw [u.settle_vog_eq, if_pos runs, u.settle_lnk, Lnk.rotation_follow]
    exact u.vog.followsTo_follow u.lnk.rotation
  exact moved.settle (u.shows_settle.shown (u.settle_vogRuns.trans runs))

/-- A request of the table moves the alert line of a working VOG as R167 says. -/
theorem followsTo_notice {c : Instr} {req : Req} {tag : Byte} {payload : List Byte} {s t : State}
    (notice : req = .noticeConfig ∨ req = .noticeMask ∨ req = .noticeClear) (received : exec c s = s.receive req.code tag payload)
    (ready : s.ready) (runs : s.vogRuns = true) (h : exec c s = .next t) : s.vog.FollowsTo t.vog t.lnk.rotation := by
  obtain ⟨vog, pwc⟩ := judgeRequest_notice notice tag payload s
  have judged := (State.Keeps.refl s).judgeRequest (x := ⟨req.code, tag, payload⟩)
  cases judgment : s.judgeRequest ⟨req.code, tag, payload⟩ with
  | mk u answer =>
    rw [judgment] at vog pwc judged
    have offered := State.offer_ready ready judgment (judged.inbound.trans ready.2.1)
    rw [received, State.receive, State.act_works ready.1, offered] at h
    obtain rfl := Host.Outcome.next.inj h
    have working : u.vogRuns = true := by
      rw [State.vogRuns, pwc]
      exact runs
    exact vog ▸ State.followsTo_settled (u := u.modifyLnk _) working

/-! ## The obligation -/

/-- Settles O57: what a command leaves has followed the table, its blocks reach LNK by occurrences alone, and what follows the
table does as R166, R167, R169 and R179 say. -/
theorem readersFollow : Obligations.ReadersFollow := by
  unfold Obligations.ReadersFollow
  intro acts follows
  refine ⟨fun c s t run act => ?_, fun c s t run src sent held => ?_, fun lnk table => ?_, fun c s t run act => ?_,
    Lnk.rotation_lists, fun c tag payload s t run ready request inRun enabled => ?_, Vog.followsTo_follow⟩
  · obtain ⟨lnk, followed⟩ := (exec_leaves run).followed act
    rw [followed]
    exact ⟨fun _ => Lnk.calls_of_waiting_follow, fun _ => Lnk.full_of_follow, Lnk.sends_of_follow⟩
  · exact (exec_leaves run).holdsWaiting src sent held
  · obtain ⟨joined, left, lists, full, source, waiting, sending⟩ := Lnk.follow_queues table
    rw [Lnk.stands_eq] at waiting sending
    exact ⟨joined, left, lists, full, source, waiting, sending⟩
  · have shows := (exec_leaves run).shows act
    intro calls vogWorks
    have runs : vogWorks ↔ t.vogRuns = true := by rw [State.vogRuns, Bool.and_eq_true]
    rw [runs]
    obtain ⟨off, called, uncalled⟩ := shows.lamp
    exact ⟨off, called, uncalled, fun works => ⟨shows.rotation works, shows.shown works⟩⟩
  · have runs : s.vogRuns = true := by rw [State.vogRuns, inRun, enabled]; rfl
    rcases request with rfl | rfl | rfl
    · exact followsTo_notice (.inl rfl) rfl ready runs run
    · exact followsTo_notice (.inr (.inl rfl)) rfl ready runs run
    · exact followsTo_notice (.inr (.inr rfl)) rfl ready runs run

end Sys2Proof.Machine

namespace Sys2Proof.Machine

/-! # Resets (R185, R191, R193) -/

/-! ## While a reset lasts -/

/-- Settles O5: every command but the two of a reset acts, and what acts is not taken while a reset lasts. -/
theorem resetHolds : Obligations.ResetHolds := by
  unfold Obligations.ResetHolds
  refine ⟨fun c s held notPin notEnd => ?_, fun s => ⟨s.hold .powerOn, rfl, rfl, rfl, rfl, rfl, rfl, rfl, fun src => ?_,
    rfl, rfl, fun side => ?_, rfl, rfl, rfl⟩⟩
  · have reset : s.inReset = true := Option.isSome_iff_ne_none.mpr held
    cases c with
    | powerOnReset => exact absurd rfl notPin
    | resetEnd p q a b => exact absurd rfl (notEnd p q a b)
    | _ => exact if_pos reset
  · exact (congrArg SourceState.pending (Lnk.source_held s.lnk.drawn src)).trans src.afterReset_quiet.1
  · cases side <;> exact ⟨rfl, rfl⟩

/-! ## ATTN -/

/-- LNK that has followed its table asserts ATTN while a source calls the host (R180). -/
theorem Lnk.attn_follow (lnk : Lnk) : lnk.follow.attn = true ↔ ∃ src, lnk.follow.calls src := by
  have judged : lnk.follow.attn = lnk.follow.attnDue := rfl
  rw [judged, Lnk.attnDue, List.any_eq_true]
  exact exists_congr fun src => by rw [Lnk.qualifies_iff_calls, and_iff_right (mem_allSources src)]

/-! ## The end of a reset -/

/-- Where one source alone calls unsent and the line is idle with nothing waiting, its message begins (R179). -/
theorem Lnk.follow_single {lnk : Lnk} {src : Source} (table : lnk.table.length = 20) (waiting : lnk.waiting = [])
    (idle : lnk.sending = none) (single : ∀ x, lnk.calls x ∧ (lnk.source x).sent = false ↔ x = src) :
    lnk.follow.waiting = [] ∧ lnk.follow.sending.map Sending.msg = some (.notice src) ∧
      ∀ x, lnk.follow.source x = { lnk.source x with sent := if x = src then true else (lnk.source x).sent } := by
  obtain ⟨joined, left, ⟨nodup, mem, -⟩, full, source, waits, sends⟩ := Lnk.follow_queues table
  rw [waiting, List.filter_nil, List.nil_append] at waits sends
  have all : joined ++ left = [src] :=
    List.perm_singleton.mp ((List.perm_ext_iff_of_nodup nodup (List.nodup_singleton src)).mpr fun x =>
      (mem x).trans ((single x).trans List.mem_singleton.symm))
  rcases List.append_eq_singleton_iff.mp all with ⟨rfl, rfl⟩ | ⟨rfl, rfl⟩
  · rcases Lnk.transmit_cases { lnk with waiting := [] } with ⟨busy, -⟩ | ⟨-, -, same⟩ | ⟨-, x, waits', -⟩
    · simp [idle] at busy
    · rw [List.map_nil, same] at waits sends
      have crowded := full (List.cons_ne_nil _ _)
      simp [Lnk.places, Lnk.noticePlaces, waits, sends, idle] at crowded
    · cases waits'
  · rcases Lnk.transmit_cases { lnk with waiting := [.notice src] } with ⟨busy, -⟩ | ⟨-, empty, -⟩ | ⟨-, x, begins, sent, rest, -⟩
    · simp [idle] at busy
    · cases empty
    · rw [List.mem_singleton] at begins
      rw [List.map_singleton, sent] at sends
      rw [List.map_singleton, rest, begins, List.erase_cons_head] at waits
      refine ⟨waits, by rw [sends, Option.map_some, begins], fun x => ?_⟩
      simpa [waiting] using source x

/-- LNK when a reset has ended and PART_STARTED has occurred, before it follows its table (R191). -/
def Lnk.beginning (drawn : Nat) (cause : ResetCause) (baud : Nat) (detectA detectB : Bool) : Lnk :=
  ({ Lnk.held drawn with baud := baud } : Lnk).occur 0 .partStarted
    ((u8 cause.code ++ u8 baud ++ flagByte detectA ++ flagByte detectB).map some)

section
variable {drawn : Nat} {cause : ResetCause} {baud : Nat} {detectA detectB : Bool}

/-- PART_STARTED alone is pending at the end of a reset (R191, R195). -/
theorem Lnk.source_beginning (src : Source) : (Lnk.beginning drawn cause baud detectA detectB).source src =
    if src = .partStarted then
      { Source.partStarted.afterReset with
        pending := true, count := 1
        record := some { detail := u8 cause.code ++ u8 baud ++ flagByte detectA ++ flagByte detectB, serial := 0 } }
    else src.afterReset := by
  cases src <;> rfl

theorem Lnk.calls_beginning (src : Source) : (Lnk.beginning drawn cause baud detectA detectB).calls src ∧
    ((Lnk.beginning drawn cause baud detectA detectB).source src).sent = false ↔ src = .partStarted := by
  have mask : (Lnk.beginning drawn cause baud detectA detectB).mask = 0 := rfl
  rw [Lnk.calls, Lnk.source_beginning, mask]
  split
  · next started => exact iff_of_true ⟨⟨rfl, rfl, rfl, Nat.succ_pos 2⟩, rfl⟩ started
  · next other =>
    refine iff_of_false (fun calls => ?_) other
    rw [src.afterReset_quiet.1] at calls
    exact absurd calls.1.1 nofun

/-- The registers of LNK at the end of a reset (R185). -/
theorem Lnk.registers_started {lnk : Lnk} (h : lnk = Lnk.started drawn cause baud detectA detectB) :
    lnk.baud = baud ∧ lnk.kept = [] ∧ lnk.inbound = [] ∧ lnk.mask = 0 ∧ lnk.counts = .zero := by
  have unsent : lnk.unsent = (Lnk.beginning drawn cause baud detectA detectB).unsent := h ▸ Lnk.unsent_follow _
  exact ⟨congrArg Lnk.baud unsent, congrArg Lnk.kept unsent, congrArg Lnk.inbound unsent, congrArg Lnk.mask unsent,
    congrArg Lnk.counts unsent⟩

/-- The messages, the table and ATTN at the end of a reset: PART_STARTED calls the host, and its message begins (R180, R185,
R191). -/
theorem Lnk.follows_started {lnk : Lnk} (h : lnk = Lnk.started drawn cause baud detectA detectB) :
    lnk.waiting = [] ∧ lnk.sending.map Sending.msg = some (.notice .partStarted) ∧
      lnk.source .partStarted = { Source.partStarted.afterReset with
        pending := true, count := 1, sent := true
        record := some { detail := u8 cause.code ++ u8 baud ++ flagByte detectA ++ flagByte detectB, serial := 0 } } ∧
      (∀ src, src ≠ .partStarted → lnk.source src = src.afterReset) ∧ lnk.attn = true := by
  obtain ⟨-, -, -, mask, -⟩ := Lnk.registers_started h
  obtain ⟨waiting, sending, source⟩ := Lnk.follow_single (lnk := Lnk.beginning drawn cause baud detectA detectB) rfl rfl rfl
    Lnk.calls_beginning
  have attn := Lnk.attn_follow (Lnk.beginning drawn cause baud detectA detectB)
  have followed : (Lnk.beginning drawn cause baud detectA detectB).follow = lnk := h.symm
  rw [followed] at waiting sending attn
  have source' (src : Source) := followed ▸ source src
  have started := (source' .partStarted).trans (by rw [Lnk.source_beginning, if_pos rfl, if_pos rfl])
  refine ⟨waiting, sending, started, fun src other => ?_, attn.mpr ⟨.partStarted, ?_⟩⟩
  · rw [source', Lnk.source_beginning, if_neg other, if_neg other]
  · rw [Lnk.calls, started, mask]
    exact ⟨rfl, rfl, rfl, Nat.succ_pos 2⟩

end

/-- The baud code of the straps (R171). -/
theorem strapCode_eq (strap1 strap0 : Bool) :
    strapCode strap1 strap0 = (if strap1 then 2 else 0) + (if strap0 then 1 else 0) := by
  cases strap1 <;> cases strap0 <;> rfl

theorem ResetCause.code_eq (cause : ResetCause) : cause.code = if cause = .powerOn then 0 else 1 := by
  cases cause <;> rfl

theorem exec_resetEnd_held {s : State} {cause : ResetCause} (resetting : s.pwc.resetting = some cause) (strap1 strap0 a b : Bool) :
    exec (.resetEnd strap1 strap0 a b) s = .next (s.endReset cause (strapCode strap1 strap0) a b) := by
  change execResetEnd strap1 strap0 a b s = _
  rw [execResetEnd, resetting]

theorem exec_resetEnd_works {s : State} (works : s.works) (strap1 strap0 a b : Bool) :
    exec (.resetEnd strap1 strap0 a b) s = .next s := by
  change execResetEnd strap1 strap0 a b s = _
  rw [execResetEnd, works]

/-- Settles O6: every block takes the values of its reset table, and LNK has followed its table after PART_STARTED. -/
theorem resetEndStarts : Obligations.ResetEndStarts := by
  unfold Obligations.ResetEndStarts
  refine fun s strap1 strap0 a b => ⟨fun cause resetting => ?_, fun works => exec_resetEnd_works works strap1 strap0 a b⟩
  obtain ⟨lnk, h⟩ : ∃ lnk, lnk = Lnk.started s.lnk.drawn cause (strapCode strap1 strap0) a b := ⟨_, rfl⟩
  refine ⟨{ s.endReset cause (strapCode strap1 strap0) a b with lnk := lnk }, ?_, ?_⟩
  · rw [exec_resetEnd_held resetting, h]
    rfl
  · obtain ⟨baud, kept, inbound, mask, counts⟩ := Lnk.registers_started h
    obtain ⟨waiting, sending, started, others, attn⟩ := Lnk.follows_started h
    have record := congrArg SourceState.record started
    rw [← baud, ResetCause.code_eq] at record
    exact ⟨rfl, rfl, rfl, rfl, rfl, rfl, rfl, rfl, rfl, rfl, baud.trans (strapCode_eq strap1 strap0), kept, inbound, waiting, mask,
      counts, congrArg SourceState.pending started, congrArg SourceState.count started, record, others, sending, attn, rfl, rfl⟩

end Sys2Proof.Machine

namespace Sys2Proof.Machine

/-! # Requests at the host link (R175, R176) -/

/-! ## A request's command -/

theorem rowOfReq_req (req : Req) : (rowOfReq req).req = req := by cases req <;> rfl

theorem exec_command (req : Req) (tag : Byte) (payload : List Byte) (s : State) :
    exec (req.command tag payload) s = s.receive req.code tag payload := by
  cases req <;> rfl

/-- A code that the table finds is its row's request's. -/
theorem code_of_reqOfCode {code : Byte} {row : ReqRow} (found : reqOfCode code = some row) : row.req.code = code := by
  obtain ⟨req, -, rfl⟩ := List.mem_map.mp (List.mem_of_find?_eq_some found)
  have same := List.find?_some found
  rw [rowOfReq_req]
  exact beq_iff_eq.mp same

/-- A code that is none of the part's is not found in the table (R176 step 1). -/
theorem reqOfCode_none {code : Byte} (foreign : ∀ req : Req, req.code ≠ code) : reqOfCode code = none := by
  refine List.find?_eq_none.mpr fun row mem => ?_
  obtain ⟨req, -, rfl⟩ := List.mem_map.mp mem
  rw [beq_iff_eq]
  exact foreign req

/-- The command of a request is that request reaching the inbound queue (R175). -/
theorem exec_requestCommand (r : Request) (s : State) : exec r.command s = s.receive r.code r.tag r.payload := by
  unfold Request.command
  split
  · next row found => rw [exec_command, code_of_reqOfCode found]
  · rfl

/-! ## Judging (R176) -/

section
variable {req : Req} {tag : Byte} {payload : List Byte} {s : State}

theorem judgeRequest_badLength (misfit : ¬ ((rowOfReq req).least ≤ payload.length ∧ payload.length ≤ (rowOfReq req).greatest)) :
    s.judgeRequest ⟨req.code, tag, payload⟩ = refuse s .badLength := by
  unfold State.judgeRequest State.judgeRow
  rw [reqOfCode_code]
  exact if_pos (by simp; omega)

theorem judgeRequest_blocked {status : Status}
    (fits : (rowOfReq req).least ≤ payload.length ∧ payload.length ≤ (rowOfReq req).greatest)
    (blocked : s.judgeBlock (rowOfReq req).owner payload = some status) :
    s.judgeRequest ⟨req.code, tag, payload⟩ = refuse s status := by
  unfold State.judgeRequest State.judgeRow
  rw [reqOfCode_code]
  dsimp only
  rw [if_neg (by simp; omega), blocked]

/-- A request that LNK refuses changes nothing. -/
theorem answers_judged {status : Status} (ready : s.ready) (judged : s.judgeRequest ⟨req.code, tag, payload⟩ = refuse s status) :
    Answers (req.command tag payload) req tag s s status [] :=
  answers_of ready (exec_command req tag payload s) judged ready.2.1 rfl (by cases status <;> rfl)

end

theorem offUnless_off {enabled : Bool} (off : enabled = false) : offUnless enabled = some .blockOff := by rw [off]; rfl

/-- The owning block of a request is disabled (R176 step 3). -/
def State.ownerOff (s : State) (owner : Owner) (payload : List Byte) : Prop :=
  owner = .lnc ∧ s.pwc.enables.lnc = false ∨ owner = .stb ∧ s.pwc.enables.stb = false ∨
    owner = .aud ∧ s.pwc.enables.aud = false ∨ owner = .vog ∧ s.pwc.enables.vog = false ∨
    owner = .card ∧ ∃ side : Side, num payload 0 1 = side.code ∧ s.pwc.enables.slots.get side = false

theorem State.judgeBlock_off {s : State} {owner : Owner} {payload : List Byte} (h : s.ownerOff owner payload) :
    s.judgeBlock owner payload = some .blockOff := by
  rcases h with ⟨rfl, off⟩ | ⟨rfl, off⟩ | ⟨rfl, off⟩ | ⟨rfl, off⟩ | ⟨rfl, side, code, off⟩
  · exact offUnless_off off
  · exact offUnless_off off
  · exact offUnless_off off
  · exact offUnless_off off
  · have named : sideAt payload 0 = some side := by
      rw [sideAt, code]
      cases side <;> rfl
    rw [State.judgeBlock, named]
    exact offUnless_off off

theorem State.judgeBlock_noSlot {s : State} {payload : List Byte} (above : 2 ≤ num payload 0 1) :
    s.judgeBlock .card payload = some .badValue := by
  have none : sideAt payload 0 = none := by
    obtain ⟨k, code⟩ := Nat.exists_eq_add_of_le' above
    rw [sideAt, code]
    rfl
  rw [State.judgeBlock, none]

/-! ## Waiting and drops (R175) -/

/-- A command whose effect settles a state completes with that state. -/
theorem becomes_settled {c : Instr} {s u : State} {effect : State → State} (works : s.works) (acts : exec c s = s.act effect)
    (h : effect s = u.settle) : Becomes c s u := by
  obtain ⟨t, run, follows⟩ := becomes_act works acts h
  exact ⟨t, run, (Follows.settle u).trans follows⟩

/-- With no place for a reply, or PART_RESET taken, no request is dispatched (R175, R176). -/
theorem State.dispatch_blocked {s : State} (blocked : 16 ≤ s.lnk.places ∨ s.lnk.resetTaken = true) (fuel : Nat) :
    State.dispatch fuel s = s := by
  have shut : (s.lnk.hasPlace && !s.lnk.resetTaken) = false := by
    rcases blocked with full | taken
    · simp [Lnk.hasPlace, Nat.not_lt.mpr full]
    · simp [taken]
  cases fuel with
  | zero => rfl
  | succ fuel =>
    unfold State.dispatch
    split
    · rfl
    · rw [shut]
      rfl

theorem State.offer_waits {s : State} {r : Request} (room : s.lnk.inbound.length < 4)
    (blocked : 16 ≤ s.lnk.places ∨ s.lnk.resetTaken = true) :
    s.offer r = { s with lnk := { s.lnk with inbound := s.lnk.inbound ++ [r] } } := by
  rw [State.offer, if_pos room]
  exact State.dispatch_blocked (s := { s with lnk := { s.lnk with inbound := s.lnk.inbound ++ [r] } }) blocked 4

theorem State.offer_dropped {s : State} {r : Request} (full : 4 ≤ s.lnk.inbound.length) : s.offer r = s.dropFrame .overrun :=
  if_neg (Nat.not_lt.mpr full)

/-- Settles O51: LNK refuses a request before its block sees it, and one that cannot be dispatched waits or is dropped. -/
theorem requestsJudged : Obligations.RequestsJudged := by
  unfold Obligations.RequestsJudged
  refine ⟨fun req tag payload s ready => ?_, fun code tag payload s ready foreign => ?_,
    fun r s works blocked => ⟨fun room => ?_, fun full => ?_⟩⟩
  · intro row answered fits
    exact ⟨fun misfit => answers_judged ready (judgeRequest_badLength misfit),
      fun fit off => answers_judged ready (judgeRequest_blocked fit (State.judgeBlock_off off)),
      fun fit card above => answers_judged ready (judgeRequest_blocked fit (card ▸ State.judgeBlock_noSlot above))⟩
  · have judged : s.judgeRequest ⟨code, tag, payload⟩ = refuse s .unknown := by
      rw [State.judgeRequest, reqOfCode_none foreign]
    have reply : s.lnk.pushReply ⟨code, tag, payload⟩ ⟨.unknown, []⟩ =
        { s.lnk with waiting := s.lnk.waiting ++ [.reply code tag [9]] } := rfl
    have offered := State.offer_ready ready judged ready.2.1
    rw [State.modifyLnk, reply] at offered
    exact becomes_settled (effect := (·.offer ⟨code, tag, payload⟩)) ready.1 rfl offered
  · exact becomes_act works (exec_requestCommand r s) (State.offer_waits room blocked)
  · exact becomes_settled works (exec_requestCommand r s) (State.offer_dropped full)

end Sys2Proof.Machine

namespace Sys2Proof.Machine

/-! # The end of a message, and the arbiter (R175, R177, R191) -/

/-! ## The arbiter -/

/-- The arbiter leaves the requests that wait, and whether PART_RESET was taken (R177). -/
theorem Lnk.requests_transmit (lnk : Lnk) :
    lnk.transmit.inbound = lnk.inbound ∧ lnk.transmit.resetTaken = lnk.resetTaken := by
  have inbound := congrArg Lnk.inbound lnk.unsent_transmit
  have resetTaken := congrArg Lnk.resetTaken lnk.unsent_transmit
  exact ⟨inbound, resetTaken⟩

theorem Lnk.transmit_busy {lnk : Lnk} (busy : lnk.sending.isSome = true) : lnk.transmit = lnk := if_pos busy

theorem Lnk.transmit_empty {lnk : Lnk} (empty : lnk.waiting = []) : lnk.transmit = lnk := by
  rcases lnk.transmit_cases with ⟨-, same⟩ | ⟨-, -, same⟩ | ⟨-, x, waits, -⟩
  · exact same
  · exact same
  · rw [empty] at waits
    cases waits

/-- On an idle line the oldest reply begins (R177). -/
theorem Lnk.transmit_reply {lnk : Lnk} {code tag : Byte} {payload : List Byte} (idle : lnk.sending = none)
    (oldest : lnk.waiting.find? (fun m => !m.isNotice) = some (.reply code tag payload)) :
    lnk.transmit = { lnk with
      waiting := lnk.waiting.erase (.reply code tag payload)
      sending := some { msg := .reply code tag payload, frame := linkFrame 0x02#8 code tag payload } } := by
  rw [Lnk.transmit, if_neg (by simp [idle]), Lnk.oldestReply, oldest]

/-- On an idle line with notice messages alone waiting, the first of them by the keys begins (R177, R179). -/
theorem Lnk.transmit_notice {lnk : Lnk} (idle : lnk.sending = none) (notices : ∀ m ∈ lnk.waiting, m.isNotice = true)
    (waits : lnk.waiting ≠ []) :
    ∃ src, OutMsg.notice src ∈ lnk.waiting ∧
      lnk.transmit = { lnk with
        waiting := lnk.waiting.erase (.notice src), drawn := lnk.drawn + 1
        sending := some
          { msg := .notice src
            frame := linkFrame 0x03#8 (BitVec.ofNat 8 src.number) (Config.freeByte lnk.drawn) (lnk.source src).noticePayload } } ∧
      ∀ base : Serial, (∀ x, OutMsg.notice x ∈ lnk.waiting → lnk.age base x < 2147483648) →
        ∀ x, OutMsg.notice x ∈ lnk.waiting → x ≠ src → lnk.precedes base src x := by
  have noReply : lnk.oldestReply = none := List.find?_eq_none.mpr fun m mem => by simp [notices m mem]
  have held (x : Source) : lnk.waiting.contains (.notice x) = true ↔ OutMsg.notice x ∈ lnk.waiting := List.contains_iff_mem
  obtain ⟨-, mem, ordered⟩ := lnk.inOrder_lists (fun src => lnk.waiting.contains (.notice src))
  have begins : lnk.nextNotice = (lnk.inOrder (allSources.filter fun src => lnk.waiting.contains (.notice src))).head? := rfl
  cases listed : lnk.inOrder (allSources.filter fun src => lnk.waiting.contains (.notice src)) with
  | nil =>
    obtain ⟨m, first⟩ := List.exists_mem_of_ne_nil _ waits
    cases m with
    | reply code tag payload => exact absurd (notices _ first) nofun
    | notice x =>
      rw [listed] at mem
      exact absurd ((mem x).mpr ((held x).mpr first)) List.not_mem_nil
  | cons src rest =>
    rw [listed] at mem ordered begins
    refine ⟨src, (held src).mp ((mem src).mp List.mem_cons_self), ?_, fun base ages x waits' other => ?_⟩
    · rw [Lnk.transmit, if_neg (by simp [idle]), noReply, begins]
      rfl
    · have sorted := List.pairwise_cons.mp (ordered base fun x waits' => ages x ((held x).mp waits'))
      exact sorted.1 x (List.mem_of_ne_of_mem other ((mem x).mpr ((held x).mpr waits')))

/-! ## A notice message's content (R195) -/

theorem serialBytes_eq (x : Serial) :
    serialBytes x = [x.extractLsb' 24 8, x.extractLsb' 16 8, x.extractLsb' 8 8, x.extractLsb' 0 8] := by
  have byte (k : Nat) : BitVec.ofNat 8 (x.toNat / 256 ^ k) = x.extractLsb' (8 * k) 8 := by
    refine BitVec.eq_of_toNat_eq ?_
    rw [BitVec.toNat_ofNat, BitVec.extractLsb'_toNat, Nat.shiftRight_eq_div_pow, pow_mul]
    rfl
  rw [← byte 0, ← byte 1, ← byte 2, ← byte 3]
  rfl

theorem SourceState.noticePayload_eq {st : SourceState} {r : Occurrence} (record : st.record = some r) :
    st.noticePayload = [BitVec.ofNat 8 st.level, BitVec.ofNat 8 st.count, BitVec.ofNat 8 r.detail.length] ++
      serialBytes r.serial ++ r.detail ++ List.replicate (16 - r.detail.length) 0 := by
  simp [SourceState.noticePayload, SourceState.firstSerial, record, u8, beBytes]

/-! ## The end of a message -/

/-- The reply with which PART_RESET was taken (R176, R194). -/
theorem OutMsg.takesReset_iff (m : OutMsg) : m.takesReset = true ↔ ∃ tag, m = .reply 0x7B#8 tag [0] := by
  cases m with
  | notice src => simp [OutMsg.takesReset]
  | reply code tag payload =>
    have reset : Req.partReset.code = 0x7B#8 ∧ u8 Status.ok.code = [0] := ⟨rfl, rfl⟩
    simp [OutMsg.takesReset, reset]

section
variable {s : State} {m : Sending}

theorem State.messageSent_idle (idle : s.lnk.sending = none) : s.messageSent = s := by rw [State.messageSent, idle]

/-- After the reply with which PART_RESET was taken the part is held in a reset (R191). -/
theorem State.messageSent_reset (sends : s.lnk.sending = some m) (taken : s.lnk.resetTaken = true)
    (reply : m.msg.takesReset = true) :
    s.messageSent = ({ s with lnk := { s.lnk with sending := none } } : State).hold .partReset := by
  rw [State.messageSent, sends]
  exact if_pos (by rw [Bool.and_eq_true]; exact ⟨taken, reply⟩)

/-- After any other message the arbiter chooses again, and requests are dispatched as places allow (R175, R177). -/
theorem State.messageSent_goesOn (sends : s.lnk.sending = some m) (other : s.lnk.resetTaken = true → m.msg.takesReset = false) :
    s.messageSent = State.dispatch 4 { s with lnk := ({ s.lnk with sending := none } : Lnk).transmit } := by
  rw [State.messageSent, sends]
  refine if_neg fun both => ?_
  rw [Bool.and_eq_true] at both
  exact absurd ((other both.1).symm.trans both.2) nofun

end

/-- The part while a reset lasts has settled: nothing is pending (R191). -/
theorem State.settle_hold (s : State) (cause : ResetCause) : (s.hold cause).settle = s.hold cause := by
  have followed : (s.hold cause).lnk.follow = (s.hold cause).lnk := Lnk.follow_held _
  rw [State.settle, followed]
  rfl

/-- A message that begins is LNK's own doing (R177). -/
theorem Follows.transmit (u : State) : Follows u { u with lnk := u.lnk.transmit } :=
  ⟨congrArg (fun lnk => { u.bare with lnk := lnk }) u.lnk.unsent_transmit, u.lnk.replies_transmit⟩

/-- A request that is dispatched leaves the queue and is judged, and its reply joins the outbound queue (R175). -/
theorem State.dispatch_serves {s u : State} {r : Request} {rest : List Request} {answer : Answer} (waits : s.lnk.inbound = r :: rest)
    (place : s.lnk.places < 16) (untaken : s.lnk.resetTaken = false)
    (judged : ({ s with lnk := { s.lnk with inbound := rest } } : State).judgeRequest r = (u, answer)) (fuel : Nat) :
    State.dispatch (fuel + 1) s = State.dispatch fuel (u.modifyLnk (fun lnk => lnk.pushReply r answer)).settle := by
  have may : (s.lnk.hasPlace && !s.lnk.resetTaken) = true := by simp [Lnk.hasPlace, place, untaken]
  have served : (s.modifyLnk fun lnk => { lnk with inbound := rest }).serve r =
      (u.modifyLnk (fun lnk => lnk.pushReply r answer)).settle := by
    rw [State.serve, State.modifyLnk, judged]
  rw [State.dispatch, waits]
  exact (if_pos may).trans (congrArg _ served)

/-- The end of a message finds requests waiting as though the last of them arrived now (R175). -/
theorem exec_messageSent_waiting {r : Request} {front : List Request} {m : Sending} {s : State} (works : s.works)
    (sends : s.lnk.sending = some m) (untaken : s.lnk.resetTaken = false) (waits : s.lnk.inbound = front ++ [r])
    (room : front.length ≤ 3) :
    exec .messageSent s =
      exec r.command { s with lnk := { ({ s.lnk with sending := none } : Lnk).transmit with inbound := front } } := by
  obtain ⟨inbound, -⟩ := ({ s.lnk with sending := none } : Lnk).requests_transmit
  generalize begun : ({ s.lnk with sending := none } : Lnk).transmit = lnk at inbound
  let arriving : State := { s with lnk := { lnk with inbound := front } }
  have queued : ({ lnk with inbound := front ++ [r] } : Lnk) = lnk := by rw [← waits, ← inbound]
  have offered : arriving.offer r = s.messageSent := by
    rw [State.messageSent_goesOn sends fun taken => absurd (untaken.symm.trans taken) nofun, begun]
    refine (if_pos (Nat.lt_succ_of_le room)).trans ?_
    exact congrArg (fun lnk => State.dispatch 4 { s with lnk := lnk }) queued
  calc exec .messageSent s
    _ = .next s.messageSent.settle := State.act_works works _
    _ = .next (arriving.offer r).settle := by rw [offered]
    _ = exec r.command arriving := ((exec_requestCommand r arriving).trans (State.act_works (s := arriving) works _)).symm

/-- Settles O54: the line's message ends and the arbiter chooses by its keys, and each dispatch is one request's. -/
theorem messagesSent : Obligations.MessagesSent := by
  unfold Obligations.MessagesSent
  refine ⟨fun r front m s works sends untaken waits room => exec_messageSent_waiting works sends untaken waits room,
    fun k r rest s waits => ⟨fun blocked => State.dispatch_blocked blocked (k + 1),
      fun place untaken u answer judged => State.dispatch_serves waits place untaken judged k⟩,
    fun s works => ⟨fun idle => becomes_act works rfl (State.messageSent_idle idle),
      fun m sends => ⟨fun goesOn => ?_, fun taken reply => ?_⟩⟩,
    fun lnk => ⟨Lnk.transmit_busy, fun idle => ⟨fun code tag payload => Lnk.transmit_reply idle, Lnk.transmit_empty,
      fun notices waits => ?_⟩⟩, fun st r record short => ⟨?_, ?_⟩⟩
  · intro ended
    have dispatched : s.messageSent = { s with lnk := ended.transmit } := by
      rcases goesOn with ⟨untaken, empty⟩ | ⟨taken, other⟩
      · rw [State.messageSent_goesOn sends fun taken => absurd (untaken.symm.trans taken) nofun]
        exact State.dispatch_empty 4 { s with lnk := ended.transmit } (ended.requests_transmit.1.trans empty)
      · rw [State.messageSent_goesOn sends fun _ => by
          rw [Bool.eq_false_iff, ne_eq, OutMsg.takesReset_iff]
          exact fun ⟨tag, reply⟩ => other tag reply]
        exact State.dispatch_blocked (s := { s with lnk := ended.transmit }) (.inr (ended.requests_transmit.2.trans taken)) 4
    refine ⟨s.messageSent.settle, State.act_works works _, ?_, ?_⟩ <;> rw [dispatched]
    · exact (Follows.transmit { s with lnk := ended }).trans (Follows.settle _)
    · exact State.settle_lnk _
  · have reset := State.messageSent_reset sends taken ((OutMsg.takesReset_iff m.msg).mpr reply)
    have run : exec .messageSent s = .next s.messageSent.settle := State.act_works works _
    rw [reset, State.settle_hold] at run
    exact ⟨_, run, rfl, rfl, rfl, rfl, rfl, rfl, rfl⟩
  · obtain ⟨src, held, begins, first⟩ := Lnk.transmit_notice idle notices waits
    exact ⟨src, _, held, begins, first⟩
  · rw [SourceState.noticePayload_eq record, serialBytes_eq]
    rfl
  · rw [SourceState.noticePayload_eq record, serialBytes_eq]
    simp
    omega

end Sys2Proof.Machine

namespace Sys2Proof.Machine

/-! # The notice table's occurrences and requests (R178, R181 to R183) -/

/-! ## An occurrence (R178) -/

/-- Unstated bytes are filled in place, and the stated ones stand (log entry 1). -/
theorem fillDetail_fills : ∀ (detail : List (Option Byte)) (drawn : Nat),
    (fillDetail drawn detail).1.length = detail.length ∧
      ∀ (i : Nat) (b : Byte), detail[i]? = some (some b) → (fillDetail drawn detail).1[i]? = some b
  | [], _ => ⟨rfl, nofun⟩
  | some x :: rest, drawn => by
    obtain ⟨length, stated⟩ := fillDetail_fills rest drawn
    refine ⟨congrArg (· + 1) length, fun i b here => ?_⟩
    cases i with
    | zero => exact Option.some.inj here
    | succ i => exact stated i b here
  | none :: rest, drawn => by
    obtain ⟨length, stated⟩ := fillDetail_fills rest (drawn + 1)
    refine ⟨congrArg (· + 1) length, fun i b here => ?_⟩
    cases i with
    | zero => cases here
    | succ i => exact stated i b here

section
variable {lnk : Lnk} {n : Serial} {src : Source} {detail : List (Option Byte)}

theorem Lnk.occur_disabled (off : (lnk.source src).enabled = false) : lnk.occur n src detail = lnk := by simp [Lnk.occur, off]

theorem Lnk.occur_pending (on : (lnk.source src).enabled = true) (pending : (lnk.source src).pending = true) :
    lnk.occur n src detail = lnk.modifySource src (fun st => { st with count := bump 255 st.count 1 }) := by
  simp [Lnk.occur, on, pending]

theorem Lnk.occur_first (on : (lnk.source src).enabled = true) (clear : (lnk.source src).pending = false) :
    lnk.occur n src detail =
      { lnk.modifySource src (fun st =>
          { st with pending := true, count := 1, sent := false, record := some ⟨(fillDetail lnk.drawn detail).1, n⟩ })
        with drawn := (fillDetail lnk.drawn detail).2 } := by
  simp [Lnk.occur, on, clear]

theorem Lnk.mask_occur : (lnk.occur n src detail).mask = lnk.mask := by
  unfold Lnk.occur
  dsimp only
  split
  · rfl
  · split <;> rfl

/-- An occurrence leaves every other source (R178). -/
theorem Lnk.source_occur_other {other : Source} (ne : other ≠ src) : (lnk.occur n src detail).source other = lnk.source other := by
  rw [Lnk.source, Lnk.occur_table_of_ne lnk n ne detail, Lnk.source]

end

/-! ## A table of twenty sources -/

theorem number_allSources {i : Nat} (lt : i < allSources.length) : allSources[i].number = i := by
  have numbered : ∀ i : Fin 20, allSources[i].number = i := by decide
  exact numbered ⟨i, lt⟩

section
variable {lnk : Lnk} (table : lnk.table.length = 20)
include table

theorem Lnk.getElem?_table (src : Source) : lnk.table[src.number]? = some (lnk.source src) := by
  have listed : src.number < lnk.table.length := table ▸ src.number_lt
  rw [Lnk.source, List.getElem?_eq_getElem listed, Option.getD_some]

/-- A change of one source replaces its entry in the table. -/
theorem Lnk.modifySource_eq_set (src : Source) (f : SourceState → SourceState) :
    lnk.modifySource src f = { lnk with table := lnk.table.set src.number (f (lnk.source src)) } := by
  have listed := Lnk.getElem?_table table src
  have same : modifyAt f src.number lnk.table = lnk.table.set src.number (f (lnk.source src)) := by
    refine List.ext_getElem? fun i => ?_
    rw [getElem?_modifyAt, List.getElem?_set]
    by_cases here : i = src.number
    · subst here
      rw [if_pos rfl, listed, Option.map_some, if_pos rfl, if_pos (table ▸ src.number_lt)]
    · rw [if_neg here, if_neg (Ne.symm here)]
  rw [Lnk.modifySource, same]

theorem Lnk.table_eq_sources : lnk.table = allSources.map lnk.source := by
  refine List.ext_getElem (table.trans rfl) fun i lt listed => ?_
  rw [List.length_map] at listed
  have held := Lnk.getElem?_table table allSources[i]
  rw [number_allSources, List.getElem?_eq_getElem lt] at held
  rw [List.getElem_map]
  exact Option.some.inj held

end

/-- What a table holds by numbers is what it holds by sources. -/
theorem mapIdx_sources {α β : Type} (f : Source → α) (g : Nat → α → β) :
    (allSources.map f).mapIdx g = allSources.map (fun src => g src.number (f src)) := by
  refine List.ext_getElem (by simp) fun i _ listed => ?_
  rw [List.length_map] at listed
  simp [number_allSources listed]

/-! ## NOTICE_CONFIG (R181) -/

theorem routes_packed (host vf tally : Bool) :
    packFlags [host, vf, tally] ≤ 7 ∧ routesOf (packFlags [host, vf, tally]) = { host := host, vf := vf, tally := tally } := by
  cases host <;> cases vf <;> cases tally <;> decide

theorem getElem?_allSources (src : Source) : allSources[src.number]? = some src := by cases src <;> rfl

section
variable {source on level routes : Nat} (sourceFits : source ≤ 255) (onFits : on ≤ 255) (levelFits : level ≤ 255)
  (routesFits : routes ≤ 255)
include sourceFits onFits levelFits routesFits

theorem num_noticeConfig :
    let p := u8 source ++ u8 on ++ u8 level ++ u8 routes
    num p 0 1 = source ∧ num p 1 1 = on ∧ num p 2 1 = level ∧ num p 3 1 = routes :=
  ⟨num_u8 sourceFits [] (u8 on ++ u8 level ++ u8 routes), num_u8 onFits (u8 source) (u8 level ++ u8 routes),
    num_u8 levelFits (u8 source ++ u8 on) (u8 routes), num_u8 routesFits (u8 source ++ u8 on ++ u8 level) []⟩

theorem reqNoticeConfig_bad (bad : 19 < source ∨ 1 < on ∨ 3 < level ∨ 7 < routes) (s : State) :
    reqNoticeConfig (u8 source ++ u8 on ++ u8 level ++ u8 routes) s = refuse s .badValue := by
  obtain ⟨sourceAt, onAt, levelAt, routesAt⟩ := num_noticeConfig sourceFits onFits levelFits routesFits
  unfold reqNoticeConfig
  split
  · next named readOn readLevel readRoutes =>
    rw [sourceAt] at named
    obtain ⟨known, -⟩ := List.getElem?_eq_some_iff.mp named
    have known : source < 20 := known
    have := flagAt_within onAt readOn
    have := rangeAt_within levelAt readLevel
    have := rangeAt_within routesAt readRoutes
    omega
  · rfl

end

theorem reqNoticeConfig_eq {s : State} (table : s.lnk.table.length = 20) (src : Source) (on host vf tally : Bool) {level : Nat}
    (most : level ≤ 3) :
    reqNoticeConfig (u8 src.number ++ flagByte on ++ u8 level ++ u8 (packFlags [host, vf, tally])) s =
      answerOk
        { s with lnk := { s.lnk with table := s.lnk.table.set src.number { s.lnk.source src with
          enabled := on, level := level, routes := { host := host, vf := vf, tally := tally } } } }
        (flagByte on ++ u8 level ++ u8 (packFlags [host, vf, tally]) ++ flagByte (s.lnk.source src).pending) := by
  obtain ⟨routesMost, routesAre⟩ := routes_packed host vf tally
  have flagFits : (if on then 1 else 0) ≤ 255 := by cases on <;> decide
  obtain ⟨sourceAt, onAt, levelAt, routesAt⟩ := num_noticeConfig (src.number_lt.le.trans (by decide)) flagFits
    (most.trans (by decide)) (routesMost.trans (by decide))
  have kept := Lnk.source_modifySource table src (fun st => { st with enabled := on, level := level, routes := ⟨host, vf, tally⟩ }) src
  rw [reqNoticeConfig, flagByte, sourceAt, getElem?_allSources, flagAt_of_num onAt, rangeAt_of_num levelAt (Nat.zero_le _) most,
    rangeAt_of_num routesAt (Nat.zero_le _) routesMost]
  dsimp only
  rw [routesAre, State.modifyLnk_lnk, kept, if_pos rfl, State.modifyLnk, Lnk.modifySource_eq_set table]
  rfl

/-! ## NOTICE_MASK (R182) -/

theorem reqNoticeMask_eq {m : Nat} (most : m ≤ 3) (s : State) :
    reqNoticeMask (u8 m) s = answerOk { s with lnk := { s.lnk with mask := m } }
      (u8 m ++ u8 (allSources.filter (fun src => (s.lnk.source src).pending && (s.lnk.source src).enabled &&
        (s.lnk.source src).routes.host && decide (m < (s.lnk.source src).level))).length) := by
  rw [reqNoticeMask, rangeAt_of_num (num_u8_zero (most.trans (by decide))) (Nat.zero_le _) most]
  rfl

theorem reqNoticeMask_bad {m : Nat} (above : 3 < m) (fits : m ≤ 255) (s : State) : reqNoticeMask (u8 m) s = refuse s .badValue := by
  rw [reqNoticeMask, rangeAt_none (num_u8_zero fits) (by omega)]

/-! ## NOTICE_CLEAR (R183) -/

theorem num_u32_zero {x : Nat} (fits : x < 4294967296) : num (u32 x) 0 4 = x := by
  have read := num_field [] [] 4 x (by omega)
  rwa [List.append_nil] at read

theorem SourceState.clear_clear (st : SourceState) : st.clear.clear = st.clear := by
  cases pending : st.pending <;> simp [SourceState.clear, pending]

/-- Clearing sources changes the table alone, and there those sources. -/
theorem Lnk.clearAll_clears : ∀ (srcs : List Source) (lnk : Lnk), lnk.table.length = 20 →
    lnk.clearAll srcs = { lnk with table := (lnk.clearAll srcs).table } ∧ (lnk.clearAll srcs).table.length = 20 ∧
      ∀ x, (lnk.clearAll srcs).source x = if x ∈ srcs then (lnk.source x).clear else lnk.source x
  | [], lnk, table => ⟨rfl, table, fun x => (if_neg List.not_mem_nil).symm⟩
  | src :: srcs, lnk, table => by
    obtain ⟨rest, length, source⟩ := Lnk.clearAll_clears srcs (lnk.modifySource src SourceState.clear)
      ((lnk.table_modifySource src _).trans table)
    refine ⟨rest, length, fun x => (source x).trans ?_⟩
    rw [Lnk.source_modifySource table]
    by_cases here : x = src
    · subst here
      simp [SourceState.clear_clear]
    · simp [here]

/-- The sources of a number's bits that are pending, which NOTICE_CLEAR clears (R183). -/
def Lnk.clearable (lnk : Lnk) (set : Nat) : List Source :=
  (allSources.filter (fun src => inSet set src.number)).filter (fun src => (lnk.source src).pending)

theorem Lnk.mem_clearable {lnk : Lnk} {set : Nat} {src : Source} :
    src ∈ lnk.clearable set ↔ (set.testBit src.number && (lnk.source src).pending) = true := by
  simp [Lnk.clearable, mem_allSources, inSet, and_comm]

theorem Lnk.clearAll_clearable {lnk : Lnk} (table : lnk.table.length = 20) (set : Nat) :
    lnk.clearAll (lnk.clearable set) = { lnk with table := lnk.table.mapIdx (fun i st =>
      if set.testBit i && st.pending then { st with pending := false, count := 0, record := none, sent := false } else st) } := by
  obtain ⟨only, length, source⟩ := Lnk.clearAll_clears (lnk.clearable set) lnk table
  rw [only, Lnk.table_eq_sources length, Lnk.table_eq_sources table, mapIdx_sources]
  refine congrArg (fun table => { lnk with table := table }) (List.map_congr_left fun src _ => ?_)
  rw [source]
  refine (if_congr Lnk.mem_clearable rfl rfl).trans ?_
  split
  · next cleared =>
    rw [Bool.and_eq_true] at cleared
    exact if_pos cleared.2
  · rfl

theorem Lnk.sourceSet_clearable {lnk : Lnk} (table : lnk.table.length = 20) (set : Nat) :
    sourceSet (lnk.clearable set) =
      (lnk.table.mapIdx (fun i st => if set.testBit i && st.pending then 2 ^ i else 0)).sum := by
  have split := List.sum_map_ite (fun src : Source => (set.testBit src.number && (lnk.source src).pending) = true)
    (fun src => 2 ^ src.number) (fun _ => 0) allSources
  have same : lnk.clearable set = allSources.filter (fun src => set.testBit src.number && (lnk.source src).pending) := by
    rw [Lnk.clearable, List.filter_filter]
    exact List.filter_congr fun src _ => Bool.and_comm _ _
  rw [Lnk.table_eq_sources table, mapIdx_sources, split, same, sourceSet]
  simp

theorem reqNoticeClear_eq {set : Nat} (most : set < 1048576) (s : State) :
    reqNoticeClear (u32 set) s =
      answerOk (s.modifyLnk (fun lnk => lnk.clearAll (s.lnk.clearable set))) (u32 (sourceSet (s.lnk.clearable set))) := by
  rw [reqNoticeClear, num_u32_zero (by omega)]
  exact if_neg (by omega)

theorem reqNoticeClear_bad {set : Nat} (fits : set < 4294967296) (above : ∃ i, 19 < i ∧ set.testBit i = true) (s : State) :
    reqNoticeClear (u32 set) s = refuse s .badValue := by
  obtain ⟨i, high, bit⟩ := above
  have large : 2 ^ 20 ≤ set := by
    by_contra small
    have bound : set < 2 ^ i := (not_le.mp small).trans_le (Nat.pow_le_pow_right (by decide) high)
    exact absurd ((Nat.testBit_lt_two_pow bound).symm.trans bit) nofun
  rw [reqNoticeClear, num_u32_zero fits]
  exact if_pos large

/-! ## The obligation -/

/-- Settles O55: an occurrence is a case of its source's state, and each request is read by its fields. -/
theorem noticeRequestsTaken : Obligations.NoticeRequestsTaken := by
  unfold Obligations.NoticeRequestsTaken
  refine ⟨fun lnk n src detail table => ?_, fun tag s ready table => ⟨fun src on host vf tally level most => ?_, fun m most => ?_,
    fun set most => ?_⟩, fun tag s ready => ⟨fun source on level routes sourceFits onFits levelFits routesFits bad => ?_,
    fun m above fits => ?_, fun set fits above => ?_⟩⟩
  · obtain ⟨-, waiting, sending, -, -⟩ := lnk.occur_keeps n src detail
    refine ⟨Lnk.occur_disabled, fun on pending => ?_, fun on clear => ?_, fun other ne => Lnk.source_occur_other ne, waiting, sending,
      Lnk.mask_occur⟩
    · rw [Lnk.occur_pending on pending, Lnk.source_modifySource table, if_pos rfl]
      rfl
    · obtain ⟨length, stated⟩ := fillDetail_fills detail lnk.drawn
      have taken := Lnk.source_modifySource table src (fun st => { st with
        pending := true, count := 1, sent := false, record := some ⟨(fillDetail lnk.drawn detail).1, n⟩ }) src
      rw [if_pos rfl] at taken
      refine ⟨(fillDetail lnk.drawn detail).1, ?_, length, stated⟩
      rw [Lnk.occur_first on clear]
      exact taken
  · exact answers_ok ready rfl ⟨le_rfl, le_rfl⟩ rfl (reqNoticeConfig_eq table src on host vf tally most) rfl
  · exact answers_ok ready rfl ⟨le_rfl, le_rfl⟩ rfl (reqNoticeMask_eq most s) rfl
  · have taken := reqNoticeClear_eq most s
    rw [State.modifyLnk, Lnk.clearAll_clearable table, Lnk.sourceSet_clearable table] at taken
    exact answers_ok ready rfl ⟨le_rfl, le_rfl⟩ rfl taken rfl
  · exact answers_refused ready rfl ⟨le_rfl, le_rfl⟩ rfl (reqNoticeConfig_bad sourceFits onFits levelFits routesFits bad s)
  · exact answers_refused ready rfl ⟨le_rfl, le_rfl⟩ rfl (reqNoticeMask_bad above fits s)
  · exact answers_refused ready rfl ⟨le_rfl, le_rfl⟩ rfl (reqNoticeClear_bad fits above s)

end Sys2Proof.Machine

namespace Sys2Proof.Machine

/-! # No block begins a reset or touches the receiver (R173, R190, R191)

`State.Steady r s` says that the reset in progress, if any, and the receiver's kept bytes in `s` are those of `r`, of which
operations have made `s`. One lemma per operation carries it on, in the order of the model's definitions; what an operation
changes besides is no part of the relation, so `h` itself serves for the state before and after such a change. -/

/-- `s` has the reset in progress and the kept bytes of `r`. -/
def State.Steady (r s : State) : Prop := s.pwc.resetting = r.pwc.resetting ∧ s.lnk.kept = r.lnk.kept

namespace State.Steady

variable {r s t : State}

theorem refl (s : State) : Steady s s := ⟨rfl, rfl⟩

/-- An operation that leaves PWC and LNK alone. -/
theorem of_records (h : Steady r s) (pwc : t.pwc = s.pwc) (lnk : t.lnk = s.lnk) : Steady r t := by
  rw [Steady, pwc, lnk]
  exact h

/-- What the card writers do leaves PWC and the receiver alone. -/
theorem cardsOnly (h : Steady r s) (c : CardsOnly s t) : Steady r t :=
  ⟨(congrArg Pwc.resetting c.pwc).trans h.1, c.kept.trans h.2⟩

theorem setFtb {ftb : Ftb} (h : Steady r s) : Steady r { s with ftb := ftb } := h

theorem ite {c : Prop} [Decidable c] (h : Steady r s) (k : Steady r t) : Steady r (if c then s else t) := by
  split
  · exact h
  · exact k

theorem iteFst {c : Prop} [Decidable c] {x y : State × Answer} (h : Steady r x.1) (k : Steady r y.1) :
    Steady r (if c then x else y).1 := by
  split
  · exact h
  · exact k

theorem foldl {α : Type} {f : State → α → State} {xs : List α} (step : ∀ {s : State} {x : α}, Steady r s → Steady r (f s x))
    (h : Steady r s) : Steady r (xs.foldl f s) := by
  induction xs generalizing s with
  | nil => exact h
  | cons x xs ih => exact ih (step h)

theorem notify {src : Source} {detail : List (Option Byte)} (h : Steady r s) : Steady r (s.notify src detail) :=
  h.cardsOnly (.notify s src detail)

theorem report {src : Source} {detail : List Byte} (h : Steady r s) : Steady r (s.report src detail) := .notify h

/-! ### The Buffer Manager -/

theorem abandon {e : Entry} {reason : AbandonReason} (h : Steady r s) : Steady r (s.abandon e reason) := by
  unfold State.abandon
  exact .ite (.report h) h

theorem placeUnit {u : RecUnit} (h : Steady r s) : Steady r (s.placeUnit u) := by
  unfold State.placeUnit
  split <;> exact h

theorem join {e : Entry} {picture : PictureData} (h : Steady r s) : Steady r (s.join e picture) := by
  unfold State.join
  split
  · exact .placeUnit h
  · split
    · exact .placeUnit h
    · exact .abandon h

theorem checkComplete {serial : Serial} (h : Steady r s) : Steady r (s.checkComplete serial) := by
  unfold State.checkComplete
  split
  · exact h
  · split
    · exact .ite (.join h) h
    · exact h
    · exact h

/-! ### The card writers -/

theorem reportFull {side : Side} (h : Steady r s) : Steady r (s.reportFull side) := h.cardsOnly (.reportFull s side)

theorem judgeNearFull {side : Side} (h : Steady r s) : Steady r (s.judgeNearFull side) := h.cardsOnly (.judgeNearFull s side)

theorem runWriter {side : Side} (h : Steady r s) : Steady r (s.runWriter side) := h.cardsOnly (.runWriter s side)

theorem nameLast {side : Side} {last : LastUnit} (h : Steady r s) : Steady r (s.nameLast side last) :=
  h.cardsOnly (.nameLast s side last)

theorem takeUnit {side : Side} {u : RecUnit} (h : Steady r s) : Steady r (s.takeUnit side u) :=
  h.cardsOnly (.takeUnit s side u)

theorem mountEnds {side : Side} {state : SlotState} {recovered : Nat} (h : Steady r s) :
    Steady r (s.mountEnds side state recovered) := by
  unfold State.mountEnds
  exact .judgeNearFull (.ite (.reportFull (.report h)) (.report h))

theorem recoverNext {side : Side} (h : Steady r s) : Steady r (s.recoverNext side) := by
  unfold State.recoverNext
  dsimp only
  split
  · exact h
  · split
    · exact h
    · exact .mountEnds h

theorem mountRead {side : Side} {header : CardHeader} {entries : List CatEntry} (h : Steady r s) :
    Steady r (s.mountRead side header entries) := by
  unfold State.mountRead
  exact .ite (.recoverNext h) (.mountEnds h)

theorem rebuild {side : Side} {x : Recovery} (h : Steady r s) : Steady r (s.rebuild side x) := by
  unfold State.rebuild
  exact .runWriter h

theorem indexRead {side : Side} {extent : Nat} {bytes : List Byte} (h : Steady r s) :
    Steady r (s.indexRead side extent bytes) := by
  unfold State.indexRead
  dsimp only
  split
  · split
    · exact .ite (.ite h (.rebuild h)) (.rebuild h)
    · exact .rebuild h
  · exact h

theorem mountUnformatted {side : Side} (h : Steady r s) : Steady r (s.mountUnformatted side) := by
  unfold State.mountUnformatted
  exact .mountEnds h

theorem cardRead {side : Side} {read : CardRead} {size : Nat} {bytes : List Byte} (h : Steady r s) :
    Steady r (s.cardRead side read size bytes) := by
  unfold State.cardRead
  split
  · exact h
  · split
    · exact .mountUnformatted h
    · exact .ite (.mountUnformatted h) h
  · split
    · exact .mountUnformatted h
    · split
      · exact .mountUnformatted h
      · exact .ite (.mountUnformatted h) (.ite h (.mountRead h))
  · exact .indexRead h

/-! ### The Recorder -/

theorem reportRec {reason : RecReason} {status slot : Nat} (h : Steady r s) : Steady r (s.reportRec reason status slot) :=
  .notify h

theorem openFor {side : Side} {flags : CopyFlags} {continues : Option CopyRef} (h : Steady r s) :
    Steady r (s.openFor side flags continues) :=
  show Steady r (s.openCopy side flags continues).1 from h.cardsOnly (.openCopy s side flags continues)

theorem openCopies (h : Steady r s) : Steady r s.openCopies := by
  unfold State.openCopies
  dsimp only
  split
  · exact .openFor h
  · exact .openFor h
  · exact .openFor (.openFor h)

theorem chooseHead {floor : Serial} (h : Steady r s) : Steady r (s.chooseHead floor) := by
  unfold State.chooseHead
  split
  · exact h
  · split <;> exact h

theorem takeStart {serial : Serial} (h : Steady r s) : Steady r (s.takeStart serial) := by
  have opened : Steady r (s.beginClip .normal .recording (some serial)).openCopies := .openCopies h
  unfold State.takeStart
  exact .reportRec (.setFtb (.ite (.chooseHead opened) opened))

theorem start {source : StartSource} {serial : Serial} (h : Steady r s) : Steady r (s.start source serial).1 := by
  unfold State.start
  dsimp only
  split
  · exact h
  · split
    · exact h
    · exact h
    · exact h
    · split
      · exact h
      · exact (takeStart h :)

theorem startReported {source : StartSource} {serial : Serial} (h : Steady r s) : Steady r (s.startReported source serial) := by
  rw [State.startReported_eq]
  exact .ite (.start h) (.reportRec (.start h))

theorem endClip {reason : EndReason} (h : Steady r s) : Steady r (s.endClip reason) := by
  unfold State.endClip
  extract_lets count _ _ standing told
  have reported : Steady r told := reportRec (s := standing) h
  exact .ite (.startReported reported) reported

theorem closeCopy {side : Side} {last : LastUnit} (h : Steady r s) : Steady r (s.closeCopy side last) := by
  unfold State.closeCopy
  exact .nameLast h

theorem tellLast {side : Side} (h : Steady r s) : Steady r (s.tellLast side) := by
  unfold State.tellLast
  split
  · exact h
  · exact .ite (.closeCopy h) h

theorem watchClip (h : Steady r s) : Steady r s.watchClip := by
  have told : Steady r ((s.tellLast .a).tellLast .b) := .tellLast (.tellLast h)
  unfold State.watchClip
  split
  · split
    · exact h
    · dsimp only
      split
      · exact .ite (.endClip told) told
      · exact told
  · exact .ite (.endClip h) h
  · exact h

theorem review (h : Steady r s) : Steady r s.review := by
  unfold State.review
  exact .watchClip h

theorem stop {serial : Serial} (h : Steady r s) : Steady r (s.stop serial) := by
  unfold State.stop
  split
  · exact .watchClip (.reportRec h)
  · exact h
  · exact h
  · exact h

theorem relaySwitch {side : Side} {u : Serial} (h : Steady r s) : Steady r (s.relaySwitch side u) := by
  unfold State.relaySwitch
  split
  · exact h
  · extract_lets left closed opened moved counted
    have kept : Steady r opened := openFor (closeCopy h : Steady r closed)
    exact report (s := counted) kept

theorem renameLast {side : Side} {u : Serial} (h : Steady r s) : Steady r (s.renameLast side u) := by
  unfold State.renameLast
  split
  · exact .ite (.nameLast h) h
  · exact h

theorem cardFullEnd {side : Side} {u : Serial} (h : Steady r s) : Steady r (s.cardFullEnd side u) := by
  unfold State.cardFullEnd
  split
  · exact h
  · extract_lets before closed fixed renamed _ closing
    have fixed : Steady r fixed := (closeCopy h : Steady r closed)
    have renamed : Steady r renamed := .renameLast fixed
    exact reportRec (s := closing) (.ite renamed renamed)

theorem dropMirror {side : Side} {u : Serial} (h : Steady r s) : Steady r (s.dropMirror side u) := by
  have closed : Steady r (s.closeCopy side (s.slot side).lastBefore) := .closeCopy h
  unfold State.dropMirror
  exact .reportRec closed

theorem endOfCard {side : Side} {u : Serial} (h : Steady r s) : Steady r (s.endOfCard side u) := by
  unfold State.endOfCard
  split
  · exact h
  · refine .review (.ite (.cardFullEnd h) ?_)
    split
    · exact .cardFullEnd h
    · exact .ite (.relaySwitch h) (.cardFullEnd h)
    · exact .ite (.dropMirror h) (.cardFullEnd h)

theorem slotLost {side : Side} (h : Steady r s) : Steady r (s.slotLost side) := by
  unfold State.slotLost
  split
  · exact h
  · split
    · exact h
    · extract_lets lost loose
      have loosed : Steady r loose := h
      split
      · exact .review (.reportRec loosed)
      · exact .review (.reportRec (.ite loosed loosed))
      · exact .endClip loosed

/-! ### Audio -/

theorem takeHandOver {n : Serial} {side : Side} {x : HandOver} (h : Steady r s) : Steady r (s.takeHandOver n side x) := by
  unfold State.takeHandOver
  split
  · exact h
  · split
    · exact h
    · split
      · exact .checkComplete h
      · dsimp only
        split
        · exact .checkComplete h
        · exact .abandon h

theorem reportSlip {n : Serial} {side : Side} {x : HandOver} (h : Steady r s) : Steady r (s.reportSlip n side x) := by
  unfold State.reportSlip
  split
  · exact h
  · exact .ite (.report h) h

theorem pairFrame {n : Serial} {side : Side} (h : Steady r s) : Steady r (s.pairFrame n side) := by
  unfold State.pairFrame
  exact .takeHandOver (.reportSlip h)

theorem audFrame {f : FrameStart} (h : Steady r s) : Steady r (s.audFrame f) := by
  unfold State.audFrame
  exact .ite (.review (.pairFrame (.pairFrame h))) h

theorem audStep (h : Steady r s) : Steady r s.audStep := by
  unfold State.audStep
  split
  · exact h
  · exact .audFrame h

theorem handOverOff (h : Steady r s) : Steady r s.handOverOff := by
  unfold State.handOverOff
  exact .review (.takeHandOver (.takeHandOver h))

theorem reportOver {pair : Side} {w : Which} {first : Bool} (h : Steady r s) : Steady r (s.reportOver pair w first) := by
  unfold State.reportOver
  exact .ite (.report h) h

theorem sampleFrame {pair : Side} {x y : Int} (h : Steady r s) : Steady r (s.sampleFrame pair x y) := by
  unfold State.sampleFrame
  exact .ite h (.reportOver (.reportOver h))

/-! ### Frame timing -/

theorem deliver {action : TriggerAction} {serial : Serial} (h : Steady r s) : Steady r (s.deliver action serial).1 := by
  unfold State.deliver
  split
  · exact .start h
  · exact .stop h
  · exact h

theorem tryTrigger {e : HistoryEntry} (h : Steady r s) : Steady r (s.tryTrigger e) := by
  unfold State.tryTrigger
  split
  · exact h
  · exact .ite (.report (.deliver (.setFtb h))) h

theorem frameStart {substituted : Bool} (h : Steady r s) : Steady r (s.frameStart substituted) := by
  unfold State.frameStart
  extract_lets begun start tried
  have fired : Steady r tried := .tryTrigger (.of_records h rfl rfl)
  exact .ite fired fired

theorem edge (h : Steady r s) : Steady r s.edge := by
  unfold State.edge
  split
  · exact (frameStart h :)
  · exact .ite h (.frameStart h)
  · exact .ite h (frameStart h :)
  · exact h

theorem timerFires (h : Steady r s) : Steady r s.timerFires := by
  have started : Steady r (s.frameStart true) := .frameStart h
  have lost : Steady r s.frameLoss := by
    unfold State.frameLoss
    exact .report started
  unfold State.timerFires
  split
  · exact lost
  · exact lost
  · exact started
  · exact started

theorem fireIfDue (h : Steady r s) : Steady r s.fireIfDue := by
  unfold State.fireIfDue
  exact .ite (.timerFires h) h

/-! ### Lens control -/

theorem endMove {axis : Axis} {status : MoveStatus} (h : Steady r s) : Steady r (s.endMove axis status) := by
  unfold State.endMove
  split
  · exact h
  · exact .notify h

theorem endMoves {status : MoveStatus} (h : Steady r s) : Steady r (s.endMoves status) := by
  unfold State.endMoves
  exact .endMove (.endMove (.endMove h))

theorem lensLost (h : Steady r s) : Steady r s.lensLost := by
  unfold State.lensLost
  exact endMoves (.report h)

theorem missReport (h : Steady r s) : Steady r s.missReport := by
  unfold State.missReport
  exact .ite (.lensLost h) h

theorem windowExpires (h : Steady r s) : Steady r s.windowExpires := by
  unfold State.windowExpires
  exact .ite (.missReport h) h

theorem judgeOverride {replaced : LensReport} {axis : Axis} (h : Steady r s) : Steady r (s.judgeOverride replaced axis) := by
  unfold State.judgeOverride
  split
  · exact report (endMove h :)
  · exact h
  · exact h
  · exact h

theorem judgeArrival {axis : Axis} (h : Steady r s) : Steady r (s.judgeArrival axis) := by
  unfold State.judgeArrival
  split
  · exact h
  · exact .ite (endMove h :) h

theorem goodReport {w : ReportWindow} {x : LensReport} (h : Steady r s) : Steady r (s.goodReport w x) := by
  unfold State.goodReport
  exact .judgeArrival (.judgeArrival (.judgeArrival (.judgeOverride (.judgeOverride (.judgeOverride h)))))

theorem lensReport {bytes : List Byte} (h : Steady r s) : Steady r (s.lensReport bytes) := by
  unfold State.lensReport
  split
  · exact h
  · split
    · exact .goodReport h
    · exact .missReport h

theorem driveFrame {d : Drive} (h : Steady r s) : Steady r (s.driveFrame d) := by
  unfold State.driveFrame
  dsimp only
  split
  · exact h
  · split
    · exact h
    · exact h
    · exact .ite (.endMove h) h

theorem irisFrame {n : Serial} (h : Steady r s) : Steady r (s.irisFrame n) := by
  unfold State.irisFrame
  split
  · exact h
  · split
    · exact h
    · split
      · exact h
      · exact .ite (.endMove h) h

theorem lncFrame {f : FrameStart} (h : Steady r s) : Steady r (s.lncFrame f) := by
  unfold State.lncFrame
  exact .ite (irisFrame (.driveFrame (.driveFrame (.windowExpires h))) :) h

theorem lncStep (h : Steady r s) : Steady r s.lncStep := by
  unfold State.lncStep
  split
  · exact h
  · exact .lncFrame h

theorem moveDrive {d : Drive} {target duration : Nat} {origin : Origin} (h : Steady r s) :
    Steady r (s.moveDrive d target duration origin) := by
  unfold State.moveDrive
  exact (endMove h :)

theorem stopDrive {d : Drive} (h : Steady r s) : Steady r (s.stopDrive d) := by
  unfold State.stopDrive
  exact .ite h (endMove h :)

theorem moveIris {target duration : Nat} {origin : Origin} (h : Steady r s) : Steady r (s.moveIris target duration origin) := by
  unfold State.moveIris
  exact (endMove h :)

/-! ### Image stabilisation -/

theorem badSample {status : Option Byte} (h : Steady r s) : Steady r (s.badSample status) := by
  unfold State.badSample
  exact .ite (.notify h) h

theorem gyroDue (h : Steady r s) : Steady r s.gyroDue := by
  have sampled : Steady r (if s.stb.reading then s.badSample none else s) := .ite (.badSample h) h
  unfold State.gyroDue
  exact .ite sampled h

theorem gyroAnswered {yaw pitch : Int} {status : Byte} (h : Steady r s) : Steady r (s.gyroAnswered yaw pitch status) := by
  unfold State.gyroAnswered
  exact .ite (.ite h (.badSample h)) h

theorem tileSet {x : TileSet} (h : Steady r s) : Steady r (s.tileSet x) := by
  unfold State.tileSet State.noteMean
  exact .ite h (.ite (.ite h h) h)

theorem reportEdge {before after : StabAxis} {leak : Int} {axis : Nat} {serial : Serial} (h : Steady r s) :
    Steady r (s.reportEdge before after leak axis serial) := by
  unfold State.reportEdge
  exact .ite (.report h) h

theorem moveCrop {leak : Int} {serial : Serial} (h : Steady r s) : Steady r (s.moveCrop leak serial) := by
  unfold State.moveCrop
  exact .reportEdge (.reportEdge h)

theorem stabMoves {serial : Serial} (h : Steady r s) : Steady r (s.stabMoves serial) := by
  unfold State.stabMoves
  split
  · exact h
  · exact h
  · exact h
  · exact (moveCrop h :)
  · exact (moveCrop h :)

theorem stbFrame {f : FrameStart} (h : Steady r s) : Steady r (s.stbFrame f) := by
  unfold State.stbFrame
  split
  · exact h
  · split
    · exact h
    · extract_lets lens moved
      have kept : Steady r moved := .stabMoves h
      exact kept

theorem stbStep (h : Steady r s) : Steady r s.stbStep := by
  unfold State.stbStep
  split
  · exact h
  · exact .stbFrame h

/-! ### The buffer memory -/

theorem ageOldest (h : Steady r s) : Steady r s.ageOldest := by
  unfold State.ageOldest
  split
  · exact h
  · exact .ite (.abandon h) h

theorem bfmFrame {f : FrameStart} (h : Steady r s) : Steady r (s.bfmFrame f) := by
  have aged : Steady r (s.modifyBfm (fun b => { b with taken := f.serial })).ageOldest := .ageOldest h
  unfold State.bfmFrame
  exact .ite (.review aged) h

theorem bfmStep (h : Steady r s) : Steady r s.bfmStep := by
  unfold State.bfmStep
  split
  · exact h
  · exact .bfmFrame h

theorem beginPicture {e : Entry} {length : Nat} {key : Bool} (h : Steady r s) : Steady r (s.beginPicture e length key) := by
  unfold State.beginPicture
  split
  · exact (abandon h :)
  · dsimp only
    split
    · exact abandon (s := { s with bfm := (s.bfm.allocate (pagesOf length)).2 }) h
    · exact h

theorem essenceHeader {serial : Serial} {length : Nat} {key : Bool} (h : Steady r s) :
    Steady r (s.essenceHeader serial length key) := by
  unfold State.essenceHeader
  split
  · exact h
  · exact h
  · dsimp only
    split
    · exact h
    · split
      · exact h
      · exact .ite h (.review (.beginPicture (.foldl .abandon h)))

theorem fillPicture {serial : Serial} {placed remaining : Nat} {bytes : List Byte} (h : Steady r s) :
    Steady r (s.fillPicture serial placed remaining bytes) := by
  unfold State.fillPicture
  extract_lets data filled
  have kept : Steady r filled := h
  exact .ite kept (.review (.checkComplete kept))

theorem essenceData {bytes : List Byte} (h : Steady r s) : Steady r (s.essenceData bytes) := by
  unfold State.essenceData
  split
  · exact h
  · exact .fillPicture h
  · exact h

theorem takeRetain {w : Nat} {window : HoldWindow} {head : Serial} (h : Steady r s) : Steady r (s.takeRetain w window head) := by
  unfold State.takeRetain
  extract_lets primary opened b kept retained clipped reported
  have opened : Steady r opened := .openFor h
  exact closeCopy (s := reported) (reportRec (s := clipped) opened)

/-! ### The card writers' commands -/

theorem formatEnds {side : Side} (h : Steady r s) : Steady r (s.formatEnds side) := by
  unfold State.formatEnds
  exact .judgeNearFull (.report h)

theorem completed {side : Side} {kind : CardCmdKind} (h : Steady r s) : Steady r (s.completed side kind) := by
  unfold State.completed
  split
  · exact .foldl (fun k => k) h
  · exact h
  · exact h
  · exact .recoverNext h
  · exact .formatEnds h
  · exact h
  · exact h
  · exact h
  · exact h

theorem cardFails {side : Side} {kind : Nat} {sector : Option Nat} {cause : FailCause} (h : Steady r s) :
    Steady r (s.cardFails side kind sector cause) := by
  unfold State.cardFails
  exact .notify (.slotLost h)

theorem commandAnswered {side : Side} {status : CardStatus} (h : Steady r s) : Steady r (s.commandAnswered side status) := by
  unfold State.commandAnswered
  split
  · exact h
  · exact .cardFails h
  · exact .review (.runWriter (.completed h))

theorem readAnswered {side : Side} {answer : ReadAnswer} (h : Steady r s) : Steady r (s.readAnswered side answer) := by
  unfold State.readAnswered
  split
  · exact h
  · exact .cardFails h
  · exact .cardRead h

theorem cardTimesOut {side : Side} (h : Steady r s) : Steady r (s.cardTimesOut side) := by
  unfold State.cardTimesOut
  split
  · exact .cardFails h
  · exact .cardFails h
  · exact h

theorem takeNext {side : Side} (h : Steady r s) : Steady r (s.takeNext side) := by
  unfold State.takeNext
  split
  · exact h
  · split
    · exact h
    · exact .ite (.review (takeUnit h :)) (.endOfCard h)

theorem reportChange {side : Side} {change : Nat} (h : Steady r s) : Steady r (s.reportChange side change) := .report h

theorem mountOrDefer {side : Side} (h : Steady r s) : Steady r (s.mountOrDefer side) := by
  unfold State.mountOrDefer
  exact .ite h h

theorem detectChanged {side : Side} {present : Bool} (h : Steady r s) : Steady r (s.detectChanged side present) := by
  unfold State.detectChanged
  exact .ite h (.ite h (.ite (.ite (.reportChange (.mountOrDefer h)) h) (.reportChange (.slotLost h))))

theorem protectChanged {side : Side} {on : Bool} (h : Steady r s) : Steady r (s.protectChanged side on) := by
  unfold State.protectChanged
  exact .ite h (.ite (.ite (.reportChange h) h) (.ite (.reportChange (.mountOrDefer h)) h))

/-! ### Recorder, viewfinder and power -/

theorem rcdStep (h : Steady r s) : Steady r s.rcdStep := by
  unfold State.rcdStep
  split <;> exact h

theorem vogStep (h : Steady r s) : Steady r s.vogStep := by
  unfold State.vogStep
  split
  · exact h
  · unfold State.vogFrame
    exact .ite h h

theorem resetItems {which : List Nat} (h : Steady r s) : Steady r (s.resetItems which) := by
  unfold State.resetItems
  exact .foldl (fun k => k) h

theorem haltLens (h : Steady r s) : Steady r s.haltLens :=
  show Steady r (s.endMoves .halted) from .endMoves h

theorem reportPower (h : Steady r s) : Steady r s.reportPower := .report h

theorem enterStandby (h : Steady r s) : Steady r s.enterStandby := by
  unfold State.enterStandby
  extract_lets stopped halted
  have kept : Steady r halted := haltLens (s := State.setTimebase _ _) h
  exact .reportPower kept

theorem returnToRun {cause : RunCause} (h : Steady r s) : Steady r (s.returnToRun cause) := by
  unfold State.returnToRun
  exact reportPower h

theorem press (h : Steady r s) : Steady r s.press := by
  unfold State.press
  split
  · exact .returnToRun h
  · split
    · exact .startReported h
    · exact .stop h
    · exact h
    · exact h

theorem switchLnc {on : Bool} (h : Steady r s) : Steady r (s.switchLnc on) := by
  unfold State.switchLnc
  exact .ite h h

theorem switchStb {on : Bool} (h : Steady r s) : Steady r (s.switchStb on) := by
  unfold State.switchStb
  exact .ite h h

theorem switchAud {on : Bool} (h : Steady r s) : Steady r (s.switchAud on) := by
  have handed : Steady r (if !on && s.pwc.inRun then s.handOverOff else s) := .ite (.handOverOff h) h
  unfold State.switchAud
  exact .ite h handed

theorem switchVog {on : Bool} (h : Steady r s) : Steady r (s.switchVog on) := by
  unfold State.switchVog
  exact .ite h h

theorem switchSlot {side : Side} {on : Bool} (h : Steady r s) : Steady r (s.switchSlot side on) := by
  unfold State.switchSlot
  exact .ite h (.ite (.ite (.mountOrDefer h) h) h)

/-! ### What a block does with a request (R176 step 4) -/

theorem reqFrameConfig {p : List Byte} (h : Steady r s) : Steady r (reqFrameConfig p s).1 := by
  unfold Machine.reqFrameConfig
  split
  · exact .iteFst h (.iteFst h (.fireIfDue (.of_records h rfl rfl)))
  · exact h

theorem reqTcPreset {p : List Byte} (h : Steady r s) : Steady r (reqTcPreset p s).1 := by
  unfold Machine.reqTcPreset
  exact .iteFst h h

theorem reqTcMode {p : List Byte} (h : Steady r s) : Steady r (reqTcMode p s).1 := by
  unfold Machine.reqTcMode
  split
  · exact h
  · exact .iteFst h h

theorem reqTcTrigger {p : List Byte} (h : Steady r s) : Steady r (reqTcTrigger p s).1 := by
  unfold Machine.reqTcTrigger
  refine .iteFst h (.iteFst h ?_)
  dsimp only
  split
  · exact h
  · exact .iteFst h h

theorem reqIntervalConfig {p : List Byte} (h : Steady r s) : Steady r (reqIntervalConfig p s).1 := by
  unfold Machine.reqIntervalConfig
  split
  · exact h
  · exact .iteFst h h

theorem reqTimeQuery {p : List Byte} (h : Steady r s) : Steady r (reqTimeQuery p s).1 := by
  unfold Machine.reqTimeQuery
  split
  · exact h
  · exact .ite h h

theorem takeRate {d : Drive} {p : List Byte} (h : Steady r s) : Steady r (s.takeRate d p).1 := by
  unfold State.takeRate
  split
  · exact h
  · exact .iteFst h (endMove h :)

theorem reqLensGoto {p : List Byte} (h : Steady r s) : Steady r (reqLensGoto p s).1 := by
  unfold Machine.reqLensGoto
  dsimp only
  split
  · refine .iteFst h (.iteFst h ?_)
    exact .ite (.moveDrive (.ite (.moveDrive h) h)) (.ite (.moveDrive h) h)
  · exact h

theorem reqLensStop {p : List Byte} (h : Steady r s) : Steady r (reqLensStop p s).1 := by
  unfold Machine.reqLensStop
  exact endMove (.stopDrive (.stopDrive h))

theorem reqPresetStore {p : List Byte} (h : Steady r s) : Steady r (reqPresetStore p s).1 := by
  unfold Machine.reqPresetStore
  split
  · exact .iteFst h h
  · split <;> exact h
  · exact h

theorem recallPreset {i : Nat} {x : Preset} {t : Nat} (h : Steady r s) : Steady r (s.recall i x t).1 := by
  unfold State.recall
  dsimp only
  split
  · exact moveIris (.moveDrive (.moveDrive h))
  · exact moveDrive (.moveDrive h)

theorem reqPresetRecall {p : List Byte} (h : Steady r s) : Steady r (reqPresetRecall p s).1 := by
  unfold Machine.reqPresetRecall
  split
  · split
    · exact h
    · exact .iteFst h (.recallPreset h)
  · exact h

theorem takeIris {f : Iris → Iris} (h : Steady r s) : Steady r (s.takeIris f).1 := by
  unfold State.takeIris
  exact .iteFst h (endMove h :)

theorem reqIrisAuto {p : List Byte} (h : Steady r s) : Steady r (reqIrisAuto p s).1 := by
  unfold Machine.reqIrisAuto
  split
  · exact h
  · exact .takeIris h

theorem reqZoomCurveLoad {p : List Byte} (h : Steady r s) : Steady r (reqZoomCurveLoad p s).1 := by
  unfold Machine.reqZoomCurveLoad
  exact .iteFst h h

theorem reqLensConfig {p : List Byte} (h : Steady r s) : Steady r (reqLensConfig p s).1 := by
  unfold Machine.reqLensConfig
  split <;> exact h

theorem reqLensQuery {p : List Byte} (h : Steady r s) : Steady r (reqLensQuery p s).1 := by
  unfold Machine.reqLensQuery
  split
  · exact h
  · exact .ite h h

theorem reqStabConfig {p : List Byte} (h : Steady r s) : Steady r (reqStabConfig p s).1 := by
  unfold Machine.reqStabConfig
  split
  · exact h
  · exact .iteFst h h

theorem reqStabMode {p : List Byte} (h : Steady r s) : Steady r (reqStabMode p s).1 := by
  unfold Machine.reqStabMode
  split
  · exact h
  · exact .iteFst h h

theorem reqStabRecentre {p : List Byte} (h : Steady r s) : Steady r (reqStabRecentre p s).1 := by
  unfold Machine.reqStabRecentre
  exact .iteFst h h

theorem reqStabQuery {p : List Byte} (h : Steady r s) : Steady r (reqStabQuery p s).1 := by
  unfold Machine.reqStabQuery
  split
  · exact h
  · exact .ite h h

theorem reqAudioRoute {p : List Byte} (h : Steady r s) : Steady r (reqAudioRoute p s).1 := by
  unfold Machine.reqAudioRoute
  split
  · exact .iteFst h h
  · exact h

theorem reqAudioGain {p : List Byte} (h : Steady r s) : Steady r (reqAudioGain p s).1 := by
  unfold Machine.reqAudioGain
  split
  · exact .iteFst h h
  · exact h

theorem reqAudioLimiter {p : List Byte} (h : Steady r s) : Steady r (reqAudioLimiter p s).1 := by
  unfold Machine.reqAudioLimiter
  split
  · exact .iteFst h h
  · exact h

theorem reqAudioQuery {p : List Byte} (h : Steady r s) : Steady r (reqAudioQuery p s).1 := by
  unfold Machine.reqAudioQuery
  split
  · exact h
  · exact .ite h h

theorem reqAuxAttach {p : List Byte} (h : Steady r s) : Steady r (reqAuxAttach p s).1 := by
  unfold Machine.reqAuxAttach
  exact .iteFst h (.iteFst h h)

theorem reqMarkFrame {p : List Byte} (h : Steady r s) : Steady r (reqMarkFrame p s).1 := by
  unfold Machine.reqMarkFrame
  dsimp only
  split
  · exact h
  · exact h
  · split <;> exact h

theorem reqPrerecConfig {p : List Byte} (h : Steady r s) : Steady r (reqPrerecConfig p s).1 := by
  unfold Machine.reqPrerecConfig
  split
  · exact h
  · exact .iteFst h h

theorem reqHoldSet {p : List Byte} (h : Steady r s) : Steady r (reqHoldSet p s).1 := by
  unfold Machine.reqHoldSet
  refine .iteFst h ?_
  split
  · exact h
  · exact .iteFst h h

theorem reqHoldClear {p : List Byte} (h : Steady r s) : Steady r (reqHoldClear p s).1 := by
  unfold Machine.reqHoldClear
  split
  · exact h
  · exact .iteFst h (.iteFst h h)

theorem reqHoldRetain {p : List Byte} (h : Steady r s) : Steady r (reqHoldRetain p s).1 := by
  unfold Machine.reqHoldRetain
  split
  · exact h
  · split
    · refine .iteFst h ?_
      split
      · exact (takeRetain h :)
      · exact h
      · exact h
    · exact h

theorem reqBufferQuery {p : List Byte} (h : Steady r s) : Steady r (reqBufferQuery p s).1 := by
  unfold Machine.reqBufferQuery
  split
  · exact h
  · exact .ite h h

theorem reqSlotMode {p : List Byte} (h : Steady r s) : Steady r (reqSlotMode p s).1 := by
  unfold Machine.reqSlotMode
  split
  · exact .iteFst h h
  · exact h

theorem reqRecStart {p : List Byte} (h : Steady r s) : Steady r (reqRecStart p s).1 := by
  have started : Steady r (s.start .host s.rcd.noted).1 := .start h
  unfold Machine.reqRecStart
  exact .iteFst started started

theorem reqRecStop {p : List Byte} (h : Steady r s) : Steady r (reqRecStop p s).1 :=
  show Steady r (s.stop s.rcd.noted) from .stop h

theorem reqRecQuery {p : List Byte} (h : Steady r s) : Steady r (reqRecQuery p s).1 := by
  unfold Machine.reqRecQuery
  split
  · exact h
  · exact .ite h h

theorem reqCardFormat {p : List Byte} (h : Steady r s) : Steady r (reqCardFormat p s).1 := by
  unfold Machine.reqCardFormat
  split
  · exact h
  · refine .iteFst h ?_
    split
    · exact h
    · exact .runWriter h

theorem reqCardEject {p : List Byte} (h : Steady r s) : Steady r (reqCardEject p s).1 := by
  unfold Machine.reqCardEject
  split
  · exact h
  · refine .iteFst h ?_
    split <;> exact h

theorem reqCardConfig {p : List Byte} (h : Steady r s) : Steady r (reqCardConfig p s).1 := by
  unfold Machine.reqCardConfig
  split
  · exact .judgeNearFull h
  · exact h

theorem reqCardQuery {p : List Byte} (h : Steady r s) : Steady r (reqCardQuery p s).1 := by
  unfold Machine.reqCardQuery
  split
  · exact .ite h h
  · exact h

theorem reqVfItemSet {p : List Byte} (h : Steady r s) : Steady r (reqVfItemSet p s).1 := by
  unfold Machine.reqVfItemSet
  split
  · exact .iteFst h h
  · exact h

theorem reqVfItemClear {p : List Byte} (h : Steady r s) : Steady r (reqVfItemClear p s).1 := by
  unfold Machine.reqVfItemClear
  exact .iteFst h (.iteFst h (.resetItems h))

theorem reqVfText {p : List Byte} (h : Steady r s) : Steady r (reqVfText p s).1 := by
  unfold Machine.reqVfText
  dsimp only
  split
  · exact .iteFst h (.iteFst h h)
  · exact h

theorem reqVfConfig {p : List Byte} (h : Steady r s) : Steady r (reqVfConfig p s).1 := by
  unfold Machine.reqVfConfig
  dsimp only
  split
  · exact .iteFst h (.iteFst h h)
  · exact h

theorem reqPowerStandby {p : List Byte} (h : Steady r s) : Steady r (reqPowerStandby p s).1 := by
  unfold Machine.reqPowerStandby
  exact .iteFst h (.iteFst h (.enterStandby h))

theorem reqPowerRun {p : List Byte} (h : Steady r s) : Steady r (reqPowerRun p s).1 := by
  unfold Machine.reqPowerRun
  exact .ite h (.returnToRun h)

theorem reqBlockEnable {p : List Byte} (h : Steady r s) : Steady r (reqBlockEnable p s).1 := by
  unfold Machine.reqBlockEnable
  split
  · exact h
  · exact .iteFst h (.switchAud (.switchVog (.switchStb (.switchLnc (.switchSlot (.switchSlot h))))))

end State.Steady

end Sys2Proof.Machine

namespace Sys2Proof.Machine

/-! # Resets and the receiver's bytes over a command (R173, R180, R191) -/

namespace State.Steady

variable {r s : State}

/-! ## The requests that LNK owns, and the judging (R176) -/

theorem reqNoticeConfig {p : List Byte} (h : Steady r s) : Steady r (reqNoticeConfig p s).1 := by
  unfold Machine.reqNoticeConfig
  split <;> exact h

theorem reqNoticeMask {p : List Byte} (h : Steady r s) : Steady r (reqNoticeMask p s).1 := by
  unfold Machine.reqNoticeMask
  split <;> exact h

theorem clearAll {srcs : List Source} (h : Steady r s) : Steady r (s.modifyLnk (fun lnk => lnk.clearAll srcs)) := by
  have kept (lnk : Lnk) : (lnk.clearAll srcs).kept = lnk.kept := by
    unfold Lnk.clearAll
    exact List.foldlRecOn (motive := fun k : Lnk => k.kept = lnk.kept) srcs _ rfl fun _ same _ _ => same
  exact ⟨h.1, (kept s.lnk).trans h.2⟩

theorem reqNoticeClear {p : List Byte} (h : Steady r s) : Steady r (reqNoticeClear p s).1 := by
  unfold Machine.reqNoticeClear
  exact .iteFst h h.clearAll

theorem reqNoticeQuery {p : List Byte} (h : Steady r s) : Steady r (reqNoticeQuery p s).1 := by
  unfold Machine.reqNoticeQuery
  split
  · exact h
  · exact .ite h h

theorem takeRequest (req : Req) {p : List Byte} (h : Steady r s) : Steady r (takeRequest req p s).1 := by
  cases req with
  | frameConfig => exact h.reqFrameConfig
  | tcPreset => exact h.reqTcPreset
  | tcMode => exact h.reqTcMode
  | tcUserbits => exact h
  | tcTrigger => exact h.reqTcTrigger
  | intervalConfig => exact h.reqIntervalConfig
  | timeQuery => exact h.reqTimeQuery
  | zoomRate => exact h.takeRate (d := .zoom)
  | focusRate => exact h.takeRate (d := .focus)
  | lensGoto => exact h.reqLensGoto
  | lensStop => exact h.reqLensStop (p := p)
  | presetStore => exact h.reqPresetStore
  | presetRecall => exact h.reqPresetRecall
  | irisSet => exact takeIris h
  | irisAuto => exact h.reqIrisAuto
  | zoomCurveLoad => exact h.reqZoomCurveLoad
  | lensConfig => exact h.reqLensConfig
  | lensQuery => exact h.reqLensQuery
  | stabConfig => exact h.reqStabConfig
  | stabMode => exact h.reqStabMode
  | stabRecentre => exact h.reqStabRecentre (p := p)
  | stabQuery => exact h.reqStabQuery
  | audioRoute => exact h.reqAudioRoute
  | audioGain => exact h.reqAudioGain
  | audioLimiter => exact h.reqAudioLimiter
  | audioQuery => exact h.reqAudioQuery
  | auxAttach => exact h.reqAuxAttach
  | markFrame => exact h.reqMarkFrame
  | prerecConfig => exact h.reqPrerecConfig
  | holdSet => exact h.reqHoldSet
  | holdClear => exact h.reqHoldClear
  | holdRetain => exact h.reqHoldRetain
  | bufferQuery => exact h.reqBufferQuery
  | slotMode => exact h.reqSlotMode
  | recStart => exact h.reqRecStart (p := p)
  | recStop => exact h.reqRecStop (p := p)
  | recQuery => exact h.reqRecQuery
  | cardFormat => exact h.reqCardFormat
  | cardEject => exact h.reqCardEject
  | catalogueRead => exact (reqCatalogueRead_fst p s).symm ▸ h
  | cardConfig => exact h.reqCardConfig
  | cardQuery => exact h.reqCardQuery
  | vfItemSet => exact h.reqVfItemSet
  | vfItemClear => exact h.reqVfItemClear
  | vfText => exact h.reqVfText
  | vfConfig => exact h.reqVfConfig
  | noticeConfig => exact h.reqNoticeConfig
  | noticeMask => exact h.reqNoticeMask
  | noticeClear => exact h.reqNoticeClear
  | noticeQuery => exact h.reqNoticeQuery
  | powerStandby => exact h.reqPowerStandby (p := p)
  | powerRun => exact h.reqPowerRun (p := p)
  | blockEnable => exact h.reqBlockEnable
  | partReset => exact h

theorem judgeRequest {x : Request} (h : Steady r s) : Steady r (s.judgeRequest x).1 := by
  unfold State.judgeRequest
  split
  · exact h
  · unfold State.judgeRow
    refine .iteFst h ?_
    split
    · exact h
    · exact h.takeRequest _

/-! ## LNK's own work -/

theorem settle (h : Steady r s) : Steady r s.settle := by
  have kept : s.settle.lnk.kept = s.lnk.kept := by
    rw [State.settle_lnk]
    have same := congrArg Lnk.kept s.lnk.unsent_follow
    exact same
  exact ⟨(congrArg Pwc.resetting s.settle_pwc).trans h.1, kept.trans h.2⟩

theorem elapseBy {fuel cycles : Nat} (h : Steady r s) : Steady r (State.elapseBy fuel cycles s) := by
  induction fuel generalizing cycles s with
  | zero => exact h
  | succ fuel ih =>
    unfold State.elapseBy
    split
    · exact h
    · have passed : Steady r (s.pass s.ftb.toDue) := h
      exact ih passed.timerFires.settle

theorem serve {x : Request} (h : Steady r s) : Steady r (s.serve x) := by
  have judged : Steady r (s.judgeRequest x).1 := h.judgeRequest
  unfold State.serve
  exact settle (s := State.modifyLnk _ _) judged

theorem dispatch {fuel : Nat} (h : Steady r s) : Steady r (State.dispatch fuel s) := by
  induction fuel generalizing s with
  | zero => exact h
  | succ fuel ih =>
    unfold State.dispatch
    split
    · exact h
    · split
      · exact ih (serve (s := State.modifyLnk _ _) h)
      · exact h

theorem dropFrame {cause : DropCause} (h : Steady r s) : Steady r (s.dropFrame cause) := by
  unfold State.dropFrame
  exact settle (report (s := State.modifyLnk _ _) h)

theorem offer {x : Request} (h : Steady r s) : Steady r (s.offer x) := by
  unfold State.offer
  split
  · exact dispatch (s := State.modifyLnk _ _) h
  · exact h.dropFrame

end State.Steady

/-! ## The receiver begins no reset -/

theorem State.resetting_takeBytes (fuel : Nat) (bytes : List Byte) (s : State) :
    (State.takeBytes fuel bytes s).pwc.resetting = s.pwc.resetting := by
  induction fuel generalizing bytes s with
  | zero => rfl
  | succ fuel ih =>
    cases bytes with
    | nil => rfl
    | cons b rest =>
      unfold State.takeBytes
      extract_lets kept
      have hunted : kept.hunt.pwc.resetting = s.pwc.resetting := rfl
      split
      · exact ih rest kept
      · exact (ih _ _).trans ((State.Steady.refl kept.hunt).dropFrame.1.trans hunted)
      · exact (ih _ _).trans ((State.Steady.refl kept.hunt).dropFrame.1.trans hunted)
      · exact (ih _ _).trans ((State.Steady.refl kept.hunt).offer.1.trans hunted)

theorem State.resetting_dropKept (s : State) (cause : DropCause) : (s.dropKept cause).pwc.resetting = s.pwc.resetting :=
  (State.resetting_takeBytes _ _ _).trans (State.Steady.refl s.hunt).dropFrame.1

/-! ## What a command does to a reset (R191) -/

section
variable {c : Instr} {s t : State}

theorem works_act (effect : State → State) (acts : exec c s = s.act effect) (works : s.works)
    (same : (effect s).pwc.resetting = s.pwc.resetting) (run : exec c s = .next t) : t.works := by
  rw [acts, State.act_works works] at run
  obtain rfl := Host.Outcome.next.inj run
  rw [State.works, State.settle_pwc]
  exact same.trans works

theorem works_steady (effect : State → State) (acts : exec c s = s.act effect) (works : s.works)
    (steady : s.Steady s → s.Steady (effect s)) (run : exec c s = .next t) : t.works :=
  works_act effect acts works (steady (.refl s)).1 run

/-- A message's end leaves the part at work, or held in a reset with ATTN released (R191). -/
theorem works_or_released_messageSent (works : s.works) (run : exec .messageSent s = .next t) : t.works ∨ t.lnk.attn = false := by
  cases sends : s.lnk.sending with
  | none => exact .inl (works_act State.messageSent rfl works (by rw [State.messageSent_idle sends]) run)
  | some m =>
    by_cases reset : s.lnk.resetTaken = true ∧ m.msg.takesReset = true
    · change s.act State.messageSent = .next t at run
      rw [State.act_works works, State.messageSent_reset sends reset.1 reset.2, State.settle_hold] at run
      obtain rfl := Host.Outcome.next.inj run
      exact .inr rfl
    · refine .inl (works_act State.messageSent rfl works ?_ run)
      rw [State.messageSent_goesOn sends fun taken => Bool.eq_false_iff.mpr fun reply => reset ⟨taken, reply⟩]
      exact (State.Steady.refl { s with lnk := ({ s.lnk with sending := none } : Lnk).transmit }).dispatch.1

/-- A command that a part at work takes leaves it at work, or held in a reset with ATTN released (R180, R191). -/
theorem works_or_released_exec (works : s.works) (notEnd : ∀ p q a b, c ≠ .resetEnd p q a b) (run : exec c s = .next t) :
    t.works ∨ t.lnk.attn = false := by
  have here := State.Steady.refl s
  cases c with
  | messageSent => exact works_or_released_messageSent works run
  | powerOnReset =>
    obtain rfl := Host.Outcome.next.inj run
    exact .inr rfl
  | resetEnd p q a b => exact absurd rfl (notEnd p q a b)
  | frameStartEdge cycles => exact .inl (works_steady (fun s => (s.elapse cycles).edge) rfl works (·.elapseBy.edge) run)
  | substitutionTimer => exact .inl (works_steady State.fireIfDue rfl works .fireIfDue run)
  | lncFrameStart => exact .inl (works_steady State.lncStep rfl works .lncStep run)
  | lensReport bytes => exact .inl (works_steady (·.lensReport bytes) rfl works .lensReport run)
  | reportWindowExpiry => exact .inl (works_steady State.windowExpires rfl works .windowExpires run)
  | gyroReadDue => exact .inl (works_steady State.gyroDue rfl works .gyroDue run)
  | gyroAnswer yaw pitch status =>
    exact .inl (works_steady (·.gyroAnswered yaw.toInt pitch.toInt status) rfl works .gyroAnswered run)
  | tileSetComplete serial pixels => exact .inl (works_steady (·.tileSet ⟨serial, pixels⟩) rfl works .tileSet run)
  | correlationComplete => exact .inl (works_steady (·.modifyStb Stb.correlated) rfl works id run)
  | stbFrameStart => exact .inl (works_steady State.stbStep rfl works .stbStep run)
  | sampleFrame pair first second =>
    exact .inl (works_steady (·.sampleFrame pair first.toInt second.toInt) rfl works .sampleFrame run)
  | audFrameStart => exact .inl (works_steady State.audStep rfl works .audStep run)
  | bfmFrameStart => exact .inl (works_steady State.bfmStep rfl works .bfmStep run)
  | essenceHeader serial lengthLessOne key =>
    exact .inl (works_steady (·.essenceHeader serial (lengthLessOne.toNat + 1) key) rfl works .essenceHeader run)
  | essenceData bytes => exact .inl (works_steady (·.essenceData bytes) rfl works .essenceData run)
  | rcdFrameStart => exact .inl (works_steady State.rcdStep rfl works .rcdStep run)
  | vogFrameStart => exact .inl (works_steady State.vogStep rfl works .vogStep run)
  | overlaySent => exact .inl (works_steady (fun s => { s with vog := s.vog.recordSent }) rfl works id run)
  | recLinePress => exact .inl (works_steady State.press rfl works .press run)
  | unitTake slot => exact .inl (works_steady (·.takeNext slot) rfl works .takeNext run)
  | commandComplete slot status => exact .inl (works_steady (·.commandAnswered slot status) rfl works .commandAnswered run)
  | cardReadComplete slot answer => exact .inl (works_steady (·.readAnswered slot answer) rfl works .readAnswered run)
  | cardTimeout slot => exact .inl (works_steady (·.cardTimesOut slot) rfl works .cardTimesOut run)
  | cardDetectChange slot present => exact .inl (works_steady (·.detectChanged slot present) rfl works .detectChanged run)
  | protectChange slot on => exact .inl (works_steady (·.protectChanged slot on) rfl works .protectChanged run)
  | byteArrival byte => exact .inl (works_act (·.receiveBytes [byte]) rfl works (State.resetting_takeBytes _ _ _) run)
  | lineFramingError =>
    refine .inl (works_act State.framingError rfl works ?_ run)
    unfold State.framingError
    split
    · rfl
    · exact s.resetting_dropKept _
  | gapTimeout =>
    refine .inl (works_act State.gapExpires rfl works ?_ run)
    unfold State.gapExpires
    split
    · rfl
    · exact s.resetting_dropKept _
  | _ => exact .inl (works_act (fun s => s.offer _) rfl works here.offer.1 run)

end

/-! ## ATTN over a command (R180) -/

/-- A command that acts leaves ATTN asserted exactly while a source calls the host (R180). -/
theorem attn_exec {c : Instr} {s t : State} (run : exec c s = .next t) (acts : Acts c s) :
    t.lnk.attn = true ↔ ∃ src, t.lnk.calls src := by
  obtain ⟨lnk, followed⟩ := (exec_leaves run).followed acts
  rw [followed]
  exact lnk.attn_follow

/-- Settles O56: what a command leaves has followed the table, and no command but a reset's begins a reset. -/
theorem attnFollows : Obligations.AttnFollows := by
  unfold Obligations.AttnFollows
  refine ⟨fun c s t run acts => ⟨attn_exec run acts, fun held => ?_⟩, fun s t p q a b held run => ?_⟩
  · rcases acts with ⟨works, notEnd⟩ | rfl | ⟨resets, p, q, a, b, rfl⟩
    · rcases works_or_released_exec works notEnd run with works' | released
      · rw [works'] at held
        cases held
      · exact released
    · obtain rfl := Host.Outcome.next.inj run
      rfl
    · obtain ⟨cause, resetting⟩ := Option.ne_none_iff_exists'.mp resets
      rw [exec_resetEnd_held resetting] at run
      obtain rfl := Host.Outcome.next.inj run
      cases held
  · obtain ⟨cause, resetting⟩ := Option.ne_none_iff_exists'.mp held
    rw [exec_resetEnd_held resetting] at run
    obtain rfl := Host.Outcome.next.inj run
    obtain ⟨lnk, h⟩ : ∃ lnk, lnk = Lnk.started s.lnk.drawn cause (strapCode p q) a b := ⟨_, rfl⟩
    have starts : (s.endReset cause (strapCode p q) a b).lnk = lnk := h.symm
    obtain ⟨-, -, -, mask, -⟩ := Lnk.registers_started h
    obtain ⟨-, -, started, -, attn⟩ := Lnk.follows_started h
    rw [starts, started]
    exact ⟨attn, mask, rfl, rfl, rfl, rfl⟩

end Sys2Proof.Machine

namespace Sys2Proof.Machine

/-! # The receiver (R172 to R174) -/

/-! ## Taking bytes -/

/-- What the receiver makes of one byte, and the bytes that it then takes again (R173, R174). -/
def State.receiveByte (s : State) (b : Byte) : State × List Byte :=
  let s := s.modifyLnk (fun lnk => lnk.keep b)
  match judgeKept s.lnk.kept with
  | .more => (s, [])
  | .drop cause => (s.hunt.dropFrame cause, s.lnk.kept.drop 1)
  | .whole cause => (s.hunt.dropFrame cause, [])
  | .request r => (s.hunt.offer r, [])

theorem State.takeBytes_nil (fuel : Nat) (s : State) : State.takeBytes fuel [] s = s := by cases fuel <;> rfl

theorem State.takeBytes_cons (fuel : Nat) (b : Byte) (rest : List Byte) (s : State) :
    State.takeBytes (fuel + 1) (b :: rest) s = State.takeBytes fuel ((s.receiveByte b).2 ++ rest) (s.receiveByte b).1 := by
  rw [State.takeBytes, State.receiveByte]
  cases judgeKept (s.modifyLnk fun lnk => lnk.keep b).lnk.kept <;> rfl

/-- A bound on the bytes that the receiver takes, those taken again among them: a drop takes one byte away for good. -/
def State.receiveCost (s : State) (bytes : List Byte) : Nat :=
  bytes.length + (s.lnk.kept.length + bytes.length) * (s.lnk.kept.length + bytes.length)

/-- The receiver in HUNT, with fewer bytes to take than were kept and to take before, is nearer its end. -/
theorem State.receiveCost_hunting {s t : State} {bytes again : List Byte} (hunts : t.lnk.kept = [])
    (fewer : again.length < s.lnk.kept.length + bytes.length) : t.receiveCost again < s.receiveCost bytes := by
  have squares := Nat.mul_self_le_mul_self (Nat.succ_le_of_lt fewer)
  rw [State.receiveCost, State.receiveCost, hunts, List.length_nil, Nat.zero_add]
  nlinarith

theorem Lnk.length_keep (lnk : Lnk) (b : Byte) : (lnk.keep b).kept.length ≤ lnk.kept.length + 1 := by
  unfold Lnk.keep
  split
  · omega
  · exact (List.length_append ..).le

theorem State.kept_dropFrame_hunt (s : State) (cause : DropCause) : (s.hunt.dropFrame cause).lnk.kept = [] :=
  (State.Steady.refl s.hunt).dropFrame.2

theorem State.kept_offer_hunt (s : State) (r : Request) : (s.hunt.offer r).lnk.kept = [] :=
  (State.Steady.refl s.hunt).offer.2

/-- Each byte taken brings the receiver nearer its end. -/
theorem State.receiveCost_receiveByte (s : State) (b : Byte) (rest : List Byte) :
    (s.receiveByte b).1.receiveCost ((s.receiveByte b).2 ++ rest) < s.receiveCost (b :: rest) := by
  have length := s.lnk.length_keep b
  unfold State.receiveByte
  dsimp only
  rw [State.modifyLnk_lnk]
  split
  · have total : (s.lnk.keep b).kept.length + rest.length ≤ s.lnk.kept.length + (rest.length + 1) := by omega
    have squares := Nat.mul_self_le_mul_self total
    simp only [State.receiveCost, State.modifyLnk_lnk, List.nil_append, List.length_cons]
    omega
  · refine State.receiveCost_hunting (State.kept_dropFrame_hunt _ _) ?_
    rw [List.length_append, List.length_drop, List.length_cons]
    omega
  · exact State.receiveCost_hunting (State.kept_dropFrame_hunt _ _) (by simp; omega)
  · exact State.receiveCost_hunting (State.kept_offer_hunt _ _) (by simp; omega)

/-- Fuel enough for the cost takes every byte, and more fuel changes nothing. -/
theorem State.takeBytes_fuel {f g : Nat} {bytes : List Byte} {s : State} (hf : s.receiveCost bytes ≤ f)
    (hg : s.receiveCost bytes ≤ g) : State.takeBytes f bytes s = State.takeBytes g bytes s := by
  induction f generalizing g bytes s with
  | zero =>
    obtain rfl : bytes = [] := List.length_eq_zero_iff.mp (by unfold State.receiveCost at hf; omega)
    rw [State.takeBytes_nil, State.takeBytes_nil]
  | succ f ih =>
    cases bytes with
    | nil => rw [State.takeBytes_nil, State.takeBytes_nil]
    | cons b rest =>
      have less := s.receiveCost_receiveByte b rest
      obtain ⟨g, rfl⟩ : ∃ k, g = k + 1 := Nat.exists_eq_add_one_of_ne_zero (by omega)
      rw [State.takeBytes_cons, State.takeBytes_cons]
      exact ih (by omega) (by omega)

theorem State.receiveBytes_eq {fuel : Nat} {bytes : List Byte} {s : State} (enough' : s.receiveCost bytes ≤ fuel) :
    State.takeBytes fuel bytes s = s.receiveBytes bytes := by
  refine State.takeBytes_fuel enough' ?_
  unfold State.receiveCost enough
  nlinarith

theorem State.receiveBytes_nil (s : State) : s.receiveBytes [] = s := State.takeBytes_nil _ s

theorem State.receiveBytes_cons (s : State) (b : Byte) (rest : List Byte) :
    s.receiveBytes (b :: rest) = (s.receiveByte b).1.receiveBytes ((s.receiveByte b).2 ++ rest) := by
  have less := s.receiveCost_receiveByte b rest
  rw [← State.receiveBytes_eq (fuel := s.receiveCost (b :: rest) + 1) (by omega), State.takeBytes_cons,
    State.receiveBytes_eq less.le]

/-- Bytes are taken in order, with what they make the receiver take again before those behind them (R174). -/
theorem State.receiveBytes_append (s : State) (front back : List Byte) :
    s.receiveBytes (front ++ back) = (s.receiveBytes front).receiveBytes back := by
  cases front with
  | nil => rw [State.receiveBytes_nil, List.nil_append]
  | cons b rest =>
    rw [List.cons_append, State.receiveBytes_cons, State.receiveBytes_cons, ← List.append_assoc]
    exact State.receiveBytes_append _ _ back
termination_by s.receiveCost front
decreasing_by exact s.receiveCost_receiveByte b rest

/-! ## Judging what is kept (R173) -/

section
variable {kept : List Byte}

theorem judgeKept_short (short : kept.length < 3) : judgeKept kept = .more := if_pos short

theorem judgeKept_badLength (headed : 3 ≤ kept.length) (above : 1024 < num kept 1 2) : judgeKept kept = .drop .badLength := by
  rw [judgeKept, if_neg (by omega), if_pos above]

theorem judgeKept_partial (headed : 3 ≤ kept.length) (fits : num kept 1 2 ≤ 1024) (partly : kept.length < num kept 1 2 + 8) :
    judgeKept kept = .more := by
  rw [judgeKept, if_neg (by omega), if_neg (by omega), if_pos partly]

theorem judgeKept_whole {n : Nat} (announced : num kept 1 2 = n) (fits : n ≤ 1024) (whole : n + 8 ≤ kept.length) :
    judgeKept kept =
      if field kept (n + 6) 2 ≠ crcBytes (field kept 3 (n + 3)) then .drop .badCrc
      else if kept[3]?.getD 0 ≠ 0x01 then .whole .badKind
      else .request { code := kept[4]?.getD 0, tag := kept[5]?.getD 0, payload := field kept 6 n } := by
  rw [judgeKept, announced, if_neg (by omega), if_neg (by omega), if_neg (by omega)]
  simp only [bne_iff_ne]

end

/-! ## Frames (R172) -/

section
variable (kind code tag : Byte) (payload : List Byte)

/-- The parts of a frame, in order. -/
def frameParts : List (List Byte) :=
  [[0xC3#8], u16 payload.length, [kind], [code], [tag], payload, crcBytes (kind :: code :: tag :: payload)]

theorem linkFrame_eq_parts : linkFrame kind code tag payload = (frameParts kind code tag payload).flatten := by
  simp [linkFrame, frameParts]

theorem length_crcBytes (bytes : List Byte) : (crcBytes bytes).length = 2 := rfl

theorem length_linkFrame : (linkFrame kind code tag payload).length = payload.length + 8 := by
  simp [linkFrame_eq_parts, frameParts, length_crcBytes]
  omega

theorem field_length_linkFrame : field (linkFrame kind code tag payload) 1 2 = u16 payload.length := by
  rw [linkFrame_eq_parts]
  exact field_part 1 rfl rfl rfl

variable {payload} (fits : payload.length ≤ 1024)
include fits

theorem num_linkFrame : num (linkFrame kind code tag payload) 1 2 = payload.length :=
  num_of_field (field_length_linkFrame kind code tag payload) (by omega)

/-- A whole frame is judged by its kind: its length and its CRC are good (R173). -/
theorem judgeKept_linkFrame : judgeKept (linkFrame kind code tag payload) =
    if kind ≠ 0x01#8 then .whole .badKind else .request { code := code, tag := tag, payload := payload } := by
  have part := @field_part (frameParts kind code tag payload)
  have kindAt := getElem?_of_field (part 2 (part := [kind]) rfl (first := 3) (by simp [frameParts]) rfl)
  have codeAt := getElem?_of_field (part 3 (part := [code]) rfl (first := 4) (by simp [frameParts]) rfl)
  have tagAt := getElem?_of_field (part 4 (part := [tag]) rfl (first := 5) (by simp [frameParts]) rfl)
  have payloadAt := part 5 (part := payload) rfl (first := 6) (by simp [frameParts]) rfl
  have crcAt := part 6 (part := crcBytes (kind :: code :: tag :: payload)) rfl (first := payload.length + 6)
    (count := 2) (by simp [frameParts]; omega) rfl
  have body : field (linkFrame kind code tag payload) 3 (payload.length + 3) = kind :: code :: tag :: payload :=
    field_part (parts := [0xC3#8 :: u16 payload.length, kind :: code :: tag :: payload, crcBytes (kind :: code :: tag :: payload)])
      1 rfl rfl rfl
  rw [← linkFrame_eq_parts] at kindAt codeAt tagAt payloadAt crcAt
  rw [judgeKept_whole (num_linkFrame kind code tag fits) fits (length_linkFrame ..).ge, body, crcAt, kindAt, codeAt, tagAt, payloadAt,
    if_neg (not_not.mpr rfl)]
  rfl

/-- A frame that has not come whole is waited for (R173). -/
theorem judgeKept_front {kept back : List Byte} (rest : back ≠ []) (frame : kept ++ back = linkFrame kind code tag payload) :
    judgeKept kept = .more := by
  by_cases headed : 3 ≤ kept.length
  · have announced : num kept 1 2 = payload.length := by
      rw [← num_linkFrame kind code tag fits, num, num, ← frame, field_before (by omega)]
    have length := length_linkFrame kind code tag payload
    have left := List.length_pos_iff.mpr rest
    rw [← frame, List.length_append] at length
    exact judgeKept_partial headed (announced ▸ fits) (by omega)
  · exact judgeKept_short (by omega)

end

/-! ## One byte -/

section
variable {s : State} {b : Byte}

theorem Lnk.keep_kept {lnk : Lnk} (keeps : lnk.kept = [] → b = 0xC3#8) : lnk.keep b = { lnk with kept := lnk.kept ++ [b] } := by
  refine if_neg fun discards => ?_
  rw [Bool.and_eq_true, List.isEmpty_iff, bne_iff_ne] at discards
  exact discards.2 (keeps discards.1)

theorem Lnk.keep_hunting {lnk : Lnk} (hunts : lnk.kept = []) (other : b ≠ 0xC3#8) : lnk.keep b = lnk :=
  if_pos (by rw [Bool.and_eq_true, List.isEmpty_iff, bne_iff_ne]; exact ⟨hunts, other⟩)

theorem State.receiveBytes_single (s : State) (b : Byte) :
    s.receiveBytes [b] = (s.receiveByte b).1.receiveBytes (s.receiveByte b).2 := by
  rw [State.receiveBytes_cons, List.append_nil]

variable (keeps : s.lnk.kept = [] → b = 0xC3#8)
include keeps

theorem State.receiveBytes_more (judged : judgeKept (s.lnk.kept ++ [b]) = .more) :
    s.receiveBytes [b] = { s with lnk := { s.lnk with kept := s.lnk.kept ++ [b] } } := by
  rw [State.receiveBytes_single, State.receiveByte, State.modifyLnk, Lnk.keep_kept keeps]
  dsimp only
  rw [judged, State.receiveBytes_nil]

theorem State.receiveBytes_drop {cause : DropCause} (judged : judgeKept (s.lnk.kept ++ [b]) = .drop cause) :
    s.receiveBytes [b] = (s.hunt.dropFrame cause).receiveBytes ((s.lnk.kept ++ [b]).drop 1) := by
  rw [State.receiveBytes_single, State.receiveByte, State.modifyLnk, Lnk.keep_kept keeps]
  dsimp only
  rw [judged]
  rfl

theorem State.receiveBytes_whole {cause : DropCause} (judged : judgeKept (s.lnk.kept ++ [b]) = .whole cause) :
    s.receiveBytes [b] = s.hunt.dropFrame cause := by
  rw [State.receiveBytes_single, State.receiveByte, State.modifyLnk, Lnk.keep_kept keeps]
  dsimp only
  rw [judged, State.receiveBytes_nil]
  rfl

theorem State.receiveBytes_request {r : Request} (judged : judgeKept (s.lnk.kept ++ [b]) = .request r) :
    s.receiveBytes [b] = s.hunt.offer r := by
  rw [State.receiveBytes_single, State.receiveByte, State.modifyLnk, Lnk.keep_kept keeps]
  dsimp only
  rw [judged, State.receiveBytes_nil]
  rfl

end

theorem State.receiveBytes_hunting {s : State} {b : Byte} (hunts : s.lnk.kept = []) (other : b ≠ 0xC3#8) :
    s.receiveBytes [b] = s := by
  have none : judgeKept s.lnk.kept = .more := judgeKept_short (by rw [hunts]; decide)
  rw [State.receiveBytes_single, State.receiveByte, State.modifyLnk, Lnk.keep_hunting hunts other]
  dsimp only
  rw [none, State.receiveBytes_nil]

/-! ## The obligations -/

/-- The first byte of a frame is the sync (R172). -/
theorem sync_of_frame {kept back : List Byte} {b kind code tag : Byte} {payload : List Byte}
    (frame : kept ++ b :: back = linkFrame kind code tag payload) (hunts : kept = []) : b = 0xC3#8 := by
  rw [hunts, List.nil_append] at frame
  exact List.head_eq_of_cons_eq frame

/-- Settles O52: the kept bytes are a frame's front, and are judged when it is whole. -/
theorem frameReceived : Obligations.FrameReceived := by
  unfold Obligations.FrameReceived
  intro b kind r s works fits frame hunting
  have judged : judgeKept frame = _ := judgeKept_linkFrame kind r.code r.tag fits
  refine ⟨by simp [frame, linkFrame], fun back rest front => ?_, fun request whole => ?_, fun other whole => ?_,
    fun hunts other => ?_⟩
  · have more : judgeKept (s.lnk.kept ++ [b]) = .more :=
      judgeKept_front kind r.code r.tag fits rest (by rw [List.append_assoc]; exact front)
    exact becomes_act works rfl (State.receiveBytes_more (sync_of_frame front) more)
  · rw [if_neg (not_not.mpr request), ← whole] at judged
    have received : s.receiveBytes [b] = hunting.offer r := State.receiveBytes_request (sync_of_frame whole) judged
    calc exec (.byteArrival b) s
      _ = .next (s.receiveBytes [b]).settle := State.act_works works _
      _ = .next (hunting.offer r).settle := by rw [received]
      _ = exec r.command hunting := ((exec_requestCommand r hunting).trans (State.act_works (s := hunting) works _)).symm
  · rw [if_pos other, ← whole] at judged
    refine becomes_settled (effect := (·.receiveBytes [b])) works rfl ?_
    rw [State.receiveBytes_whole (sync_of_frame whole) judged, State.dropFrame]
    rfl
  · exact becomes_act works rfl (State.receiveBytes_hunting hunts other)

theorem State.framingError_kept {s : State} {first : Byte} {again : List Byte} (kept : s.lnk.kept = first :: again) :
    s.framingError = (s.hunt.dropFrame .framing).receiveBytes again := by
  rw [State.framingError, State.dropKept, kept]
  rfl

theorem State.gapExpires_kept {s : State} {first : Byte} {again : List Byte} (kept : s.lnk.kept = first :: again) :
    s.gapExpires = (s.hunt.dropFrame .timeout).receiveBytes again := by
  rw [State.gapExpires, State.dropKept, kept]
  rfl

/-- Settles O53: each drop is judged by the bytes kept, and the bytes behind its sync are received again. -/
theorem dropsAreTakenAgain : Obligations.DropsAreTakenAgain := by
  unfold Obligations.DropsAreTakenAgain
  refine ⟨fun s works => ?_, fun s b rest =>
    ⟨s.receiveBytes_nil, s.receiveBytes_append [b] rest, fun works => becomes_act works rfl rfl⟩⟩
  intro dropped k framing
  refine ⟨fun hunts => ⟨becomes_act works rfl ?_, becomes_act works rfl ?_⟩, fun first again kept =>
    ⟨becomes_act works rfl (State.framingError_kept kept), becomes_act works rfl (State.gapExpires_kept kept),
      fun b => ⟨fun two above => ?_, fun n announced most whole bad => ?_⟩⟩⟩
  · rw [State.framingError, hunts]
    rfl
  · rw [State.gapExpires, hunts]
    rfl
  · have keeps : s.lnk.kept = [] → b = 0xC3#8 := fun hunts => absurd (kept.symm.trans hunts) nofun
    have headed : 3 ≤ (s.lnk.kept ++ [b]).length := by rw [kept]; simp [two]
    have received := State.receiveBytes_drop keeps (judgeKept_badLength headed above)
    rw [kept] at received
    exact becomes_act works rfl received
  · have keeps : s.lnk.kept = [] → b = 0xC3#8 := fun hunts => absurd (kept.symm.trans hunts) nofun
    have announced' : num (s.lnk.kept ++ [b]) 1 2 = n := by rw [num, field_before (by omega), ← num, announced]
    have body : field (s.lnk.kept ++ [b]) 3 (n + 3) = field s.lnk.kept 3 (n + 3) := field_before (by omega) [b]
    have judged := judgeKept_whole announced' most (by rw [List.length_append, List.length_singleton]; omega)
    rw [body, if_pos bad] at judged
    have received := State.receiveBytes_drop keeps judged
    rw [kept] at received
    exact becomes_act works rfl received

end Sys2Proof.Machine
